-- ==== Sys2Proof/Word.lean ====
section
/-! DEFINITION. The words, bytes and stored codewords of the Eflumon V32 module (00_scope.md R6, R7; 08_memory.md R225). -/

namespace Sys2Proof

/-- A word: 64 data bits (R7). -/
abbrev Word := BitVec 64

/-- A byte: 8 bits (R7). -/
abbrev Byte := BitVec 8

/-- A stored word: 64 data bits, the poison bit, 14 check bits and the parity bit (R225). -/
abbrev Codeword := BitVec 80

end Sys2Proof
end

