-- ==== Sys2Proof/Machine/Message.lean ====
section
/-! DEFINITION. The messages of the Kealet fabric (10_links.md R276, R277) and the other operands that commands carry. -/

namespace Sys2Proof

/-- The OP field of a message header (R276). -/
inductive MsgOp where
  | idle | read | write | atomic | accumulate | data | ack | nack | control | collective
  deriving DecidableEq, Repr, Inhabited

/-- The trailer that authenticates a fabric-manager message (R484). -/
structure FmTrailer where
  counter : Nat
  tag     : List Byte
  deriving DecidableEq, Repr, Inhabited

/-- A group-binding request: GROUP_BIND's parameters and payload list as a member sends them (R305). -/
structure BindReq where
  fjob    : Nat
  group   : Nat
  p0      : Word
  p1      : Word
  p2      : Word
  p3      : Word
  members : List Nat
  deriving DecidableEq, Repr, Inhabited

/-- Who sends a time message (R35). -/
inductive TimeFrom where
  | manager
  | neighbour (locked : Bool)
  deriving DecidableEq, Repr, Inhabited

/-- What a VC0 CONTROL message says (R277: the owning chapters give the contents). [Log entries 20: DEDUCED; 21: DEDUCED] -/
inductive Ctl where
  /-- Nothing: the message is not a CONTROL message. -/
  | none
  /-- A time message that carries an FT value, from the fabric manager or from a neighbour that is locked or not (R35). -/
  | time (ft : Nat) (src : TimeFrom)
  /-- A time-transfer message: the sender's FT as it left (R31). -/
  | xferReq (t1 : Nat)
  /-- Its answer: the FT it left with, the answerer's FT as it arrived and as the answer left, and whether the answerer is locked
  and how many hops it is from a module on its own FTSYNC (R31, R32). -/
  | xferAns (t1 t2 t3 : Nat) (locked : Bool) (hops : Nat)
  /-- A register operation of the fabric manager (R484). -/
  | fmOp (write : Bool) (offset : Nat) (value : Word) (trailer : Option FmTrailer)
  /-- A reset message of the fabric manager with its scope word (R446). -/
  | fmReset (scope : Word) (trailer : Option FmTrailer)
  /-- An integer gradient reduction notice (R347), and of an OUTCOME, whether a reset ended the bucket: R449 gives every member
that detail and R347 no bit for it (log entry 20). -/
  | notice (w0 w1 w2 : Word) (byReset : Bool)
  /-- A member's binding request to the coordinator (R305). -/
  | bindReq (r : BindReq)
  /-- The coordinator's outcome: status code, detail and VC number (R305). -/
  | bindOut (fjob group status detail vc : Nat)
  /-- The coordinator asks for the free VC numbers (R306). -/
  | vcQuery (fjob group : Nat)
  /-- A module's answer: its free VC numbers (R306). -/
  | vcFree (fjob group : Nat) (free : List Nat)
  /-- The coordinator marks a VC number (R306). -/
  | vcMark (fjob group vc weight : Nat)
  /-- A module's answer to a mark: taken, or refused (R306). -/
  | vcMarked (fjob group vc : Nat) (taken : Bool)
  /-- The coordinator withdraws a mark (R306). -/
  | vcWithdraw (fjob group vc : Nat)
  /-- A member tells the coordinator that it has unbound the group, or the coordinator a crossed module that every member
  has (R308). -/
  | vcRelease (fjob group vc : Nat)
  /-- A Rowan resend request or flit that travels on VC0 after four unanswered requests (R330). -/
  | rowan (words : List Codeword)
  /-- A request for a spill tensor and its answer (R246). -/
  | spill (fjob : Nat) (words : List Word)
  /-- What a link tells its peer: module number, link number and MODULE_VALID (R283, R300; log entry 21). -/
  | peer (module link : Nat) (valid : Bool)
  /-- A running image asked for or sent over VC0 (R454). -/
  | bootImage (image : List Byte)
  deriving DecidableEq, Repr, Inhabited

/-- A message: its header fields (R276), its mask words and its data words as they travel (R277). -/
structure Msg where
  vc     : Nat
  cls    : Nat
  dest   : Nat
  src    : Nat
  job    : Nat
  op     : MsgOp
  subop  : Nat
  len    : Nat
  master : Nat
  tag    : Nat
  word2  : Word
  pseq   : Nat
  mask   : List Word
  data   : List Codeword
  ctl    : Ctl
  deriving DecidableEq, Repr, Inhabited

/-- The five operations on memory (R207). -/
inductive MemOp where
  | read | write | atomic | accumulate
  deriving DecidableEq, Repr, Inhabited

/-- The atomic operations (R207, R276 SUBOP). -/
inductive AtomicOp where
  | fadd | swap | cas | fand | fior
  deriving DecidableEq, Repr, Inhabited

/-- Where a memory operation comes from: the oldest delivered message of its kind, or a master of this module
(its code of R485, the fabric job number it serves and the packet's SEQ). -/
inductive OpSource where
  | arrived
  | own (master fjob slot seq : Nat)
  deriving DecidableEq, Repr, Inhabited

/-- A silent error of an array, vector engine or adder (14_reliability.md): the place of the wrong result and
the difference it makes. Commands that compute carry the errors of that computation; a sound unit carries none. -/
structure SilentErr where
  row   : Nat
  col   : Nat
  delta : Int
  /-- The component of a complex element: 0 real, 1 imaginary. -/
  comp  : Nat := 0
  deriving DecidableEq, Repr, Inhabited

/-- A stored word in tile shared memory or core memory or DRAM, by its place (R196, R199). -/
inductive Place where
  | dram (tile channel page word : Nat)
  | shared (tile word : Nat)
  | core (tile core word : Nat)
  deriving DecidableEq, Repr, Inhabited

/-- The rails of R422. -/
inductive Rail where
  | vcore | vsram | vstack | vlink
  deriving DecidableEq, Repr, Inhabited

/-- Why the module holds its CXL requests (R507). -/
inductive CxlHold where
  | linkDown | noBme | d3hot
  deriving DecidableEq, Repr, Inhabited

/-- What a field-test pass finds (R412, R413): nothing, or the failing unit's signature. -/
inductive PassResult where
  | passed
  | failedArray (array lane : Nat)
  | failedVector (lane : Nat)
  | failedCore
  | failedWord (word bit : Nat)
  deriving DecidableEq, Repr, Inhabited

/-- A JTAG instruction (R517). -/
inductive JtagIns where
  | bypass | idcode | sample | extest | debug
  deriving DecidableEq, Repr, Inhabited

/-- The transports on which SPDM reaches the module (R477). -/
inductive Transport where
  | attest (window : Nat)
  | doe
  | mctp
  deriving DecidableEq, Repr, Inhabited

end Sys2Proof
end

