-- ==== Sys2Proof/Syntax.lean ====
section
/-! DEFINITION. The commands: one constructor per row of spec/opcode_table.json. -/

namespace Sys2Proof

/-- The NAK and ROWAN bits of a bulk codeword's trailer (R272). -/
structure TrailerFlags where
  nak   : Bool
  rowan : Bool
  deriving DecidableEq, Repr, Inhabited

/-- A Rowan frame as a link receives it: its protected words and its MORE bit (R273). -/
structure ReceivedFrame where
  words : List Codeword
  more  : Bool
  deriving DecidableEq, Repr, Inhabited

/-- A command: an operation of the host, a message, a pin's event, or an event of the module's own. The first operand
`dt` of each is the time in nanoseconds since the command before it. `pid` names a dispatched packet's work;
`hs` holds the host's own stores to its memory that landed before the command. `t1` to `hops` of a time transfer name its exchange (R31).
[Log entries 2: DESIGN CHOICE; 50: DESIGN CHOICE; 98: DESIGN CHOICE] -/
inductive Instr where
  -- command windows (03_commands.md)
  | headerWrite (dt w slot : Nat) (words : List Word)
  | ringPoll (dt w : Nat) (hs : List (Nat × Byte))
  | packetConsume (dt w : Nat) (hs : List (Nat × Byte))
  | dispatch (dt w : Nat)
  | cmdwEnable (dt w : Nat) (value : Word)
  | cmdwDisable (dt w : Nat)
  | cmdwReplyAck (dt w : Nat) (index : Nat)
  | registerWrite (dt master offset size : Nat) (value : Word)
  | ftNowLowRead (dt : Nat)
  -- packets: identity, reset, firmware
  | identify (dt pid : Nat)
  | status (dt pid : Nat)
  | queryCaps (dt pid : Nat)
  | resetScope (dt pid : Nat)
  | fwStage (dt pid : Nat) (hs : List (Nat × Byte))
  | fwSwitch (dt pid : Nat)
  -- packets: memory
  | tensorCreate (dt pid : Nat)
  | tensorFree (dt pid : Nat)
  | copy (dt pid : Nat) (hs : List (Nat × Byte)) (poisoned : List Nat)
  | fill (dt pid : Nat)
  | transposeCopy (dt pid : Nat)
  | fence (dt pid : Nat)
  -- packets: products and kernels
  | matmul (dt pid : Nat)
  | matmulBwdData (dt pid : Nat)
  | matmulBwdWeight (dt pid : Nat)
  | fusedNormBwd (dt pid : Nat)
  | fusedSoftmaxBwd (dt pid : Nat)
  | vectorProgram (dt pid : Nat)
  | reduceMaxmin (dt pid : Nat)
  -- packets: groups and collectives
  | groupBind (dt pid : Nat)
  | groupUnbind (dt pid : Nat)
  | allreduce (dt pid : Nat)
  | reduceScatter (dt pid : Nat)
  | allgather (dt pid : Nat)
  | broadcast (dt pid : Nat)
  | permute (dt pid : Nat)
  | alltoall (dt pid : Nat)
  | barrier (dt pid : Nat)
  | igrBucket (dt pid : Nat)
  | shardDeclare (dt pid : Nat)
  | rowanReduce (dt pid : Nat)
  -- packets: jobs, placement, commit, power, test, security
  | jobOpen (dt pid : Nat)
  | jobClose (dt pid : Nat)
  | phaseMark (dt pid : Nat)
  | placementHint (dt pid : Nat)
  | placementForbid (dt pid : Nat)
  | forbidComplied (dt pid : Nat)
  | placementWithdraw (dt pid : Nat)
  | placementQuery (dt pid : Nat)
  | commitStep (dt pid : Nat)
  | generationQuery (dt pid : Nat)
  | safePoint (dt pid : Nat)
  | opPrefer (dt pid : Nat)
  | capSet (dt pid : Nat)
  | fieldTestSchedule (dt pid : Nat)
  | historyRead (dt pid : Nat)
  | unitRetire (dt pid : Nat)
  | attest (dt pid : Nat)
  | accessTableWrite (dt pid : Nat)
  | fmKeyInstall (dt pid : Nat)
  | officerRootInstall (dt pid : Nat)
  | zeroise (dt pid : Nat)
  | vendorDiagnostic (dt pid : Nat)
  -- memory operations
  | memoryRead (dt : Nat) (src : OpSource) (addr : Word) (len : Nat)
  | memoryWrite (dt : Nat) (src : OpSource) (addr : Word) (len : Nat) (mask : List Word) (data : List Word)
  | memoryAtomic (dt : Nat) (src : OpSource) (addr : Word) (kind : AtomicOp) (operand operand2 : Word)
  | memoryAccumulate (dt : Nat) (src : OpSource) (addr : Word) (lanes : List Word)
  | hostMemRead (dt offset : Nat)
  | hostMemWrite (dt offset : Nat) (line : List Byte)
  | remoteTimeout (dt tag : Nat)
  | scrub (dt : Nat) (place : Place)
  | pageMove (dt tile page : Nat) (toTile toChannel toPage : Nat)
  | pageMoveDone (dt tile page : Nat)
  -- work on cores and its checks
  | workItemDone (dt core : Nat) (errs : List SilentErr)
  | itemsAssign (dt : Nat)
  | recomputeDone (dt sample core : Nat) (errs : List SilentErr)
  | thirdComputeDone (dt sample core : Nat) (errs : List SilentErr)
  | rerunDone (dt sample : Nat)
  | jnsStatusWrite (dt slot : Nat) (value : Word)
  -- Fabric Time
  | barrierSlot (dt slot k : Nat)
  | ftsyncEdge (dt : Nat) (errPs : Int)
  | timeMessage (dt : Nat)
  | timeTransfer (dt link t1 t2 t3 t4 : Nat) (peerLocked : Bool) (hops : Nat)
  | ftMillisecond (dt : Nat) (inputW : Nat) (overTiles : List Nat)
  | referenceLoss (dt : Nat)
  | referenceReturn (dt : Nat)
  | phaseBoundary (dt : Nat) (peaks temps : List Nat)
  -- links
  | lightDetect (dt link : Nat) (lane : Nat)
  | trainingDone (dt link : Nat) (ok : Bool) (peerModule peerLink : Nat) (peerValid : Bool)
  | trainingRetry (dt link : Nat)
  | laneFault (dt link lane : Nat)
  | linkRetrain (dt link : Nat)
  | linkEnable (dt link : Nat) (enable : Bool)
  | linkPort (dt link port : Nat)
  | bulkCodeword (dt link : Nat) (intact : Bool) (corrected : Bool) (seq ack : Nat) (flags : TrailerFlags) (worstLane : Nat)
  | replayTimeout (dt link : Nat)
  | rowanFrame (dt link : Nat) (intact : Bool) (frame : ReceivedFrame)
  | rowanResendTimer (dt tag : Nat)
  | rowanResendRequest (dt link : Nat) (words : List Codeword)
  | messageArrival (dt link : Nat) (m : Msg)
  | transitMessage (dt link : Nat) (m : Msg)
  | portHoldEnd (dt port : Nat)
  | reservationWrite (dt master index word : Nat) (value : Word)
  | fmRegisterOp (dt : Nat)
  | fmReset (dt : Nat)
  -- collectives
  | collectiveStart (dt slot group : Nat)
  | collectiveData (dt : Nat)
  | collectiveDeadline (dt pid : Nat)
  | collectiveResend (dt pid : Nat) (tag : Nat)
  | bindRequest (dt : Nat)
  | bindMark (dt : Nat)
  | bindOutcome (dt : Nat)
  | bindTimeout (dt slot group : Nat)
  | bindMemberTimeout (dt pid : Nat)
  -- integer gradient reduction
  | contributionChunk (dt : Nat) (own : Bool) (errs : List SilentErr)
  | voidNotice (dt : Nat)
  | bucketDeadline (dt pid : Nat)
  | retractNotice (dt : Nat)
  | laneCheck (dt pid : Nat)
  | recollectNotice (dt : Nat)
  | optimizerStart (dt pid : Nat)
  | optimizerDone (dt pid : Nat) (errs : List SilentErr)
  | outcomeNotice (dt : Nat)
  | commitVote (dt slot : Nat)
  | commitDeadline (dt slot : Nat)
  -- shadow stream, site alert
  | shadowCopyDone (dt slot : Nat)
  | shadowEnable (dt slot : Nat) (value : Word)
  | jscGenWrite (dt slot : Nat) (value : Word)
  | siteAlertAssert (dt : Nat)
  | siteAlertDeassert (dt : Nat)
  | safeDeadline (dt slot : Nat)
  | saRelease (dt : Nat) (mask : Nat)
  -- field tests
  | testWindowOpen (dt window : Nat)
  | testStart (dt core : Nat)
  | drainTimeout (dt core : Nat)
  | testWindowEnd (dt window : Nat)
  | testPassDone (dt core : Nat) (result : PassResult)
  -- power and thermal
  | railLimit (dt : Nat) (rail : Rail) (tile : Nat)
  | railRelease (dt : Nat) (rail : Rail) (tile : Nat)
  | junctionHot (dt tile sensor : Nat) (temp : Int)
  | thermalFloorTimer (dt tile : Nat)
  | stackHot (dt tile : Nat) (temp : Int)
  | stackCool (dt tile : Nat) (temp : Int)
  | thermalTrip (dt tile : Nat) (stack : Bool) (temp : Int)
  | profileClear (dt : Nat)
  -- reset and boot
  | powerOn (dt : Nat) (bootSrc clkMode : Nat)
  | perst (dt : Nat)
  | watchdogMiss (dt tile : Nat)
  | tamper (dt sensor : Nat)
  | tileResetDone (dt tile : Nat)
  | coreResetDone (dt core : Nat)
  | bringupDone (dt : Nat) (selfTest0 selfTest16 dramFault slotFails otherFails : Bool)
  | bringupTimeout (dt step : Nat)
  | startGood (dt : Nat)
  | bootLoad (dt : Nat) (len : Nat) (hs : List (Nat × Byte))
  | switchOver (dt : Nat)
  | handoverEnd (dt : Nat)
  | trialEnd (dt : Nat)
  | svnFuse (dt : Nat)
  -- security, sideband, host link, debug
  | doeRequest (dt : Nat) (request : List Byte)
  | mctpMessage (dt kind : Nat) (body : List Byte)
  | heartbeatTimeout (dt session : Nat)
  | controllerFail (dt tile : Nat)
  | cxlLinkDown (dt : Nat) (why : CxlHold)
  | cxlResume (dt : Nat) (why : CxlHold)
  | jtagInstruction (dt : Nat) (ins : JtagIns)
  | thermtripRelease (dt : Nat) (bootSrc clkMode : Nat)
  | powerLoss (dt : Nat)
  | perstRelease (dt : Nat) (bootSrc clkMode : Nat)
  | neighbourBootTimeout (dt : Nat)
  | vcoreSettled (dt tile : Nat)
  | markReply (dt : Nat)
  deriving DecidableEq, Repr

end Sys2Proof
end

