-- ==== Sys2Proof/Decode.lean ====
section
/-! DEFINITION. The command that a word spells by the bits of spec/opcode_table.json: the table gives its rows no bits, so no word spells
one (log entry 13). -/

namespace Sys2Proof

/-- No row of the table gives bits. [Log entry 13: DEDUCED] -/
def decodeTableWord (_nbits _w : Nat) : Option Instr := none

end Sys2Proof
end

