-- ==== Sys2Proof/Config.lean ====
section
/-! DEFINITION. What one part fixes and the values the spec leaves open. Every constant here has no body, so
nothing in Lean can evaluate it: a statement that mentions one holds for every value of it. -/

namespace Sys2Proof

/-- A free value: the spec states no value here. It is applied to `State.freeCount`, which every use advances.
[Log entries 11: DESIGN CHOICE; 22: DESIGN CHOICE] -/
opaque Config.freeNat : Nat → Nat

/-- A free result word, for a destination the spec calls undefined (R74, R162, R391). [Log entry 22: DESIGN CHOICE] -/
opaque Config.freeWord : Nat → Word

/-- The draws of the sampling generator (R392: seeded at each module-scope reset, generator not given),
applied to the number of resets and the number of draws made since. [Log entry 25: DESIGN CHOICE] -/
opaque Config.sampleDraw : Nat → Nat → Nat

/-- PWR_OP_TABLE.VCORE_MV of operating point k, set at test (R426, R443). -/
opaque Config.vcoreMv : Nat → Nat

/-- PWR_OP_TABLE.FULL_DW of operating point k, set at test (R443). -/
opaque Config.fullDw : Nat → Nat

/-- ID_SERIAL.SERIAL (R526: fixed). [Log entry 23: DESIGN CHOICE] -/
opaque Config.serial : Word

/-- ID_SILICON.STEPPING (R526: fixed). [Log entry 23: DESIGN CHOICE] -/
opaque Config.stepping : Nat

/-- ID_SILICON.PACKAGE (R526: fixed). -/
opaque Config.packageBuild : Nat

/-- SHAKE256 with 64 bytes of output (R469: a named standard; the spec gives no algorithm). [Log entry 24: DESIGN CHOICE] -/
opaque Config.shake256 : List Byte → List Byte

/-- KMAC256 keyed with the fabric-manager key, customisation "Kealet FM" (R484: a named standard). [Log entry 24: DESIGN CHOICE] -/
opaque Config.kmac256 : List Byte → List Byte → List Byte

/-- Falcon-1024 verification of a signature over a message under a public key (R471: a named standard). -/
opaque Config.falconVerify : List Byte → List Byte → List Byte → Bool

/-- The vendor key digest in the fuses (R469). -/
opaque Config.vendorKeyDigest : List Byte

/-- The security section and the Voxong section of an image body (R470, R476: the spec does not say where the body is cut). -/
opaque Config.securitySection : List Byte → List Byte
opaque Config.voxongSection : List Byte → List Byte

/-- The boot ROM's measurement (R476). -/
opaque Config.bootRomDigest : List Byte

/-- What an SPDM request asks (R473). A request inside a session names it; FINISH carries the digest of the root under which the
requester authenticated; IDE_KM starts or stops the CXL.io stream or CXL.cachemem IDE (R482). -/
inductive SpdmRequest where
  | plain | unsupported | keyExchange
  | finish (session : Nat) (root : List Byte)
  | heartbeat (session : Nat)
  | endSession (session : Nat)
  | ideKm (session : Nat) (cachemem go : Bool)
  deriving DecidableEq, Repr, Inhabited

/-- What the bytes of a request ask, as the named standard lays them out and the session keys decrypt them. -/
opaque Config.spdmRequest : List Byte → SpdmRequest

/-- The bytes of an SPDM response, laid out by the named standard and signed with derived keys, applied to the request, the
measurement blocks of R476, the certificate slots of R475, the open sessions, whether the signing keys are held, whether the request was accepted, and a fresh value. -/
opaque Config.spdmResponse : List Byte → List (List Byte) → List (List (List Byte)) → List Nat → Bool → Bool → Nat → List Byte

/-- The vendor's root certificate and the module's device identity certificate, which carries its serial number (R475). -/
opaque Config.rootCert : List Byte
opaque Config.deviceCert : Word → List Byte

/-- The alias certificate that carries a fused SVN and a security-section measurement, signed by the device identity key (R475). -/
opaque Config.aliasCert : Nat → List Byte → List Byte

/-- The endpoint ID that an MCTP control message assigns, if it does. -/
opaque Config.mctpEndpoint : List Byte → Option Nat

/-- An MCTP control or PLDM answer's bytes (R516: laid out by the named standards). -/
opaque Config.mctpResponse : Nat → List Byte → List Nat → List Byte

end Sys2Proof
end

