-- ==== Sys2Proof/Machine/State.lean ====
section
/-! DEFINITION. The state of the module as plain data, its state after power-on reset, and the reasons a step stops. -/

namespace Sys2Proof.Machine

/-- Why the module stops. [Log entry 27: DEDUCED] -/
inductive Fault where
  /-- Raised by every command whose operand names a part outside the numbering of R5 (a window above 63, a link above
  17, a tile above 31, a core above 511, a job slot above 3, a logical port above 17, a Rowan tag above 63, a reservation entry above
  63, a register offset at or above 16 MiB, a ring slot above 4,095, an HDM offset at or above 1 TiB). No such part
  exists, so no such event can happen: safe. -/
  | noSuchPart (part : String)
  deriving DecidableEq, Repr

/-- Why a command has no meaning. -/
inductive Refusal where
  /-- Raised only by exec's arm of a command that has no meaning yet: safe. -/
  | notModelled (mnemonic : String)
  deriving DecidableEq, Repr

/-! ## Fabric Time (02_fabric_time.md, R530, R531) -/

/-- The lock states of R35. -/
inductive LockState where
  | unset | acquiring | locked | holdover | freerun
  deriving DecidableEq, Repr, Inhabited

/-- FT_STATUS.SOURCE (R530). -/
inductive FtSource where
  | none | ownSync | linkTransfer | refAlone
  deriving DecidableEq, Repr, Inhabited

/-- One FT_LINK_OFFSET and FT_LINK_ASYM pair (R531), with what the last exchange said of the neighbour. -/
structure LinkTime where
  offsetPs   : Int := 0
  measured   : Bool := false
  at_        : Nat := 0
  asymPs     : Int := 0
  peerLocked : Bool := false
  hops       : Nat := 0
  deriving DecidableEq, Repr, Inhabited

/-- The Fabric Time block. `ps` counts FT in picoseconds; FT is `ps / 1000`. [Log entry 28: DESIGN CHOICE] -/
structure FtBlock where
  ps          : Nat := 0
  highLatch   : Nat := 0
  state       : LockState := .unset
  source      : FtSource := .none
  srcLink     : Nat := 0
  rejected    : Nat := 0
  boundPs     : Nat := 0
  outOfLock   : Bool := false
  phasePeriod : Nat := 100000
  releaseLead : Nat := 2000
  lateRelease : Nat := 0
  links       : Vector LinkTime 18 := Vector.replicate 18 {}
  quiet       : Nat := 0
  /-- Milliseconds since the last accepted FTSYNC edge, at most 3; 3 while there was none (R35). -/
  silentMs    : Nat := 3
  edgePs      : Option Int := none
  slewPs      : Int := 0
  /-- What the slewing has not yet added to `ps`, in millionths of a picosecond. -/
  slewRem     : Int := 0
  drift       : List Nat := []
  refPresent  : Bool := true
  syncPulses  : Nat := 0
  deriving DecidableEq, Repr, Inhabited

/-! ## Command windows (03_commands.md) -/

/-- A command packet: its eight header words (R67), its payload words, its window and its stamp (R38). -/
structure Packet where
  window  : Nat := 0
  hdr     : List Word := []
  payload : List Word := []
  stamp   : Nat := 0
  deriving DecidableEq, Repr, Inhabited

/-- A command window: its registers (R529) and the packets it has found and consumed. -/
structure Window where
  enable     : Bool := false
  ringInHost : Bool := false
  pollUs     : Nat := 0
  ringAddr   : Nat := 0
  replyAddr  : Nat := 0
  head       : Nat := 0
  headPhase  : Bool := false
  nextSeq    : Nat := 0
  tail       : Nat := 0
  tailPhase  : Bool := false
  ack        : Nat := 0
  replyFull  : Bool := false
  cfgErr     : Bool := false
  ackErr     : Bool := false
  seqErr     : Nat := 0
  /-- The packet found and stamped whose payload is being read (R56). -/
  found      : Option Packet := none
  /-- The packets consumed and not yet dispatched, in ring order (R57, R76). -/
  queue      : List Packet := []
  /-- Reply entries reserved by dispatched packets and not yet written (R77). -/
  reserved   : Nat := 0
  deriving DecidableEq, Repr, Inhabited

/-- The status codes (R74). -/
inductive Status where
  | done | accepted | badOpcode | badParam | noResource | accessDenied | nanTrap | scaleRange
  | staleGeneration | epochFencePending | lateExcluded | poisonedContribution | checkMismatch
  | replayedOk | sloeOnly | internal
  deriving DecidableEq, Repr, Inhabited

/-! ## Numeric status, step status, suspect and shadow sets of a job slot -/

/-- JNS_NAN_REC or JNS_RANGE_REC (R110). -/
structure NumRec where
  seq    : Nat := 0
  window : Nat := 0
  opcode : Nat := 0
  vector : Bool := false
  source : Nat := 0
  ft     : Nat := 0
  tile   : Nat := 0
  core   : Nat := 0
  array  : Nat := 0
  row    : Nat := 0
  col    : Nat := 0
  elem   : Nat := 0
  deriving DecidableEq, Repr, Inhabited

/-- The numeric status set (R107 to R109). -/
structure NumSet where
  nanTrap    : Bool := false
  scaleRange : Bool := false
  tiny       : Bool := false
  rangeCount : Nat := 0
  nanHalt    : Bool := false
  nanRec     : NumRec := {}
  rangeRec   : NumRec := {}
  /-- The work that filled the NaN record (R106). -/
  nanPid     : Option Nat := none
  deriving DecidableEq, Repr, Inhabited

/-- JSC_POISON_REC (R369). -/
structure PoisonRec where
  bucket   : Nat := 0
  rank     : Nat := 0
  mod      : Nat := 0
  step     : Nat := 0
  ft       : Nat := 0
  element  : Nat := 0
  poisoned : Bool := false
  deriving DecidableEq, Repr, Inhabited

/-- The step status set (R368). -/
structure StepSet where
  grace      : Nat := 100000
  gen        : Nat := 0
  genOpen    : Bool := true
  poisonTrap : Bool := false
  late       : Nat := 0
  retract    : Nat := 0
  recollect  : Nat := 0
  poisonRec  : PoisonRec := {}
  deriving DecidableEq, Repr, Inhabited

/-- The suspect set (R417). -/
structure SuspectSet where
  fromGen : Nat := 0
  valid   : Bool := false
  nominal : Bool := false
  core    : Nat := 0
  deriving DecidableEq, Repr, Inhabited

/-- A shadow copy in progress (R377): once its data writes are issued, its bytes, its sections and when; and whether one of them
failed (R389). -/
structure ShadowCopy where
  gen      : Nat
  commitFt : Nat
  issued   : Option (Nat × Nat × Nat) := none
  failed   : Bool := false
  deriving DecidableEq, Repr, Inhabited

/-- The shadow set (R375). -/
structure ShadowSet where
  enable  : Bool := false
  content : Nat := 1
  stall   : Bool := false
  fabric  : Bool := false
  every   : Nat := 1
  rate    : Nat := 256
  base    : Word := 0
  bytes   : Nat := 0
  cfgErr  : Bool := false
  skipped : Nat := 0
  lastGen : Nat := 0
  copy    : Option ShadowCopy := none
  /-- The READ of ACK that a due copy waits for: its tag, and the copy (R378). -/
  asking  : Option (Nat × ShadowCopy) := none
  /-- Records written since ENABLE, and the generation of the last of them (R377, R380). -/
  records : Nat := 0
  lastRec : Option Nat := none
  deriving DecidableEq, Repr, Inhabited

/-! ## Jobs, groups and steps -/

/-- A placement rule (R255, R256), and the number that the job's next tensor had when it was recorded. -/
structure Rule where
  action : Nat
  kind   : Nat
  handle : Nat
  target : Nat
  since  : Nat := 0
  deriving DecidableEq, Repr, Inhabited

/-- A scale group's record (R341). -/
structure ScaleGroup where
  sgroup   : Nat
  group    : Nat
  grad     : Nat
  off      : Nat
  units    : Nat
  exp      : Option Int := none
  inFlight : Bool := false
  deriving DecidableEq, Repr, Inhabited

/-- A bucket dispatched in the current step: its number, deadline and epoch, its range of its gradient tensor in bytes,
and on its owner its range of the shard in elements (R340, R357, R366). -/
structure StepBucket where
  num      : Nat
  deadline : Nat
  epoch    : Nat
  grad     : Nat
  gradOff  : Nat
  gradLen  : Nat
  shard    : Option (Nat × Nat × Nat) := none
  deriving DecidableEq, Repr, Inhabited

/-- A failure the member knows of in the current step: its FT, its status and its detail (R359). -/
structure Fail where
  ft     : Nat
  status : Status
  detail : Nat
  deriving DecidableEq, Repr, Inhabited

/-- The record GENERATION_QUERY writes (R361). -/
structure StepRec where
  step   : Nat
  raised : Nat
  status : Nat
  ft     : Nat
  gen    : Nat
  deriving DecidableEq, Repr, Inhabited

/-- The commit of the current step on this member (R357): the waiting COMMIT_STEP packets, the stamp of the first of them,
and whether the member has joined the vote. -/
structure CommitSt where
  pids  : List Nat := []
  stamp : Nat := 0
  voted : Bool := false
  deriving DecidableEq, Repr, Inhabited

/-- The site states of a job (R382). -/
inductive SiteState where
  | running | safing | parked
  deriving DecidableEq, Repr, Inhabited

/-- A group as one member holds it (R303), with its communication queue: the collectives dispatched and not started. -/
structure Group where
  num     : Nat
  block   : Bool
  members : List Nat
  ext     : Nat × Nat × Nat
  prec    : Nat
  vc      : Option Nat := none
  weight  : Nat := 0
  cseq    : Nat := 0
  queue   : List Nat := []
  deriving DecidableEq, Repr, Inhabited

/-- A job slot. [Log entry 63: DESIGN CHOICE] -/
structure Job where
  opened     : Bool := false
  closing    : Bool := false
  fjob       : Nat := 0
  seed       : Word := 0
  ramp       : Nat := 1
  keep3      : Bool := false
  num        : NumSet := {}
  stp        : StepSet := {}
  sus        : SuspectSet := {}
  shadow     : ShadowSet := {}
  phase      : Nat := 0
  /-- The preferences that differ from OP0, by phase (R432). -/
  prefs      : List (Nat × Nat) := []
  groups     : List Group := []
  rules      : List Rule := []
  site       : SiteState := .running
  safeT      : Nat := 0
  /-- The generations that the job has had since its numbering was set, the current one among them, at most 3 (R187, R338). -/
  kept       : Nat := 1
  /-- The current step's lanes 0 to 6 (R358): the earliest FT of each condition. -/
  lanes      : List (Option Nat) := [none, none, none, none, none, none, none]
  fails      : List Fail := []
  scales     : List ScaleGroup := []
  /-- The buckets dispatched in the current step (R340, R357, R366). -/
  buckets    : List StepBucket := []
  commit     : CommitSt := {}
  records    : List StepRec := []
  /-- The generation at the moment GEN_OPEN was cleared (R401). -/
  genAtOpen  : Nat := 0
  nextHandle : Nat := 1
  /-- The tensors whose pages the placer may rebalance since the job's last step boundary (R253). -/
  movable    : List Nat := []
  deriving DecidableEq, Repr, Inhabited

/-! ## Tensors, shards, pages and the error log (08_memory.md, 12_gradient_reduction.md) -/

/-- A tensor (R210, R211). A spilled tensor lies on another module, at a base address in SPACE 1 (R246). -/
structure Tensor where
  num   : Nat
  slot  : Nat
  tile  : Nat
  page  : Nat
  spill : Option Word := none
  bytes : Nat
  fmt   : Nat
  cplx  : Bool
  life  : Nat
  rows  : Nat
  cols  : Nat
  epoch : Nat
  /-- TENSOR_FREE has been dispatched (R79). -/
  freed : Bool := false
  deriving DecidableEq, Repr, Inhabited

/-- A declared shard (R334, R335). -/
structure Shard where
  slot   : Nat
  param  : Nat
  master : Nat
  state  : Nat
  prog   : Nat
  hyper  : List Nat
  elems  : Nat
  pfmt   : Nat
  states : Nat
  /-- The generations that the shard has had since its declaration or its last re-sharding, at most 3 (R187, R336, R367). -/
  kept   : Nat := 1
  deriving DecidableEq, Repr, Inhabited

/-- A page-map entry (R201). -/
structure PageEntry where
  tile    : Nat
  channel : Nat
  page    : Nat
  backed  : Bool
  deriving DecidableEq, Repr, Inhabited

/-- Why a page moves (R263). -/
inductive MoveCause where
  | rebalance | retire | forbid (pid : Nat)
  deriving DecidableEq, Repr, Inhabited

/-- A message delivered on this module: the link it came on and its stamp (R38, R297). -/
structure Delivered where
  link  : Nat
  stamp : Nat
  msg   : Msg
  deriving DecidableEq, Repr, Inhabited

/-- An operation held at a moving page: one of a master of this module, or one that arrived (R202). -/
inductive HeldOp where
  | own (i : Instr)
  | arrived (d : Delivered)
  deriving DecidableEq, Repr

/-- A page move in progress (R202): the logical page, where it goes, and the operations held. -/
structure Move where
  tile    : Nat
  page    : Nat
  toTile  : Nat
  toChan  : Nat
  toPage  : Nat
  cause   : MoveCause
  held    : List HeldOp := []
  deriving DecidableEq, Repr

/-- A staged copy of a logical page in a tile's shared memory or a core's memory (R247): the words that differ from
the home page, by word index, as stored. [Log entry 66: DEDUCED] -/
structure Staged where
  tile     : Nat
  core     : Option Nat
  homeTile : Nat
  page     : Nat
  keep     : Bool := false
  flaws    : List (Nat × Codeword) := []
  deriving DecidableEq, Repr, Inhabited

/-- An error log record (R237), and whether its word 0 has been read (R235). -/
structure LogRec where
  kind    : Nat := 0
  memory  : Nat := 0
  tile    : Nat := 0
  core    : Nat := 0
  channel : Nat := 0
  page    : Nat := 0
  job     : Nat := 0
  master  : Nat := 0
  addr    : Word := 0
  ft      : Nat := 0
  synd    : Nat := 0
  bit0    : Nat := 0
  bit1    : Nat := 0
  seq     : Nat := 0
  seen    : Bool := false
  deriving DecidableEq, Repr, Inhabited

/-- The memory error registers (R235 to R237). -/
structure MemErr where
  ueSeen   : Bool := false
  overflow : Bool := false
  ce       : Nat := 0
  ue       : Nat := 0
  next     : Nat := 0
  valid    : Nat := 0
  scrubEn  : Bool := true
  logCe    : Bool := true
  hours    : Nat := 12
  mins     : Nat := 60
  log      : Vector LogRec 32 := Vector.replicate 32 {}
  deriving DecidableEq, Repr, Inhabited

/-- The accesses of a logical page by a requesting tile, in its job's present step and in the one before (R243, R253). -/
structure AccessCount where
  tile  : Nat
  page  : Nat
  by_   : Nat
  now   : Nat
  last  : Nat
  deriving DecidableEq, Repr, Inhabited

/-! ## Work on cores -/

/-- A running sum: FP32 bits in SR mode and on vector engines, or the Quince accumulator (R114, R155). -/
inductive Acc where
  | fp (bits : Nat)
  | quince (q : Int) (pos neg nan : Bool)
  deriving DecidableEq, Repr, Inhabited

/-- The running sum of one result element, component 0 real and 1 imaginary. -/
structure AccCell where
  row  : Nat
  col  : Nat
  comp : Nat
  val  : Acc
  deriving DecidableEq, Repr, Inhabited

/-- The kinds of numeric event (R102, R104). -/
inductive EvKind where
  | nan (source : Nat) | range (source : Nat) | tiny
  deriving DecidableEq, Repr, Inhabited

/-- A numeric event at a result element. -/
structure NumEv where
  kind   : EvKind
  vector : Bool
  row    : Nat
  col    : Nat
  deriving DecidableEq, Repr, Inhabited

/-- A work item or kernel row (R138), with the core that runs or ran it (R261). -/
structure Item where
  num      : Nat
  part     : Nat := 0
  g        : Nat := 0
  n        : Nat := 0
  core     : Option Nat := none
  started  : Bool := false
  finished : Bool := false
  skipped  : Bool := false
  attempts : Nat := 1
  ran      : Nat := 0
  /-- The tiles whose cores have run the item (R162). -/
  tried    : List Nat := []
  /-- The item consumed a poisoned word and no intact copy existed (R230). -/
  poisoned : Bool := false
  /-- Output tiles whose check failed three times: their elements are undefined (R162). -/
  lost     : List Nat := []
  acc      : List AccCell := []
  deriving DecidableEq, Repr, Inhabited

/-- What a sample unit is (R392). -/
inductive SampleUnit where
  | tile (row col : Nat)
  | row (r : Nat)
  | params
  | result
  | mean (row : Nat)
  deriving DecidableEq, Repr, Inhabited

/-- The stages of a dispatched packet's work: handed to its unit, running, or waiting for an event of another row. -/
inductive Stage where
  | handed | running | waiting
  deriving DecidableEq, Repr, Inhabited

/-- A word that a parameter gather delivered (R190): a re-gather delivers the same data (R231). [Log entry 49: DEDUCED] -/
structure Gathered where
  key  : Nat
  data : Word
  slot : Nat
  gen  : Nat
  /-- The number of the parameter tensor gathered. -/
  src  : Nat := 0
  deriving DecidableEq, Repr, Inhabited

/-- A dispatched packet that has not written its final reply (R69), and its work. [Log entry 34: DESIGN CHOICE] -/
structure Work where
  pid      : Nat
  pkt      : Packet
  slot     : Option Nat
  fjob     : Nat
  /-- The step number kept with the packet (R151) and its packet key (R149). -/
  step     : Nat := 0
  pk0      : Nat := 0
  pk1      : Nat := 0
  stage    : Stage := .handed
  dispFt   : Nat := 0
  /-- The FT at which a booked effect is due (R45, R305). -/
  due      : Nat := 0
  reserve  : Nat := 1
  items    : List Item := []
  /-- The conditions met so far: statuses with details (R537). -/
  outs     : List (Status × Nat) := []
  /-- Tags of remote operations without a response (R209). -/
  tags     : List Nat := []
  /-- The words of the mask tensor or of the vector program, read whole before the work starts (R177, R538). -/
  mask     : List Word := []
  /-- The work serves an owner's optimizer of this bucket's work (R353). -/
  serves   : Option Nat := none
  /-- The sample units selected at dispatch (R392). -/
  sampled  : List SampleUnit := []
  /-- The RESULT its final reply carries (R70). -/
  result   : Nat := 0
  /-- Spill modules asked for a new tensor so far (R246). -/
  asked    : List Nat := []
  /-- The collective sequence number given at dispatch (R310). -/
  cseq     : Nat := 0
  /-- The layout epochs of its SRC and DST when it was dispatched, the lower of the two (R366). -/
  epoch    : Nat := 0
  deriving DecidableEq, Repr, Inhabited

/-- A hardware thread of a core's thread engine that differs from a cleared one (R125): the core, its number 0 to 255, its program
counter in instructions, its 32 scalar registers, and the kernel row it runs, by packet and item. -/
structure HwThread where
  core : Nat
  num  : Nat
  pc   : Nat := 0
  regs : Vector Word 32 := Vector.replicate 32 0
  row  : Option (Nat × Nat) := none
  deriving DecidableEq, Repr, Inhabited

/-- The weight tile buffer of a core (R114, R116, R119): the cells of its active and shadow tile that are not +0, by cell number
(row times 64 and column) with the bits of the operand element each holds a part of, and which part. -/
structure WeightBuf where
  core   : Nat
  active : List (Nat × Nat × Nat) := []
  shadow : List (Nat × Nat × Nat) := []
  deriving DecidableEq, Repr, Inhabited

/-- A packet's item map, kept until the job's second step boundary after its final reply (R262). -/
structure ItemMap where
  window : Nat
  seq    : Nat
  slot   : Nat
  left   : Nat
  items  : List Item
  deriving DecidableEq, Repr, Inhabited

/-- A remote operation without a response (R209): its message, when it was sent, the packet it serves, and where
the data of a READ goes. -/
structure RemoteOp where
  tag  : Nat
  pid  : Option Nat
  msg  : Msg
  sent : Nat
  dst  : Option Word
  hostDst : Option Nat
  deriving DecidableEq, Repr, Inhabited

/-! ## Collectives, Rowan reductions and buckets (11, 12) -/

/-- An element of collective data: its bits and whether its word was poisoned. -/
structure Elem where
  bits   : Nat
  poison : Bool
  deriving DecidableEq, Repr, Inhabited

/-- A COLLECTIVE message's contents as received: phase, sender's rank, element offset, elements, and whether its stamp
misses the deadline. -/
structure Piece where
  phase  : Nat
  rank   : Nat
  offset : Nat
  elems  : List Elem
  late   : Bool
  deriving DecidableEq, Repr, Inhabited

/-- A COLLECTIVE message sent and not acknowledged (R319). -/
structure Sent where
  tag    : Nat
  msg    : Msg
  at_    : Nat
  resent : Bool
  deriving DecidableEq, Repr, Inhabited

/-- A bulk collective in flight on this member: taken from its queue's packet, started or not (R311), its data sent or
waiting for a commit (R24), the pieces received, its part reduced (R315), anything excluded or discarded, its deadline
reached (R317), and the messages not acknowledged (R319). [Log entry 78: DEDUCED] -/
structure Coll where
  pid     : Nat
  slot    : Nat
  group   : Nat
  cseq    : Nat
  started : Bool := false
  sentAll : Bool := false
  got     : List Piece := []
  reduced : Bool := false
  late    : Bool := false
  expired : Bool := false
  /-- The interim EPOCH_FENCE_PENDING reply has been written (R323). -/
  fenced  : Bool := false
  unacked : List Sent := []
  deriving DecidableEq, Repr, Inhabited

/-- What a Rowan reduction serves. -/
inductive RowanUse where
  | reduce (pid : Nat)
  | barrier (pid : Nat)
  | scale (slot sgroup : Nat)
  | vote (slot : Nat)
  deriving DecidableEq, Repr, Inhabited

/-- A Rowan flit (R328). -/
structure Flit where
  tag   : Nat
  kind  : Nat
  op    : Nat
  axis  : Nat
  inst  : Nat
  step  : Nat
  part  : Nat
  dest  : Nat
  group : Nat
  jobLo : Nat
  lanes : List Nat
  deriving DecidableEq, Repr, Inhabited

/-- A Rowan reduction this module holds a tag for: its place on the current ring and its partial results (R327). -/
structure RowanRun where
  serves : RowanUse
  fjob   : Nat
  slot   : Nat
  group  : Nat
  inst   : Nat
  op     : Nat
  lanes  : Nat
  /-- The current axis and those after it: axis number and the ring's members in ring order. -/
  rings  : List (Nat × List Nat)
  step   : Nat
  /-- The FT at which the current step's flits were sent, or its last resend request (R330). -/
  sentAt : Nat
  v      : List Nat
  up     : List Nat
  dn     : List Nat
  x      : List Nat
  y      : List Nat
  sent   : List Flit := []
  got    : List Flit := []
  asked  : Nat := 0
  deriving DecidableEq, Repr, Inhabited

/-- A count of the uses of a Rowan tag by a group (R328 INSTANCE). -/
structure TagUse where
  tag   : Nat
  fjob  : Nat
  group : Nat
  count : Nat
  /-- The flits this member sent in the last use, for neighbours that still miss one (R330). -/
  sent  : List Flit := []
  deriving DecidableEq, Repr, Inhabited

/-- A member's standing at the owner of a bucket (R348, R349). -/
structure Standing where
  added    : Nat := 0
  /-- Offsets of the chunks added since the counter last was a multiple of COUNT (R319). -/
  seen     : List Nat := []
  complete : Option Nat := none
  /-- RETRACT has been sent (R349). -/
  retracted : Bool := false
  voided   : Bool := false
  voidElem : Nat := 0
  voidPoison : Bool := false
  deriving DecidableEq, Repr, Inhabited

/-- The owner's side of a bucket (R342, R348 to R354): where its accumulation buffer lies, each member's standing by rank, the counted ranks once closed, the re-collections made, the mean gradients once formed with their
poison, the core that formed them, whether the optimizer runs, the failure that ended it, and whether work was replayed. -/
structure OwnerSide where
  members  : List Standing
  bufTile  : Nat
  bufPage  : Nat
  bufPages : Nat
  closed   : Bool := false
  counted  : List Nat := []
  collects : Nat := 0
  mean     : Option (List Nat) := none
  core     : Nat := 0
  /-- The words of the optimizer's program, once it runs (R353, R538). -/
  program  : Option (List Word) := none
  failed   : Option (Status × Nat) := none
  replayed : Bool := false
  deriving DecidableEq, Repr, Inhabited

/-- A bucket in flight on this member (R343). -/
structure Bucket where
  pid      : Nat
  slot     : Nat
  group    : Nat
  cseq     : Nat
  started  : Bool := false
  /-- The member has sent its chunks, or its VOID notice. -/
  sentAll  : Bool := false
  /-- The owner's own chunks not yet accepted by its adders (R38), by first element. -/
  ownChunks : List (Nat × List Int) := []
  owner    : Option OwnerSide := none
  unacked  : List Sent := []
  deriving DecidableEq, Repr, Inhabited

/-- A binding that this module coordinates (R305, R306): the requests by module, the FT of the first, the modules to mark,
the free numbers that answered its query, the number being marked, the modules that took the mark, the numbers refused, the
outcome once decided, and the members that have unbound the group since (R308). -/
structure BindCo where
  fjob    : Nat
  slot    : Nat
  group   : Nat
  reqs    : List (Nat × BindReq)
  firstAt : Nat
  toMark  : List Nat := []
  frees   : List (Nat × List Nat) := []
  trying  : Option Nat := none
  marked  : List Nat := []
  tried   : List Nat := []
  done    : Bool := false
  vc      : Nat := 0
  gone    : List Nat := []
  deriving DecidableEq, Repr, Inhabited

/-- A mark of a group VC number on this module (R306). -/
structure VcMark where
  vc     : Nat
  fjob   : Nat
  group  : Nat
  weight : Nat
  deriving DecidableEq, Repr, Inhabited

/-- A barrier's release (R48): the job slot, the release FT and the slot width. -/
structure Ramp where
  slot    : Nat
  release : Nat
  width   : Nat
  deriving DecidableEq, Repr, Inhabited

/-! ## Links, ports and the fabric (10_links.md) -/

/-- The link states of R283. -/
inductive LinkState where
  | off | down | training | up
  deriving DecidableEq, Repr, Inhabited

/-- A message on its way out, and the link it arrived on when it is transit (R282). -/
structure Out where
  msg : Msg
  via : Option Nat
  deriving DecidableEq, Repr, Inhabited

/-- A codeword sent and not acknowledged, with the message it carries (R274). -/
structure TxCw where
  seq : Nat
  out : Out
  deriving DecidableEq, Repr, Inhabited

/-- A Rowan frame handed to a link: its four protected words, its MORE bit, and when (R273). Its nine reserved bits are 0. -/
structure RowanFrame where
  words : List Codeword
  more  : Bool := false
  at_   : Nat := 0
  deriving DecidableEq, Repr, Inhabited

/-- A Kealet link: its registers (R300), its lanes' present condition (R284) and its line state (R272 to R274). -/
structure Link where
  enable      : Bool := true
  port        : Nat := 0
  st          : LinkState := .down
  width       : Nat := 0
  laneFault   : Nat := 0
  widthDrop   : Bool := false
  peerErr     : Bool := false
  retired     : Bool := false
  peerModule  : Nat := 0
  peerLink    : Nat := 0
  peerValid   : Bool := false
  wVc0        : Nat := 8
  wVc2        : Nat := 64
  wVc3        : Nat := 16
  cwCorrected : Nat := 0
  cwUncorr    : Nat := 0
  rowanDiscard : Nat := 0
  replays     : Nat := 0
  transitDrop : Nat := 0
  unreachDrop : Nat := 0
  /-- Bit i: lane i is faulted now (no signal, no lock, or too many symbol errors). -/
  lanesBad    : Nat := 0
  light       : Bool := false
  failedTraining : Bool := false
  txNext      : Nat := 0
  unacked     : List TxCw := []
  /-- Messages that wait for room among the 256 unacknowledged codewords (R274). -/
  waiting     : List Out := []
  rxNext      : Nat := 0
  nak         : Bool := false
  rxAck       : Nat := 511
  /-- When ACK last advanced, or the first of the unacknowledged codewords was sent or resent (R274). -/
  ackAt       : Nat := 0
  /-- The lane pair of a width change in progress: 1 lanes 0 and 1, 2 lanes 2 and 3, 0 none (R284). -/
  pair        : Nat := 0
  /-- The last frame received says that a Rowan frame follows: the ROWAN bit of a trailer, or MORE (R272, R273). -/
  rowanNext   : Bool := false
  /-- The Rowan frames handed to the link, latest first (R273). -/
  rowanTx     : List RowanFrame := []
  deriving DecidableEq, Repr, Inhabited

/-- A logical port (R278 to R282): its PSEQ numbering, its peer, and the messages it holds. -/
structure Port where
  pseq    : Nat := 0
  held    : List Out := []
  /-- A hold of R281: its members' slots before the change, and the PSEQ of each message sent before it and not acknowledged. -/
  holding : Bool := false
  before  : List Nat := []
  sentBefore : List Nat := []
  seen    : List Nat := []
  peer    : Option Nat := none
  deriving DecidableEq, Repr, Inhabited

/-- A reservation entry (R295, R301). -/
structure Reservation where
  job     : Nat := 0
  inPort  : Nat := 0
  outPort : Nat := 0
  valid   : Bool := false
  rate    : Nat := 0
  deriving DecidableEq, Repr, Inhabited

/-- The fabric registers (R301) and the route table as the entries that differ from 0x1F (R291). -/
structure Fabric where
  mod       : Nat := 0
  modValid  : Bool := false
  legacy    : Bool := false
  transitEn : Bool := true
  resErr    : Bool := false
  localDrop : Nat := 0
  res       : Vector Reservation 64 := Vector.replicate 64 {}
  routes    : List (Nat × Nat) := []
  deriving DecidableEq, Repr, Inhabited

/-! ## Reliability (14_reliability.md) -/

/-- A unit (R403). -/
inductive Unit_ where
  | core (g : Nat)
  | array (g a : Nat)
  | link (l : Nat)
  | channel (t c : Nat)
  | page (t c p : Nat)
  deriving DecidableEq, Repr, Inhabited

/-- An event record of unit history (R408). -/
structure HistEv where
  unit : Unit_
  mech : Nat
  count : Nat
  job  : Nat
  ft   : Nat
  oph  : Nat
  sig  : Nat
  seq  : Nat
  temp : Nat
  deriving DecidableEq, Repr, Inhabited

/-- The standing of a unit that has any record (R408): 1 transient, 2 permanent, 3 by command, 4 pending. -/
structure UnitSt where
  unit    : Unit_
  st      : Nat
  lastFt  : Nat
  total   : Nat
  deriving DecidableEq, Repr, Inhabited

/-- A core's last test (R408, R401): the verdict, and the FT and generations of its last passing test. -/
structure CoreTest where
  core     : Nat
  verdict  : Nat
  endFt    : Nat
  passFt   : Nat
  gens     : List (Option Nat)
  deriving DecidableEq, Repr, Inhabited

/-- A booked field-test window (R409). -/
structure TestWindow where
  num   : Nat
  start : Nat
  stop  : Nat
  core  : Option Nat
  tile  : Nat
  opened : Bool := false
  deferred : Bool := false
  deriving DecidableEq, Repr, Inhabited

/-- A core being drained or under test (R410 to R412). -/
structure TestRun where
  core     : Nat
  window   : Option Nat
  started  : Bool := false
  /-- Job slots whose step boundary the drain still waits for (R25). -/
  waits    : List Nat := []
  lastBoundary : Nat := 0
  /-- The pass in progress is the second one, at the operating-point clock. -/
  nominal  : Bool := false
  suspect  : Bool := false
  deferred : Bool := false
  deriving DecidableEq, Repr, Inhabited

/-- A stored output of a sampled unit: address, codeword. -/
structure OutWord where
  addr : Nat
  bits : Nat
  poison : Bool
  deriving DecidableEq, Repr, Inhabited

/-- A sampled unit in flight (R393 to R396): the unit as first stored, what a sound core stores, and what the recomputation
gave. [Log entry 93: DEDUCED] -/
structure Sample where
  id     : Nat
  pid    : Nat
  slot   : Nat
  unit   : SampleUnit
  core   : Nat
  vector : Bool
  orig   : List OutWord := []
  sound  : List OutWord := []
  second : List OutWord := []
  core2  : Nat := 0
  /-- 1 captured, 2 the results differ, 3 re-runs in progress. -/
  stage  : Nat := 1
  decidedAt : Nat := 0
  deriving DecidableEq, Repr, Inhabited

/-- A packet of a job's current step that writes this module's memory (R396, R399): its work, the ranges of word keys
it reads and writes, the words of its destinations that it also read as they were before, the ranges of its destinations
whose data has left the module (R397), and for an optimizer what it ran with (R353). -/
structure Wrote where
  slot   : Nat
  work   : Work
  reads  : List (Nat × Nat) := []
  writes : List (Nat × Nat) := []
  before : List OutWord := []
  sent   : List (Nat × Nat) := []
  owner  : Option OwnerSide := none
  deriving DecidableEq, Repr, Inhabited

/-- The reliability registers (R416), samples, tests and unit history. -/
structure Rel where
  sampleEn   : Bool := true
  gate       : Bool := true
  log2       : Nat := 6
  stress     : Nat := 6
  retiredNew : Bool := false
  histDrop   : Bool := false
  suspectNew : Bool := false
  sampled    : Nat := 0
  mismatches : Nat := 0
  samplerFaults : Nat := 0
  passed     : Nat := 0
  failed     : Nat := 0
  skipped    : Nat := 0
  ended      : Nat := 0
  deferredCount : Nat := 0
  samples    : List Sample := []
  nextSample : Nat := 0
  draws      : Nat := 0
  suspects   : List Nat := []
  windows    : List TestWindow := []
  nextWindow : Nat := 0
  tests      : List TestRun := []
  /-- Cores that failed at nominal and stay out of service until a test passes (R413). -/
  outCores   : List Nat := []
  wrote      : List Wrote := []
  hist       : List HistEv := []
  units      : List UnitSt := []
  coreTests  : List CoreTest := []
  ophNs      : Nat := 0
  deriving DecidableEq, Repr, Inhabited

/-! ## Power (15_power.md) -/

/-- A power profile (R436): its key, the periods learnt, its peak in dW, and when it was last used. -/
structure Profile where
  slot    : Nat
  tile    : Nat
  phase   : Nat
  op      : Nat
  band    : Nat
  tband   : Nat
  periods : Nat
  peak    : Nat
  used    : Nat
  deriving DecidableEq, Repr, Inhabited

/-- A tile's power and thermal state (R423, R430, R438 to R440, R443). -/
structure PTile where
  op        : Nat := 7
  /-- Operating point allocated by R438, and the one the voltage is moving to. -/
  alloc     : Nat := 7
  settling  : Option Nat := none
  vcoreEvt  : Bool := false
  vsramEvt  : Bool := false
  vstackEvt : Bool := false
  floor     : Nat := 0
  stackHot  : Bool := false
  sensors   : List Int := [0, 0, 0, 0, 0, 0, 0, 0]
  stackC    : Int := 0
  budget    : Nat := 0
  learnt    : Bool := false
  /-- A rail event or thermal throttle acted in the phase period now running (R436). -/
  spoilt    : Bool := false
  /-- The starts of the tile's cores from idle that the start limiter still counts or has booked, by core and time (R428). -/
  starts    : List (Nat × Nat) := []
  /-- The profile key in force since the last boundary: job slot, phase, operating point, core band, temperature band. -/
  key       : Option (Nat × Nat × Nat × Nat × Nat) := none
  deriving DecidableEq, Repr, Inhabited

/-- The power block (R442, R443). -/
structure Power where
  cap         : Nat := 4800
  learnEn     : Bool := true
  learnPeriods : Nat := 16
  staticPct   : Nat := 10
  profilePct  : Nat := 3
  inputW      : Nat := 0
  railEvt     : Bool := false
  thermEvt    : Bool := false
  overrun     : Bool := false
  vlinkEvt    : Bool := false
  railCount   : Nat := 0
  throttles   : Nat := 0
  discards    : Nat := 0
  overruns    : Nat := 0
  tiles       : Vector PTile 32 := Vector.replicate 32 {}
  profiles    : List Profile := []
  useClock    : Nat := 0
  /-- Tiles whose measured share exceeded their budget in an overrun millisecond (R435). -/
  overTiles   : List Nat := []
  deriving DecidableEq, Repr, Inhabited

/-! ## Reset, boot and firmware (16_reset_boot.md) -/

/-- A firmware image as the module keeps it (R470). -/
structure Image where
  version : Nat := 0
  svn     : Nat := 0
  bytes   : List Byte := []
  /-- Checks 1 to 4 of R471 passed when the image was stored. -/
  ok      : Bool := false
  deriving DecidableEq, Repr, Inhabited

/-- The sources of a reset, in the code of RST_CAUSE.SOURCE (R463). -/
inductive ResetSource where
  | powerOn | perst | resetScope | fabricManager | watchdog | thermalTrip | tamper
  deriving DecidableEq, Repr, Inhabited

/-- A booked firmware switch-over (R460). -/
structure SwitchBooking where
  pid : Nat
  ft  : Nat
  deriving DecidableEq, Repr, Inhabited

/-- Reset, bring-up and boot state, with the registers of R462 and R463. [Log entries 4: DESIGN CHOICE; 117: DEDUCED; 120: DEDUCED] -/
structure Boot where
  powered      : Bool := true
  perstLow     : Bool := false
  thermtrip    : Bool := false
  /-- A module-scope reset is held (R447, R515). -/
  inReset      : Bool := false
  bringup      : Bool := true
  /-- The bring-up step known to be reached (R452). -/
  step         : Nat := 1
  bringupDone  : Bool := false
  doneAt       : Nat := 0
  releasedAt   : Nat := 0
  sloe         : Bool := false
  reason       : Nat := 0
  standbyLost  : Bool := false
  fallback     : Bool := false
  retainedErr  : Bool := false
  bootAddr     : Word := 0
  bootLen      : Nat := 0
  /-- The image loaded from the host or a neighbour and verified (R454). -/
  loaded       : Option Image := none
  causeSource  : ResetSource := .powerOn
  recovery     : Bool := false
  causeStall   : Nat := 0
  causeFt      : Nat := 0
  localScope   : Nat := 0
  localSource  : Nat := 0
  localTile    : Nat := 0
  localCore    : Nat := 0
  failedStarts : Nat := 0
  slotB        : Bool := false
  trial        : Bool := false
  strapSrc     : Nat := 0
  strapClk     : Nat := 0
  /-- The levels of the strap pins BOOT_SRC and CLK_MODE, sampled at every module-scope reset (R451). -/
  pinSrc       : Nat := 0
  pinClk       : Nat := 0
  bkp          : Vector Word 16 := Vector.replicate 16 0
  /-- Retained SRAM bytes that are not 0, by register offset from 0x000C_0000 (R455). -/
  sram         : List Host.Cell := []
  flashA       : Image := { version := 1, ok := true }
  flashB       : Image := {}
  running      : Image := {}
  /-- The image this start booted: its security section runs until the next module-scope reset (R468). -/
  booted       : Image := {}
  runSince     : Nat := 0
  staged       : Option Image := none
  booking      : Option SwitchBooking := none
  /-- The FW_SWITCH packet whose hand-over is in progress (R461). -/
  handover     : Option Nat := none
  cpFailed     : List Nat := []
  tileReset    : List Nat := []
  coreReset    : List Nat := []
  rolesOn16    : Bool := false
  resets       : Nat := 0
  deriving DecidableEq, Repr, Inhabited

/-! ## Security (17_security.md) -/

/-- An access-table entry (R489). -/
structure AtEntry where
  valid    : Bool := false
  read     : Bool := false
  write    : Bool := false
  atomic   : Bool := false
  accum    : Bool := false
  matchJob : Bool := false
  cls      : Nat := 0
  id       : Nat := 0
  idMask   : Nat := 0
  job      : Nat := 0
  base     : Word := 0
  limit    : Word := 0
  deriving DecidableEq, Repr, Inhabited

/-- An SPDM session (R473, R474, R477, R479). -/
structure Session where
  num      : Nat
  via      : Transport
  root     : Option (List Byte) := none
  finished : Bool := false
  lastBeat : Nat := 0
  deriving DecidableEq, Repr, Inhabited

/-- The security block and what the controllers hold (R467, R469, R499). The access tables are the entries that
differ from their reset entries of R490, by target number and index. -/
structure Sec where
  tables     : List (Nat × AtEntry) := []
  selfTestOk : Bool := false
  error      : Bool := false
  ok0        : Bool := true
  ok16       : Bool := true
  mirror     : Bool := false
  officer    : Option (List Byte) := none
  fmKey      : Option (List Byte) := none
  fmCounter  : Nat := 0
  fmReject   : Nat := 0
  svn        : Nat := 0
  sessions   : List Session := []
  nextSession : Nat := 0
  ideIo      : Bool := false
  ideCm      : Bool := false
  diagUsed   : Bool := false
  jtagLocked : Bool := true
  tamperCode : Nat := 0
  atTarget   : Nat := 0
  atEntry    : Nat := 0
  endpoint   : Nat := 0
  /-- The alias certificate of certificate slot 0, issued at each start: the fused SVN and the security-section measurement it
  carries (R475). -/
  alias_     : Option (Nat × List Byte) := none
  /-- The device identity and alias key pairs are held, as derived at each start, and the random bit generator is seeded (R469). -/
  keys       : Bool := false
  drbg       : Bool := false
  deriving DecidableEq, Repr, Inhabited

/-! ## Host attachment (18_host_and_package.md) -/

/-- A CXL.io write to host memory: its bytes, and whether the data is marked poisoned (R215). -/
structure HostWrite where
  addr   : Nat
  bytes  : List Byte
  poison : Bool := false
  deriving DecidableEq, Repr, Inhabited

/-- The host link (R506, R507): its condition, the writes it holds, the host lines written marked poisoned, and the
MSI-X vectors signalled so far, latest first. [Log entry 133: DESIGN CHOICE] -/
structure CxlSt where
  linkUp : Bool := true
  /-- The trained speed in GT/s and width, which the link status registers report (R503, R504; log entry 133). -/
  speed  : Nat := 64
  width  : Nat := 8
  bme    : Bool := true
  d3     : Bool := false
  held   : List HostWrite := []
  epLines : List Nat := []
  msix   : List Nat := []
  /-- The MSI-X vectors that wait while the module holds its CXL requests (R507). -/
  msixHeld : List Nat := []
  /-- The line the last CXL.mem read returned, and whether with CXL poison (R204, R205). -/
  lastRead : List Byte := []
  lastPoison : Bool := false
  /-- The value the last register read returned. -/
  lastReg : Word := 0
  /-- The last SPDM response through DOE or MCTP, and the last MCTP answer. -/
  lastDoe : List Byte := []
  lastMctp : List Byte := []
  /-- The debug port's instruction as loaded (R517). -/
  jtag : JtagIns := .bypass
  deriving DecidableEq, Repr, Inhabited

/-- SITE_ALERT and its registers (R382, R383). -/
structure SiteAlert where
  enable   : Bool := true
  limitMs  : Nat := 50
  asserted : Bool := false
  latched  : Bool := false
  stamp    : Nat := 0
  deriving DecidableEq, Repr, Inhabited

/-- A change of stored words that a command makes: one codeword at a word key, or a range of word keys [lo, hi)
put back to the all-zero codeword. -/
inductive Store where
  | word (key : Nat) (cw : Codeword)
  | erase (lo hi : Nat)
  deriving DecidableEq, Repr, Inhabited

/-- The state of the module. -/
structure State where
  /-- The commands that wait, first in first out. -/
  pending   : List Instr
  /-- Nanoseconds since the model's start, which FT does not count while it is UNSET. -/
  uptime    : Nat
  ft        : FtBlock
  windows   : Vector Window 64
  works     : List Work
  nextPid   : Nat
  freeCount : Nat
  jobs      : Vector Job 4
  tensors   : List Tensor
  shards    : List Shard
  /-- The stored codewords of DRAM, tile shared memory and core memory, as bytes that are not 0 (R225). -/
  mem       : List Host.Cell
  /-- The stores of the command now performed, latest first, before they reach `mem`; the model's own field, empty between
  commands (log entry 6). -/
  stores    : List Store
  hostMem   : List Host.Cell
  /-- Page-map entries that differ from those of R200, by tile and logical page. -/
  pageMap   : List (Nat × PageEntry)
  moves     : List Move
  deferred  : List (Nat × Nat)
  staged    : List Staged
  access    : List AccessCount
  memErr    : MemErr
  itemMaps  : List ItemMap
  /-- The hardware threads that differ from cleared ones, and the weight tile buffers that hold a tile (R114, R125). -/
  threads   : List HwThread
  weights   : List WeightBuf
  gathered  : List Gathered
  /-- Words of spilled tensors read over the fabric for running packets, by packet and global word address (R246). -/
  fetched   : List (Nat × (Word × Bool))
  remotes   : List RemoteOp
  nextTag   : Nat
  /-- The words, with their poison flags, that the last READ or ATOMIC of a master of this module returned. -/
  lastData  : List (Word × Bool)
  colls     : List Coll
  buckets   : List Bucket
  rowan     : Vector (Option RowanRun) 64
  rowanEarly : List Flit
  tagUses   : List TagUse
  binds     : List BindCo
  /-- Binding messages sent and not acknowledged (R305). -/
  bindSent  : List Sent
  vcMarks   : List VcMark
  ramps     : List Ramp
  links     : Vector Link 18
  ports     : Vector Port 18
  fabric    : Fabric
  delivered : List Delivered
  rel       : Rel
  power     : Power
  boot      : Boot
  sec       : Sec
  cxl       : CxlSt
  site      : SiteAlert
  deriving DecidableEq, Repr

/-- The link registers after reset: link L belongs to port L div 3 (R278). -/
def Link.reset (l : Nat) : Link := { port := l / 3 }

/-- The links after reset (R300). -/
def State.resetLinks : Vector Link 18 := Vector.ofFn fun l => Link.reset l.val

/-- The module at a power-on reset, as R446 to R463 state it: bring-up step 1 in progress, FT UNSET, every register at
its reset value. Values the spec leaves to the part's history are those of a new part (log entries 3 and 4).
[Log entries 3: DESIGN CHOICE; 4: DESIGN CHOICE] -/
def State.reset : State :=
  { pending := [], uptime := 0, ft := {}, windows := Vector.replicate 64 {}, works := [], nextPid := 0, freeCount := 0
    jobs := Vector.replicate 4 {}, tensors := [], shards := [], mem := [], stores := [], hostMem := [], pageMap := [], moves := []
    deferred := [], staged := [], access := [], memErr := {}, itemMaps := [], threads := [], weights := [], gathered := [], fetched := [], remotes := [], nextTag := 0, lastData := [], colls := []
    buckets := [], rowan := Vector.replicate 64 none, rowanEarly := [], tagUses := [], binds := [], bindSent := [], vcMarks := []
    ramps := [], links := State.resetLinks, ports := Vector.replicate 18 {}, fabric := {}, delivered := [], rel := {}
    power := {}, boot := { failedStarts := 1 }, sec := {}, cxl := {}, site := {} }

end Sys2Proof.Machine
end

