-- ==== Sys2Proof/Machine/Bits.lean ====
section
/-! DEFINITION. Bit fields, bytes, saturating counts, and total accessors of vectors and sparse lists. -/

namespace Sys2Proof.Machine

/-- The field of `len` bits from bit `lo` of a word, as a number (R6). -/
def fld (w : Word) (lo len : Nat) : Nat := (w.toNat >>> lo) % 2 ^ len

/-- Bit `i` of a word. -/
def bitOf (w : Word) (i : Nat) : Bool := w.getLsbD i

/-- The field of `len` bits from bit `lo` of a number. -/
def nfld (n lo len : Nat) : Nat := (n >>> lo) % 2 ^ len

/-- A word from a number. -/
def wd (n : Nat) : Word := BitVec.ofNat 64 n

/-- 1 for true and 0 for false. -/
def b2n (b : Bool) : Nat := if b then 1 else 0

/-- A flag at bit `i`. -/
def flag (b : Bool) (i : Nat) : Nat := if b then 2 ^ i else 0

/-- A signed number as `len` bits of two's complement. -/
def toTwos (len : Nat) (i : Int) : Nat := (i % (2 ^ len : Int)).toNat

/-- The signed number that `len` bits of two's complement spell. -/
def fromTwos (len n : Nat) : Int :=
  if n % 2 ^ len < 2 ^ (len - 1) then (n % 2 ^ len : Nat) else ((n % 2 ^ len : Nat) : Int) - (2 ^ len : Int)

/-- Count up by `k`, saturating at the largest value of `len` bits. -/
def satAdd (len n k : Nat) : Nat := min (n + k) (2 ^ len - 1)

/-- Count up by one, saturating at the largest value of `len` bits. -/
def satInc (len n : Nat) : Nat := satAdd len n 1

/-- The eight bytes of a word, least significant first (R6). -/
def wordBytes (w : Word) : List Byte :=
  (List.range 8).map fun k => BitVec.ofNat 8 (w.toNat >>> (8 * k))

/-- The number that bytes spell, least significant first (R6). -/
def bytesNat : List Byte → Nat
  | [] => 0
  | b :: t => b.toNat + 256 * bytesNat t

/-- `n` as `k` bytes, least significant first. -/
def natBytes : Nat → Nat → List Byte
  | 0, _ => []
  | k + 1, n => BitVec.ofNat 8 n :: natBytes k (n / 256)

/-- The words that bytes spell, eight bytes a word, the last one filled with zero bytes. -/
def bytesWords : Nat → List Byte → List Word
  | 0, _ => []
  | k + 1, bs => wd (bytesNat (bs.take 8)) :: bytesWords k (bs.drop 8)

/-- Element `i` of a vector, or the default outside it. -/
def vget {α : Type} [Inhabited α] {n : Nat} (v : Vector α n) (i : Nat) : α :=
  if h : i < n then v[i] else default

/-- A vector with element `i` set, unchanged outside it. -/
def vset {α : Type} {n : Nat} (v : Vector α n) (i : Nat) (a : α) : Vector α n :=
  if h : i < n then v.set i a else v

/-- A vector with element `i` changed by `f`. -/
def vmod {α : Type} [Inhabited α] {n : Nat} (v : Vector α n) (i : Nat) (f : α → α) : Vector α n :=
  vset v i (f (vget v i))

/-- Element `i` of a list, or `d`. -/
def lget {α : Type} (l : List α) (i : Nat) (d : α) : α := (l[i]?).getD d

/-- The byte at an address of a sparse byte memory: 0 where nothing is listed. -/
def cellGet : List Host.Cell → Nat → Byte
  | [], _ => 0
  | (k, b) :: t, a => if k = a then b else cellGet t a

/-- A sparse byte memory with one byte written, in its canonical form. -/
def cellSet : List Host.Cell → Nat → Byte → List Host.Cell
  | [], a, b => if b = 0 then [] else [(a, b)]
  | (k, v) :: t, a, b =>
    if a < k then (if b = 0 then (k, v) :: t else (a, b) :: (k, v) :: t)
    else if a = k then (if b = 0 then t else (a, b) :: t)
    else (k, v) :: cellSet t a b

/-- Bytes written one after another from an address. -/
def cellSetAll : List Host.Cell → Nat → List Byte → List Host.Cell
  | m, _, [] => m
  | m, a, b :: bs => cellSetAll (cellSet m a b) (a + 1) bs

/-- `n` bytes from an address. -/
def cellGetAll (m : List Host.Cell) (a n : Nat) : List Byte := (List.range n).map fun k => cellGet m (a + k)

/-- Every byte of the addresses [lo, hi) put to 0. -/
def cellErase (m : List Host.Cell) (lo hi : Nat) : List Host.Cell := m.filter fun c => c.1 < lo || hi ≤ c.1

/-- The canonical form from an address on: addresses strictly rising and no byte 0. -/
def cellsFrom : Nat → List Host.Cell → Bool
  | _, [] => true
  | lo, (k, b) :: t => decide (lo ≤ k) && decide (b ≠ 0) && cellsFrom (k + 1) t

/-- The canonical form of a sparse byte memory (log entry 6). [Log entry 6: DESIGN CHOICE] -/
def Memory.wf (m : List Host.Cell) : Bool := cellsFrom 0 m

/-- The value a sparse list holds for a key. -/
def kvGet {α : Type} : List (Nat × α) → Nat → Option α
  | [], _ => none
  | (k, v) :: t, a => if k = a then some v else kvGet t a

/-- A sparse list, sorted by key, with the value of one key set or removed. -/
def kvPut {α : Type} : List (Nat × α) → Nat → Option α → List (Nat × α)
  | [], a, o => match o with | some b => [(a, b)] | none => []
  | (k, v) :: t, a, o =>
    if a < k then (match o with | some b => (a, b) :: (k, v) :: t | none => (k, v) :: t)
    else if a = k then (match o with | some b => (a, b) :: t | none => t)
    else (k, v) :: kvPut t a o

/-- The first element that meets `p` changed by `f`. -/
def updFirst {α : Type} (p : α → Bool) (f : α → α) : List α → List α
  | [] => []
  | a :: t => if p a then f a :: t else a :: updFirst p f t

/-- Every element that meets `p` changed by `f`. -/
def updAll {α : Type} (p : α → Bool) (f : α → α) (l : List α) : List α := l.map fun a => if p a then f a else a

/-- The first element that meets `p` removed. -/
def dropFirst {α : Type} (p : α → Bool) : List α → List α
  | [] => []
  | a :: t => if p a then t else a :: dropFirst p t

/-- The element with the least key, the earliest of equal ones. -/
def argMin {α : Type} (f : α → Nat) : List α → Option α
  | [] => none
  | a :: t =>
    match argMin f t with
    | none => some a
    | some b => if f b < f a then some b else some a

/-- A number as a status field of `len` bits placed at `lo`. -/
def at_ (n len lo : Nat) : Nat := (n % 2 ^ len) * 2 ^ lo

end Sys2Proof.Machine
end

