-- ==== Sys2Proof/Machine/Ecc.lean ====
section
/-! DEFINITION. The 80,64 word protection (08_memory.md R225 to R228). -/

namespace Sys2Proof.Machine

/-- g(x) of R225, octal 41,567. -/
def eccG : Nat := 0b100001101110111

/-- The remainder modulo g(x) of a polynomial of degree below `k + 14`. -/
def eccMod : Nat → Nat → Nat
  | 0, x => x
  | k + 1, x => eccMod k (if x.testBit (k + 14) then x ^^^ (eccG <<< k) else x)

/-- The parity of the low `k` bits. -/
def parityOf : Nat → Nat → Bool
  | 0, _ => false
  | k + 1, x => xor (x.testBit k) (parityOf k x)

/-- The 80 stored bits of a word with its poison flag (R225). -/
def encodeWord (d : Word) (poison : Bool) : Codeword :=
  let u := d.toNat + flag poison 64
  let r := eccMod 65 (u <<< 14)
  let c := u + r * 2 ^ 65
  BitVec.ofNat 80 (c + flag (parityOf 79 c) 79)

/-- The stored bits [78:0] laid out as code positions 0 to 78 (R225). -/
def codePositions (c : Codeword) : Nat :=
  nfld c.toNat 65 14 + (nfld c.toNat 0 64) * 2 ^ 14 + (nfld c.toNat 64 1) * 2 ^ 78

/-- The stored bit of a code position (R225). -/
def storedBit (pos : Nat) : Nat := if pos < 14 then 65 + pos else if pos = 78 then 64 else pos - 14

/-- α^k in GF(2^7) over x^7 + x^3 + 1 (R225). -/
def alphaPow : Nat → Nat
  | 0 => 1
  | k + 1 => let a := 2 * alphaPow k; if a.testBit 7 then a ^^^ 0b10001001 else a

/-- α^0 to α^126. -/
def alphaTable : List Nat := (List.range 127).map alphaPow

/-- The table's power, exponents counted modulo 127. -/
def alphaAt (k : Nat) : Nat := lget alphaTable (k % 127) 0

/-- The syndrome c(α^m) (R226). -/
def syndrome (m c : Nat) : Nat :=
  (List.range 79).foldl (fun a j => if c.testBit j then a ^^^ alphaAt (m * j) else a) 0

/-- The data of a codeword. -/
def cwData (c : Codeword) : Word := c.setWidth 64

/-- The poison flag of a codeword. -/
def cwPoison (c : Codeword) : Bool := c.getLsbD 64

/-- What a check finds (R226): nothing, stored bits to correct, or an uncorrectable word. -/
inductive EccResult where
  | clean
  | corrected (bits : List Nat)
  | uncorrectable
  deriving DecidableEq, Repr, Inhabited

/-- A syndrome pair as R237 logs it: S1, S3 and the parity of all 80 bits. -/
def eccSyndrome (c : Codeword) : Nat :=
  let p := codePositions c
  syndrome 1 p + syndrome 3 p * 2 ^ 7 + flag (parityOf 80 c.toNat) 14

/-- The positions 0 to 78 that a syndrome pair locates: one or two. [Log entry 8: DEDUCED] -/
def eccLocate (s1 s3 : Nat) : List Nat :=
  match (List.range 79).find? fun j => alphaAt j == s1 && alphaAt (3 * j) == s3 with
  | some j => [j]
  | none =>
    match (List.range 79).find? fun i => (List.range i).any fun j =>
        (alphaAt i ^^^ alphaAt j) == s1 && (alphaAt (3 * i) ^^^ alphaAt (3 * j)) == s3 with
    | none => []
    | some i => ((List.range i).filter fun j =>
        (alphaAt i ^^^ alphaAt j) == s1 && (alphaAt (3 * i) ^^^ alphaAt (3 * j)) == s3) ++ [i]

/-- The decision of R226. A word that is its own encoding has zero syndromes and even parity. One located position with even parity is
an error of that position and of bit 79: every error of two bits is corrected. [Log entry 8: DEDUCED] -/
def eccCheck (c : Codeword) : EccResult :=
  if encodeWord (cwData c) (cwPoison c) = c then .clean else
  let syn := eccSyndrome c
  let s1 := syn % 128
  let s3 := nfld syn 7 7
  let odd := syn.testBit 14
  if syn = 0 then .clean
  else if s1 = 0 && s3 = 0 then .corrected [79]
  else
    match eccLocate s1 s3 with
    | [j] => .corrected (if odd then [storedBit j] else [storedBit j, 79])
    | [i, j] => if odd then .uncorrectable else .corrected (List.mergeSort [storedBit i, storedBit j])
    | _ => .uncorrectable

/-- A codeword with stored bits turned over. -/
def flipBits (c : Codeword) (bits : List Nat) : Codeword := bits.foldl (fun a b => a ^^^ BitVec.ofNat 80 (2 ^ b)) c

/-- The codeword as corrected, and whether it was uncorrectable. -/
def eccFix (c : Codeword) : Codeword × Bool :=
  match eccCheck c with
  | .clean => (c, false)
  | .corrected bs => (flipBits c bs, false)
  | .uncorrectable => (encodeWord (cwData c) true, true)

end Sys2Proof.Machine
end

