-- ==== Sys2Proof/Machine/Ops.lean ====
section
/-! DEFINITION. The operations that every command is built from: the passing of time, the landing of a command's stores
and posted writes, header fields, replies and dispatched work. -/

namespace Sys2Proof.Machine

/-! ## Time (02_fabric_time.md) -/

/-- FT_NOW: 0 while UNSET (R35). [Log entry 28: DESIGN CHOICE] -/
def State.ftNow (s : State) : Nat := if s.ft.state = .unset then 0 else s.ft.ps / 1000

/-- FT after `dt` ns of its own clock, slewed by the rate correction in force (R27, R28). -/
def FtBlock.pass (f : FtBlock) (dt : Nat) : FtBlock :=
  if f.state = .unset then f
  else
    let n := (dt : Int) * f.slewPs + f.slewRem
    { f with ps := f.ps + (1000 * dt + n / 1000000).toNat, slewRem := n % 1000000 }

/-- `dt` ns pass (log entry 5). [Log entry 5: DESIGN CHOICE] -/
def State.pass (s : State) (dt : Nat) : State :=
  { s with uptime := s.uptime + dt, ft := s.ft.pass dt
           rel := { s.rel with ophNs := s.rel.ophNs + (if s.boot.powered then dt else 0) } }

/-- The module may issue CXL requests (R507). [Log entry 115: DEDUCED] -/
def State.cxlOpen (s : State) : Bool := s.cxl.linkUp && s.cxl.bme && !s.cxl.d3

/-- One store applied to the stored codewords. -/
def applyStore (m : List Host.Cell) : Store → List Host.Cell
  | .word key cw => cellSetAll m (10 * key) (natBytes 10 cw.toNat)
  | .erase lo hi => cellErase m (10 * lo) (10 * hi)

/-- One posted write applied to host memory (R61). -/
def applyHostWrite (m : List Host.Cell) (h : HostWrite) : List Host.Cell := cellSetAll m h.addr h.bytes

/-- The host lines of 64 bytes that a write covers, marked or unmarked as poisoned. -/
def applyPoisonLines (ls : List Nat) (h : HostWrite) : List Nat :=
  let touched := (List.range (h.bytes.length / 64 + 2)).map (fun k => (h.addr / 64) + k)
    |>.filter fun l => h.addr < 64 * (l + 1) && 64 * l < h.addr + h.bytes.length
  if h.poison then ls.filter (fun l => !touched.contains l) ++ touched else ls.filter fun l => !touched.contains l

/-- The sources of the MSI-X vectors, each with its vector (R506). -/
def State.msixSources (s : State) : List (Nat × Bool) :=
  [(0, s.site.latched), (1, s.rel.retiredNew), (1, s.rel.suspectNew), (1, s.memErr.ueSeen), (2, s.power.railEvt),
   (2, s.power.thermEvt), (2, s.power.overrun), (3, s.sec.error), (3, s.sec.mirror)]

/-- The vectors whose sources change from 0 to 1 between two states (R506). -/
def msixEdges (old new : State) : List Nat :=
  ((old.msixSources.zip new.msixSources).filter fun p => !p.1.2 && p.2.2).map fun p => p.2.1

/-- The end of a command: its stores reach memory, its posted writes and its MSI-X vectors go to the host unless the
module holds its CXL requests (R506, R507), and the queue and the clock are as before. [Log entries 6: DESIGN CHOICE; 115: DEDUCED] -/
def State.land (old new : State) : State :=
  let vs := new.cxl.msixHeld ++ msixEdges old new
  { new with
    pending := old.pending
    uptime := old.uptime
    mem := new.stores.reverse.foldl applyStore old.mem
    stores := []
    hostMem := if new.cxlOpen then new.cxl.held.foldl applyHostWrite old.hostMem else old.hostMem
    cxl := if new.cxlOpen then
        { new.cxl with held := [], epLines := new.cxl.held.foldl applyPoisonLines new.cxl.epLines
                       msix := vs.reverse ++ new.cxl.msix, msixHeld := [] }
      else { new.cxl with msixHeld := vs } }

/-- A command's effect: `dt` ns pass, the operation acts, and its stores and writes land.
[Log entries 5: DESIGN CHOICE; 7: DESIGN CHOICE] -/
def run (dt : Nat) (op : State → State) (s : State) : Host.Outcome State Fault Refusal :=
  .next ((s.pass dt).land (op (s.pass dt)))

/-- The host's own stores to its memory that landed before the command. -/
def State.hostStores (s : State) (hs : List Host.Cell) : State :=
  { s with hostMem := hs.foldl (fun m c => cellSet m c.1 c.2) s.hostMem }

/-- A command's effect after the host's own stores. -/
def runHs (dt : Nat) (hs : List Host.Cell) (op : State → State) (s : State) : Host.Outcome State Fault Refusal :=
  run dt op (s.hostStores hs)

/-- A command that names a part: no such part exists above its numbering (R5). [Log entry 27: DEDUCED] -/
def runPart (what : String) (n lim dt : Nat) (op : State → State) (s : State) : Host.Outcome State Fault Refusal :=
  if n < lim then run dt op s else .fault (.noSuchPart what)

/-- The free value of this command, and the state with the count advanced. -/
def State.free (s : State) : Nat × State := (Config.freeNat s.freeCount, { s with freeCount := s.freeCount + 1 })

/-! ## Posted writes to the host -/

/-- Post a write to host memory (R61). -/
def State.post (s : State) (addr : Nat) (bytes : List Byte) (poison : Bool := false) : State :=
  { s with cxl := { s.cxl with held := s.cxl.held ++ [{ addr := addr, bytes := bytes, poison := poison }] } }

/-! ## Header fields (R67) -/

def Packet.word (p : Packet) (i : Nat) : Word := lget p.hdr i 0
def Packet.opcode (p : Packet) : Nat := fld (p.word 0) 0 8
def Packet.phase (p : Packet) : Bool := bitOf (p.word 0) 8
def Packet.ordered (p : Packet) : Bool := bitOf (p.word 0) 9
def Packet.replyOnAccept (p : Packet) : Bool := bitOf (p.word 0) 10
def Packet.resHost (p : Packet) : Bool := bitOf (p.word 0) 11
def Packet.slots (p : Packet) : Nat := fld (p.word 0) 16 8
def Packet.job (p : Packet) : Nat := fld (p.word 0) 24 4
def Packet.seq (p : Packet) : Nat := fld (p.word 0) 32 32
/-- Parameter P0 to P5. -/
def Packet.par (p : Packet) (i : Nat) : Word := p.word (2 + i)
/-- Payload word `i`, counted over the payload slots. -/
def Packet.pay (p : Packet) (i : Nat) : Word := lget p.payload i 0

/-! ## Replies (R72, R74) -/

/-- The status codes of R74. -/
def Status.code : Status → Nat
  | .done => 0x00 | .accepted => 0x01 | .badOpcode => 0x10 | .badParam => 0x11 | .noResource => 0x12
  | .accessDenied => 0x20 | .nanTrap => 0x30 | .scaleRange => 0x31 | .staleGeneration => 0x40
  | .epochFencePending => 0x41 | .lateExcluded => 0x50 | .poisonedContribution => 0x51 | .checkMismatch => 0x60
  | .replayedOk => 0x61 | .sloeOnly => 0x70 | .internal => 0x7F

/-- The four words of a reply entry (R72). -/
def replyWords (p : Packet) (st : Status) (phase final : Bool) (ft head : Nat) (headPhase : Bool)
    (detail result : Nat) : List Word :=
  [wd (st.code + flag phase 8 + flag final 9 + at_ p.opcode 8 16 + at_ p.window 6 24 + at_ p.seq 32 32),
   p.word 1, wd ft,
   wd (at_ head 12 0 + flag headPhase 12 + at_ detail 16 16 + at_ result 32 32)]

/-- Write one reply entry of the packet's window, decided at an FT, and advance its tail (R61). -/
def State.replyAt (s : State) (p : Packet) (st : Status) (final : Bool) (ft detail result : Nat) : State :=
  let w := vget s.windows p.window
  let ws := replyWords p st w.tailPhase final ft w.head w.headPhase detail result
  let s1 := s.post (w.replyAddr + 32 * w.tail) (ws.flatMap wordBytes)
  let w1 := { w with tail := (w.tail + 1) % 4096, tailPhase := if w.tail = 4095 then !w.tailPhase else w.tailPhase }
  { s1 with windows := vset s1.windows p.window w1 }

/-- Write one reply entry, decided now. -/
def State.reply (s : State) (p : Packet) (st : Status) (final : Bool) (detail result : Nat) : State :=
  s.replyAt p st final s.ftNow detail result

/-- Reserved reply entries of a window given back (R77). -/
def State.release (s : State) (window n : Nat) : State :=
  { s with windows := vmod s.windows window fun w => { w with reserved := w.reserved - n } }

/-! ## Dispatched work (R69) -/

/-- The work of a dispatched packet. -/
def State.work (s : State) (pid : Nat) : Option Work := s.works.find? fun w => w.pid == pid

/-- Change a dispatched packet's work. -/
def State.modWork (s : State) (pid : Nat) (f : Work → Work) : State :=
  { s with works := updFirst (fun w => w.pid == pid) f s.works }

/-- The job slot `j`. -/
def State.job (s : State) (j : Nat) : Job := vget s.jobs j

/-- Change job slot `j`. -/
def State.modJob (s : State) (j : Nat) (f : Job → Job) : State := { s with jobs := vmod s.jobs j f }

/-- Write an interim reply from one of the packet's reserved entries (R73, R77). -/
def State.interim (s : State) (pid : Nat) (st : Status) : State :=
  match s.work pid with
  | none => s
  | some w =>
    ((s.reply w.pkt st false 0 0).release w.pkt.window 1).modWork pid fun v => { v with reserve := v.reserve - 1 }

/-- The item map kept of a packet that ran items (R262). -/
def Work.itemMap (w : Work) : List ItemMap :=
  match w.items, w.slot with
  | [], _ => []
  | _, none => []
  | is, some j => [{ window := w.pkt.window, seq := w.pkt.seq, slot := j, left := 2, items := is.map fun i => { i with acc := [] } }]

/-- The key of a fetched word: the packet it is for, and its global word address. -/
def fetchKey (pid a : Nat) : Nat := pid * 2 ^ 61 + a / 8

/-- Write the packet's final reply, decided at an FT, release its reserved entries and end its work (R63, R69, R77). -/
def State.completeAt (s : State) (pid : Nat) (st : Status) (ft detail result : Nat) : State :=
  match s.work pid with
  | none => s
  | some w =>
    let s1 := (s.replyAt w.pkt st true ft detail result).release w.pkt.window w.reserve
    { s1 with works := dropFirst (fun v => v.pid == pid) s1.works, itemMaps := s1.itemMaps ++ w.itemMap
              fetched := s1.fetched.filter fun e => e.1 / 2 ^ 61 != pid }

/-- Write the packet's final reply, decided now, and end its work. -/
def State.complete (s : State) (pid : Nat) (st : Status) (detail result : Nat) : State := s.completeAt pid st s.ftNow detail result

/-- The rank of a status among the conditions one packet's work may meet (R537). -/
def Status.rank : Status → Nat
  | .poisonedContribution => 1 | .checkMismatch => 2 | .internal => 3 | .accessDenied => 4 | .nanTrap => 5
  | .scaleRange => 6 | .replayedOk => 7 | .lateExcluded => 8 | .done => 9
  | .accepted | .badOpcode | .badParam | .noResource | .staleGeneration | .epochFencePending | .sloeOnly => 0

/-- The first condition that applies (R537), DONE when there is none. -/
def firstOut (os : List (Status × Nat)) : Status × Nat :=
  (argMin (fun o : Status × Nat => o.1.rank) os).getD (.done, 0)

/-- Complete with the conditions the work met and its result; a failure carries RESULT 0. -/
def State.completeOuts (s : State) (pid : Nat) : State :=
  match s.work pid with
  | none => s
  | some w =>
    let o := firstOut w.outs
    s.complete pid o.1 o.2 w.result

/-- Note a condition of the work. -/
def State.addOut (s : State) (pid : Nat) (st : Status) (detail : Nat) : State :=
  s.modWork pid fun w => { w with outs := w.outs ++ [(st, detail)] }

/-- The work has met a failure, not only a condition that leaves it to go on (R537). -/
def Work.failed (w : Work) : Bool := w.outs.any fun o => o.1.rank ≤ 4

/-- A job slot is open: neither closing nor closed (R79). [Log entry 43: DEDUCED] -/
def State.jobOpen (s : State) (j : Nat) : Bool := j < 4 && (s.job j).opened && !(s.job j).closing

/-- The work handed to its unit and not yet taken, of one of these opcodes. [Log entry 34: DESIGN CHOICE] -/
def State.handed (s : State) (pid : Nat) (ops : List Nat) : Option Work :=
  match s.work pid with
  | none => none
  | some w => if w.stage = .handed && ops.contains w.pkt.opcode then some w else none

/-- The operation on a packet handed to its unit; another packet, or none, changes nothing (log entry 7). [Log entry 7: DESIGN CHOICE] -/
def onHanded (pid : Nat) (ops : List Nat) (f : Work → State → State) (s : State) : State :=
  match s.handed pid ops with
  | none => s
  | some w => f w s

/-- The note of a failure the member raises in the job's current step (R358, R359): the lane's earliest FT, and the failure
with its FT, status and detail. -/
def Job.note (j : Job) (lane ft : Nat) : Job :=
  { j with lanes := j.lanes.mapIdx fun i o => if i = lane then some (match o with | none => ft | some t => min t ft) else o }

end Sys2Proof.Machine
end

