-- ==== Sys2Proof/Machine/Pages.lean ====
section
/-! DEFINITION. Units' standing, the page map, pages in use and free pages, and the memory error log (08_memory.md R200,
R201, R235 to R240; 14_reliability.md R403, R408). -/

namespace Sys2Proof.Machine

/-! ## Units (R403, R408) -/

/-- A unit's selector bits [38:0] (R403). -/
def Unit_.selector : Unit_ → Nat
  | .core g => at_ (g / 16) 5 4 + at_ (g % 16) 4 9
  | .array g a => 1 + at_ (g / 16) 5 4 + at_ (g % 16) 4 9 + at_ a 2 13
  | .link l => 2 + at_ l 5 15
  | .channel t c => 3 + at_ t 5 4 + at_ c 5 20
  | .page t c p => 4 + at_ t 5 4 + at_ c 5 20 + at_ p 14 25

/-- The standing of a unit; 0 clean when it has no record (R408). -/
def State.unitState (s : State) (u : Unit_) : Nat :=
  match s.rel.units.find? fun x => x.unit == u with
  | none => 0
  | some x => x.st

/-- A unit is retired, or its retirement is pending (R408 STATE 2, 3, 4). -/
def State.retired (s : State) (u : Unit_) : Bool := 2 ≤ s.unitState u

/-! ## Places of stored words (R196, R199) -/

/-- The word keys of tile shared memory start here: above every DRAM word. -/
def sharedBase : Nat := 32 * 32 * 12288 * 8192

/-- The word keys of core memory start here. -/
def coreBase : Nat := sharedBase + 32 * 8388608

/-- One past the last word key. -/
def keyEnd : Nat := coreBase + 512 * 1572864

/-- The key of a stored word. -/
def placeKey : Place → Nat
  | .dram t c p w => ((t * 32 + c) * 12288 + p) * 8192 + w
  | .shared t w => sharedBase + t * 8388608 + w
  | .core t c w => coreBase + (t * 16 + c) * 1572864 + w

/-- The place exists (R5, R196). -/
def placeOk : Place → Bool
  | .dram t c p w => t < 32 && c < 32 && p < 12288 && w < 8192
  | .shared t w => t < 32 && w < 8388608
  | .core t c w => t < 32 && c < 16 && w < 1572864

/-! ## The page map (R200, R201) -/

/-- A physical page is retired, or waits for its move (R239). -/
def State.physRetired (s : State) (t c p : Nat) : Bool := s.retired (.page t c p) || s.retired (.channel t c)

/-- The default entry of logical page L of tile t (R200). -/
def defaultEntry (t l : Nat) : PageEntry := { tile := t, channel := l % 32, page := l / 32, backed := true }

/-- The key of a page-map entry. -/
def mapKey (t l : Nat) : Nat := t * 393216 + l

/-- The page-map entry of logical page L of tile t (R201). -/
def State.pageEntry (s : State) (t l : Nat) : PageEntry := (kvGet s.pageMap (mapKey t l)).getD (defaultEntry t l)

/-- The key of the shared-memory word that holds entry L of a tile's page map (R195, R201). -/
def mapWordKey (t l : Nat) : Nat := sharedBase + t * 8388608 + 0x3D80000 / 8 + l / 2

/-- Write a page-map entry, which encodes its word anew. -/
def State.setPageEntry (s : State) (t l : Nat) (e : PageEntry) : State :=
  { s with pageMap := kvPut s.pageMap (mapKey t l) (if e = defaultEntry t l then none else some e)
           stores := .word (mapWordKey t l) 0 :: s.stores }

/-- An entry as R201 lays it out. -/
def PageEntry.bits (e : PageEntry) : Nat := at_ e.tile 5 0 + at_ e.channel 5 5 + at_ e.page 14 10 + flag e.backed 24

/-! ## The error log (R235 to R237) -/

/-- Enter a record in the ring of 32 (R235, R236, R237). -/
def MemErr.push (m : MemErr) (r : LogRec) : MemErr :=
  let lost := m.valid = 32 && !(vget m.log m.next).seen
  { m with log := vset m.log m.next r, next := (m.next + 1) % 32, valid := min 32 (m.valid + 1)
           overflow := m.overflow || lost, ueSeen := m.ueSeen || (1 ≤ r.kind && r.kind ≤ 4) }

/-- Log a record at the present FT. -/
def State.log (s : State) (r : LogRec) : State := { s with memErr := s.memErr.push { r with ft := s.ftNow } }

/-- The location fields of a record (R237). -/
def LogRec.atPlace (r : LogRec) : Place → LogRec
  | .dram t c p _ => { r with memory := 0, tile := t, channel := c, page := p }
  | .shared t _ => { r with memory := 1, tile := t }
  | .core t c _ => { r with memory := 2, tile := t, core := c }

/-! ## Pages in use (R212, R240, R342) -/

/-- The ranges of logical pages in use: tensors that lie here, and the accumulation buffers of open buckets. -/
def State.usedRanges (s : State) : List (Nat × Nat × Nat) :=
  (s.tensors.filter fun t => t.spill.isNone).map (fun t => (t.tile, t.page, (t.bytes + 65535) / 65536))
    ++ s.buckets.filterMap fun b => b.owner.map fun o => (o.bufTile, o.bufPage, o.bufPages)

/-- A logical page is in use. -/
def State.pageInUse (s : State) (t l : Nat) : Bool :=
  s.usedRanges.any fun r => r.1 == t && r.2.1 ≤ l && l < r.2.1 + r.2.2

/-- Every logical page in use. -/
def State.usedPages (s : State) : List (Nat × Nat) :=
  s.usedRanges.flatMap fun r => (List.range r.2.2).map fun i => (r.1, r.2.1 + i)

/-- The logical page that a physical page backs. -/
def State.pageOwner (s : State) (t c p : Nat) : Option (Nat × Nat) :=
  let own (e : PageEntry) : Bool := e.backed && e.tile == t && e.channel == c && e.page == p
  let l := c + 32 * p
  if own (s.pageEntry t l) then some (t, l)
  else (s.pageMap.find? fun x => own x.2).map fun x => (x.1 / 393216, x.1 % 393216)

/-- A page move in progress takes the physical page. -/
def State.moveTarget (s : State) (t c p : Nat) : Bool := s.moves.any fun m => m.toTile == t && m.toChan == c && m.toPage == p

/-- A free physical page: it is not retired and backs no logical page in use (R240). -/
def State.physFree (s : State) (t c p : Nat) : Bool :=
  t < 32 && c < 32 && p < 12288 && !s.physRetired t c p && !s.moveTarget t c p
    && match s.pageOwner t c p with
      | none => true
      | some (h, l) => !s.pageInUse h l

/-- Retired pages of a tile's stack. -/
def State.retiredOn (s : State) (t : Nat) : Nat :=
  let chans := (List.range 32).filter fun c => s.retired (.channel t c)
  12288 * chans.length + (s.rel.units.filter fun u => match u.unit with
    | .page t' c _ => t' == t && 2 ≤ u.st && !chans.contains c
    | _ => false).length

/-- Healthy pages of a tile's stack that back a logical page in use. -/
def State.busyOn (s : State) (t : Nat) : Nat :=
  (s.usedPages.filter fun (h, l) =>
    let e := s.pageEntry h l
    e.backed && e.tile == t && !s.physRetired e.tile e.channel e.page).length
    + (s.moves.filter fun m => m.toTile == t).length

/-- The number of free physical pages on a tile's stack (R244). -/
def State.freeOn (s : State) (t : Nat) : Nat := 393216 - s.retiredOn t - s.busyOn t

/-- Some physical page of the module is free (R240). -/
def State.anyFree (s : State) : Bool := (List.range 32).any fun t => s.freeOn t ≠ 0

/-- Retired physical pages of the module (R236). -/
def State.retiredPages (s : State) : Nat := ((List.range 32).map s.retiredOn).foldl (· + ·) 0

/-- Back a logical page with a physical page. The logical page not in use that the physical page backed takes the old
physical page, where that is healthy, and is unbacked otherwise. -/
def State.backPage (s : State) (t l : Nat) (e : PageEntry) : State :=
  let old := s.pageEntry t l
  if old.backed && old.tile = e.tile && old.channel = e.channel && old.page = e.page then s
  else
    let s1 := match s.pageOwner e.tile e.channel e.page with
      | none => s
      | some (h, k) =>
        s.setPageEntry h k { old with backed := old.backed && !s.physRetired old.tile old.channel old.page }
    s1.setPageEntry t l e

/-- The logical pages whose physical pages wait for their move (R239, R408 STATE 4). -/
def State.waitingMoves (s : State) : List (Nat × Nat) :=
  (s.rel.units.filterMap fun u => match u.unit with
    | .page t c p => if u.st = 4 then s.pageOwner t c p else none
    | _ => none).filter fun o => !s.moves.any fun m => m.tile == o.1 && m.page == o.2

/-- The number of free physical pages of the module. -/
def State.freePages (s : State) : Nat := ((List.range 32).map s.freeOn).foldl (· + ·) 0

/-- The moves that no free physical page is left for are deferred (R240). -/
def State.settleDeferred (s : State) : State := { s with deferred := s.waitingMoves.drop s.freePages }

/-- A physical page retires (R239): the logical page that it backs waits for its move, which the answer says; one that backs none
is retired at once. [Log entries 57: DEDUCED; 125: DESIGN CHOICE] -/
def State.retirePhys (s : State) (t c p : Nat) : Bool × State :=
  match s.pageOwner t c p with
  | some _ => (true, s)
  | none => (false, s.log { kind := 7, tile := t, channel := c, page := p, job := 15, master := 0x4000 + t, bit0 := 0x7F, bit1 := 0x7F })

/-- How a physical page that has moved away is retired: by command where its unit or its channel was, otherwise permanent
(R408). -/
def State.retiredAs (s : State) (t c p : Nat) : Nat :=
  if s.unitState (.channel t c) = 3 || s.rel.hist.any fun e => e.unit == .page t c p && e.mech == 12 then 3 else 2

end Sys2Proof.Machine
end

