-- ==== Sys2Proof/Machine/History.lean ====
section
/-! DEFINITION. Unit history, suspect generations and retirement (14_reliability.md R401 to R415). -/

namespace Sys2Proof.Machine

/-- OPH in seconds (R405). -/
def State.oph (s : State) : Nat := s.rel.ophNs / 1000000000

/-- An event of this mechanism counts for classification (R405). -/
def countedMech (m : Nat) : Bool := m != 3 && m != 12

/-- Change a unit's entry of the state table, making one where there is none. -/
def Rel.modUnit (r : Rel) (u : Unit_) (f : UnitSt → UnitSt) : Rel :=
  if r.units.any fun x => x.unit == u then { r with units := updFirst (fun x => x.unit == u) f r.units }
  else { r with units := r.units ++ [f { unit := u, st := 0, lastFt := 0, total := 0 }] }

/-- The record to drop from a full store: the oldest of a retired unit, otherwise the oldest (R406). [Log entry 96: DEDUCED] -/
def State.dropRecord (s : State) (h : List HistEv) : List HistEv :=
  if h.any fun e => s.retired e.unit then dropFirst (fun e => s.retired e.unit) h else h.drop 1

/-- An event joins the record store (R406). [Log entry 96: DEDUCED] -/
def State.storeEvent (s : State) (e : HistEv) : State :=
  let full := 65536 ≤ s.rel.hist.length
  let h := if full then s.dropRecord s.rel.hist else s.rel.hist
  { s with rel := { s.rel with hist := h ++ [e], histDrop := s.rel.histDrop || full } }

/-- Unfinished items go back to be given to other cores; packets whose started items are replayed note it (R252, R415). -/
def State.recallItems (s : State) (drop : Work → Item → Bool) : State :=
  let giveBack (w : Work) (i : Item) : Item :=
    if drop w i && !i.finished then { i with core := none, started := false, acc := [] } else i
  let hit (w : Work) : Bool := w.items.any fun i => drop w i && i.started && !i.finished
  let off (h : HwThread) : Bool := match h.row with
    | none => false
    | some (p, n) => s.works.any fun w => w.pid == p && w.items.any fun i => i.num == n && drop w i && !i.finished
  let s1 := { s with threads := updAll off (fun h => { h with row := none }) s.threads, works := s.works.map fun w =>
      { w with items := w.items.map (giveBack w), outs := if hit w then w.outs ++ [(.replayedOk, 0)] else w.outs } }
  ((s.works.filter hit).filterMap fun w => w.slot).foldl (fun s j => s.modJob j fun b => b.note 0 s.ftNow) s1

/-- A link that carries nothing: no width, and no peer that it could name (R283, R300; log entry 19). [Log entry 19: DEDUCED] -/
def Link.idle (l : Link) (st : LinkState) : Link :=
  { l with st := st, width := 0, peerModule := 0, peerLink := 0, peerValid := false, pair := 0 }

/-- A retired link goes OFF through every reset and leaves its port (R285, R415). -/
def Link.retire (l : Link) : Link :=
  ({ l with retired := true, laneFault := 0 } : Link).idle .off

/-- A page's standing put back to pending (R408 STATE 4). -/
def State.pendPage (s : State) (u : Unit_) : State :=
  { s with rel := s.rel.modUnit u fun x => { x with st := 4 } }

/-- A retired page waits for the move of the logical page that it backs (R239). -/
def State.retirePage (s : State) (t c p : Nat) : State :=
  let (waits, s1) := s.retirePhys t c p
  if waits then s1.pendPage (.page t c p) else s1

/-- What retirement does beyond the state table, by unit (R239, R415). -/
def State.retireEffect (s : State) : Unit_ → State
  | .core g =>
    { (s.recallItems fun _ i => i.core == some g) with staged := s.staged.filter fun c => c.core != some g }
  | .array g _ =>
    s.recallItems fun w i => i.core == some g && (w.pkt.opcode == 0x30 || w.pkt.opcode == 0x31 || w.pkt.opcode == 0x32)
  | .link l => { s with links := vmod s.links l Link.retire }
  | .channel t c => ((List.range 12288).foldl (fun s p =>
      if s.retired (.page t c p) then s
      else
        let s1 := { s with rel := s.rel.modUnit (.page t c p) fun x => { x with st := s.unitState (.channel t c) } }
        s1.retirePage t c p) s).settleDeferred
  | .page t c p => (s.retirePage t c p).settleDeferred

/-- Retire a unit with this standing; a unit that is retired stays as it is (R415). -/
def State.retire (s : State) (u : Unit_) (st : Nat) : State :=
  if s.retired u then s
  else
    let r := s.rel.modUnit u fun x => { x with st := st }
    ({ s with rel := { r with retiredNew := true } } : State).retireEffect u

/-- COUNT of an event now: the earlier counted events of the unit with the signature in the last 1,000 hours, and this one
(R405, R408). -/
def State.countOf (s : State) (u : Unit_) (sig : Nat) : Nat :=
  (s.rel.hist.filter fun e => e.unit == u && e.sig == sig && countedMech e.mech && s.oph ≤ e.oph + 3600000).length + 1

/-- An event in the state table (R408). -/
def State.tallyEvent (s : State) (u : Unit_) : State :=
  { s with rel := s.rel.modUnit u fun x =>
      { x with st := max 1 x.st, lastFt := s.ftNow, total := satInc 16 x.total } }

/-- Record an event against a unit, count it, and retire the unit on the third (R405). -/
def State.recordEvent (s : State) (u : Unit_) (mech job sig seq : Nat) (temp : Nat := 0) : State :=
  let counted := countedMech mech && !s.retired u
  let n := if counted then min 3 (s.countOf u sig) else 0
  let s1 := (s.storeEvent { unit := u, mech := mech, count := n, job := job, ft := s.ftNow, oph := s.oph, sig := sig
                            seq := seq, temp := temp }).tallyEvent u
  if n = 3 then s1.retire u 2 else s1

/-- The pages of a channel with a counted FAULT 0 event of this stored bit in the last 1,000 hours (R404). -/
def State.channelPages (s : State) (t c bit : Nat) : List Unit_ :=
  ((s.rel.hist.filter fun e => countedMech e.mech && e.sig % 16 = 0 && nfld e.sig 25 7 = bit && s.oph ≤ e.oph + 3600000)
    |>.map (fun e => e.unit)).filter (fun u => match u with | .page t' c' _ => t' = t && c' = c | _ => false) |>.eraseDups

/-- A DRAM word event: recorded on its page, and counted on its channel at most once per page (R404). -/
def State.recordWord (s : State) (t c p word bit mech job seq : Nat) : State :=
  let s1 := s.recordEvent (.page t c p) mech job (at_ word 21 4 + at_ bit 7 25) seq
  if countedMech mech && !s1.retired (.channel t c) && 3 ≤ (s1.channelPages t c bit).length then
    s1.retire (.channel t c) 2
  else s1

/-- The generation from which a job's generations are suspect after an event against a core (R401). -/
def State.suspectFrom (s : State) (core slot : Nat) : Nat :=
  let j := s.job slot
  match (s.rel.coreTests.find? fun c => c.core == core).bind fun c => (lget c.gens slot none) with
  | some g => g + 1
  | none => j.genAtOpen + 1

/-- Update every open job's suspect set after an event against a core (R401). -/
def State.suspectUpdate (s : State) (core : Nat) (nominal : Bool) : State :=
  (List.range 4).foldl (fun s k =>
    let j := s.job k
    if j.opened then
      let f := s.suspectFrom core k
      let u : SuspectSet :=
        if j.sus.valid && j.sus.fromGen ≤ f then { j.sus with nominal := j.sus.nominal || nominal }
        else { fromGen := f, valid := true, nominal := (j.sus.valid && j.sus.nominal) || nominal, core := core }
      { (s.modJob k fun j => { j with sus := u }) with
        rel := { s.rel with suspectNew := s.rel.suspectNew || !j.sus.valid } }
    else s) s

/-- A core is in service for vector work: neither retired, failed, under test, nor in reset (R249, R413, R450). R249 and R526 do not say
whether a core in a core-scope or tile-scope reset counts among the cores in service; here it does not. [Log entry 122: DESIGN CHOICE] -/
def State.coreInService (s : State) (g : Nat) : Bool :=
  g < 512 && !s.retired (.core g) && !s.rel.outCores.contains g && !s.boot.coreReset.contains g
    && !s.boot.tileReset.contains (g / 16)

/-- A core has all four arrays (R249). -/
def State.coreWhole (s : State) (g : Nat) : Bool := (List.range 4).all fun a => !s.retired (.array g a)

/-- The count of cores in service that the identity block reports (R15, R249). -/
def State.coresInService (s : State) : Nat := ((List.range 512).filter fun g => s.coreInService g && s.coreWhole g).length

end Sys2Proof.Machine
end

