-- ==== Sys2Proof/Machine/Memory.lean ====
section
/-! DEFINITION. Places, addresses, the page map, access checks, and reads and writes of stored words
(08_memory.md R194 to R242, 17_security.md R485 to R490). -/

namespace Sys2Proof.Machine

/-! ## Stored codewords -/

/-- The codeword that the stores of this command leave at a key, latest first. -/
def storesGet : List Store → Nat → Option Codeword
  | [], _ => none
  | .word k c :: t, a => if k = a then some c else storesGet t a
  | .erase lo hi :: t, a => if lo ≤ a && a < hi then some 0 else storesGet t a

/-- The codeword kept at a key. -/
def State.readCw (s : State) (key : Nat) : Codeword :=
  match storesGet s.stores key with
  | some c => c
  | none => BitVec.ofNat 80 (bytesNat (cellGetAll s.mem (10 * key) 10))

/-- Store a codeword at a key. -/
def State.writeCw (s : State) (key : Nat) (c : Codeword) : State := { s with stores := .word key c :: s.stores }

/-- Every word of the keys [lo, hi) put to the all-zero codeword, which is the word 0 with poison 0 (R225). -/
def State.eraseKeys (s : State) (lo hi : Nat) : State := { s with stores := .erase lo hi :: s.stores }

/-! ## The page map as software reads it (R195, R201) -/

/-- The shared-memory words that hold the page map (R195, R201). -/
def isMapWord (w : Nat) : Bool := 0x3D80000 / 8 ≤ w && w < 0x3D80000 / 8 + 196608

/-- The word of the page map at a shared-memory word: two entries. -/
def State.mapWord (s : State) (t w : Nat) : Word :=
  let l := 2 * (w - 0x3D80000 / 8)
  wd ((s.pageEntry t l).bits + (s.pageEntry t (l + 1)).bits * 2 ^ 32)

/-- The word of the page map that a place holds, encoded: 0 elsewhere. What is kept at such a place's key is how its stored codeword
differs from this. -/
def State.mapCode (s : State) : Place → Codeword
  | .shared t w => if isMapWord w then encodeWord (s.mapWord t w) false else 0
  | _ => 0

/-- The stored codeword at a place. -/
def State.storedCw (s : State) (p : Place) : Codeword := s.readCw (placeKey p) ^^^ s.mapCode p

/-- Store a codeword at a place. -/
def State.storeCw (s : State) (p : Place) (c : Codeword) : State := s.writeCw (placeKey p) (c ^^^ s.mapCode p)

/-! ## Global addresses (R197 to R199) -/

/-- What a global address names. -/
inductive AddrKind where
  | here (tile off : Nat)
  | remote (mod tile off : Nat)
  | reg (mod off : Nat)
  | bad
  deriving DecidableEq, Repr, Inhabited

/-- The fields of a global address. -/
def addrSpace (a : Word) : Nat := fld a 60 4
def addrModule (a : Word) : Nat := fld a 48 12
def addrTile (a : Word) : Nat := fld a 43 5
def addrOff (a : Word) : Nat := fld a 0 43

/-- The address of a tile-local offset in a space of a module. -/
def mkAddr (space mod tile off : Nat) : Word := wd (at_ space 4 60 + at_ mod 12 48 + at_ tile 5 43 + at_ off 43 0)

/-- The global address of a tile-local offset of this module as the error log gives it (R237): in SPACE 1 where the module has
its number, otherwise local (log entry 18). [Log entry 18: DEDUCED] -/
def State.globalAddr (s : State) (t off : Nat) : Word :=
  if s.fabric.modValid then mkAddr 1 s.fabric.mod t off else mkAddr 0 0 t off

/-- The global address of the word at a tile-local offset. -/
def State.wordAddr (s : State) (t off : Nat) : Word := s.globalAddr t (off / 8 * 8)

/-- What an address names (R198); without a module number of its own, the module serves no SPACE 1 address (R301).
[Log entry 52: DEDUCED] -/
def State.addrKind (s : State) (a : Word) : AddrKind :=
  match addrSpace a with
  | 0 => if addrModule a = 0 then .here (addrTile a) (addrOff a) else .bad
  | 1 => if s.fabric.modValid && addrModule a = s.fabric.mod then .here (addrTile a) (addrOff a)
         else .remote (addrModule a) (addrTile a) (addrOff a)
  | 2 => if fld a 24 24 = 0 then .reg (addrModule a) (fld a 0 24) else .bad
  | _ => .bad

/-- The region of a tile-local offset: 0 logical DRAM, 1 tile shared memory, 2 core memory (R199, R486). -/
def regionOf (off : Nat) : Option Nat :=
  if off < 0x600000000 then some 0
  else if 0x40000000000 ≤ off && off < 0x40004000000 then some 1
  else if 0x60000000000 ≤ off && off < 0x60010000000 && off % 0x1000000 < 0xC00000 then some 2
  else none

/-- The stored word at a tile-local offset, if it is backed (R199). -/
def State.resolve (s : State) (t off : Nat) : Option Place :=
  match regionOf off with
  | some 0 =>
    let e := s.pageEntry t (off / 65536)
    if e.backed then some (.dram e.tile e.channel e.page (off % 65536 / 8)) else none
  | some 1 => some (.shared t ((off - 0x40000000000) / 8))
  | some 2 =>
    let o := off - 0x60000000000
    some (.core t (o / 0x1000000) (o % 0x1000000 / 8))
  | _ => none

/-! ## The error log (R235 to R238) -/

/-- Who issues an operation: the master's code (R485), its job slot or 0xF, its fabric job number, the packet's
SEQ, the packet's work, and the virtual channel of operations on other modules. -/
structure OpCtx where
  master : Nat
  slot   : Nat := 15
  fjob   : Nat := 0
  seq    : Nat := 0
  pid    : Nat := 0
  vc     : Nat := 2
  deriving DecidableEq, Repr, Inhabited

/-- The master codes of this module's units (R485). -/
def mHost : Nat := 0
def mStaging (g : Nat) : Nat := 0x1000 + g
def mDma (t : Nat) : Nat := 0x2000 + t
def mTranspose (t : Nat) : Nat := 0x3000 + t
def mControl (t : Nat) : Nat := 0x4000 + t
def mRemote (m : Nat) : Nat := 0x5000 + m
def mFabricManager : Nat := 0x6000
def mSecurity (t : Nat) : Nat := 0x7000 + t

/-- The operation's fields of a record. -/
def LogRec.by_ (r : LogRec) (x : OpCtx) : LogRec := { r with job := x.slot, master := x.master, seq := x.seq }

/-- The history of a word event at a place (R238, R404). Tile shared memory is no retirement unit. -/
def State.wordHistory (s : State) (p : Place) (bit mech : Nat) (x : OpCtx) : State :=
  match p with
  | .dram t c pg w => s.recordWord t c pg w bit mech x.slot x.seq
  | .shared _ _ => s
  | .core t c w => s.recordEvent (.core (t * 16 + c)) mech x.slot (at_ w 21 4 + at_ bit 7 25) x.seq

/-- A correction: counted, and logged with KIND 0 while LOG_CE is 1 (R236, R238). [Log entry 59: DEDUCED] -/
def State.noteCorrected (s : State) (p : Place) (addr : Word) (x : OpCtx) (syn : Nat) (bits : List Nat) : State :=
  let s1 := { s with memErr := { s.memErr with ce := satInc 32 s.memErr.ce } }
  if s.memErr.logCe then
    (s1.log ((({ kind := 0, addr := addr, synd := syn, bit0 := lget bits 0 0x7F, bit1 := lget bits 1 0x7F } : LogRec).atPlace
      p).by_ x)).wordHistory p (lget bits 0 0x7F) 0 x
  else s1

/-- An uncorrectable word: poisoned in memory with a fresh code, counted, logged and entered in history (R228). -/
def State.noteUncorrectable (s : State) (p : Place) (kind : Nat) (addr : Word) (x : OpCtx) (c : Codeword) : State :=
  let s1 := s.storeCw p (encodeWord (cwData c) true)
  let s2 := { s1 with memErr := { s1.memErr with ue := satInc 32 s1.memErr.ue } }
  (s2.log ((({ kind := kind, addr := addr, synd := eccSyndrome c, bit0 := 0x7F, bit1 := 0x7F } : LogRec).atPlace
    p).by_ x)).wordHistory p 0x7F 1 x

/-- Poison consumed by work (R230): KIND 2, and the event of mechanism 3. -/
def State.noteConsumed (s : State) (p : Place) (addr : Word) (x : OpCtx) : State :=
  (s.log ((({ kind := 2, addr := addr, bit0 := 0x7F, bit1 := 0x7F } : LogRec).atPlace p).by_ x)).wordHistory p 0x7F 3 x

/-! ## Words -/

/-- The home page that a tile-local offset lies in, where it is logical DRAM. -/
def homePage (off : Nat) : Option Nat := if off < 0x600000000 then some (off / 65536) else none

/-- The tile that a master of this module sits on (R485). -/
def masterTile (m : Nat) : Option Nat :=
  if m / 4096 = 1 then some (m % 4096 / 16) else if 2 ≤ m / 4096 && m / 4096 ≤ 4 then some (m % 4096) else none

/-- Count an access of a home page by a requesting tile (R243). [Log entry 64: DESIGN CHOICE] -/
def State.countAccess (s : State) (t off master : Nat) : State :=
  match homePage off, masterTile master with
  | some l, some u =>
    let same (a : AccessCount) : Bool := a.tile == t && a.page == l && a.by_ == u
    if s.access.any same then { s with access := updFirst same (fun a => { a with now := a.now + 1 }) s.access }
    else { s with access := s.access ++ [{ tile := t, page := l, by_ := u, now := 1, last := 0 }] }
  | _, _ => s

/-- Count the accesses of `n` bytes by a requesting tile, one for each 4 KiB page. -/
def State.countRange (s : State) (t off n master : Nat) : State :=
  (List.range ((off + n + 4095) / 4096 - off / 4096)).foldl (fun s i => s.countAccess t (max off ((off / 4096 + i) * 4096)) master) s

/-- Read and check one stored word (R226 to R228), and whether the check corrected it. -/
def State.checkedPlace (s : State) (p : Place) (addr : Word) (x : OpCtx) : (Word × Bool) × Bool × State :=
  let c := s.storedCw p
  match eccCheck c with
  | .clean => ((cwData c, cwPoison c), false, s)
  | .corrected bs =>
    let c' := flipBits c bs
    ((cwData c', cwPoison c'), true, s.noteCorrected p addr x (eccSyndrome c) bs)
  | .uncorrectable => ((cwData c, true), false, s.noteUncorrectable p 1 addr x c)

/-- Read and check one stored word. -/
def State.readPlace (s : State) (p : Place) (addr : Word) (x : OpCtx) : (Word × Bool) × State :=
  let (w, _, s1) := s.checkedPlace p addr x
  (w, s1)

/-- Read the word at a tile-local offset, and whether its check corrected it; an unbacked word reads as a poisoned 0.
[Log entry 59: DEDUCED] -/
def State.checkedWord (s : State) (t off : Nat) (x : OpCtx) : (Word × Bool) × Bool × State :=
  match s.resolve t off with
  | none => ((0, true), false, s)
  | some p => s.checkedPlace p (s.wordAddr t off) x

/-- Read the word at a tile-local offset. -/
def State.readWord (s : State) (t off : Nat) (x : OpCtx) : (Word × Bool) × State :=
  let (w, _, s1) := s.checkedWord t off x
  (w, s1)

/-- Read `n` words from a tile-local offset. -/
def State.readWords (s : State) (t off : Nat) (x : OpCtx) : Nat → List (Word × Bool) × State
  | 0 => ([], s)
  | n + 1 =>
    let (w, s1) := s.readWord t off x
    let (ws, s2) := s1.readWords t (off + 8) x n
    (w :: ws, s2)

/-- Read `n` bytes from a tile-local offset, each with the poison flag of its word. -/
def State.readBytes (s : State) (t off n : Nat) (x : OpCtx) : List (Byte × Bool) × State :=
  let lo := off / 8 * 8
  let (ws, s1) := s.readWords t lo x ((off + n + 7) / 8 - off / 8)
  (((ws.flatMap fun w => (wordBytes w.1).map fun b => (b, w.2)).drop (off - lo)).take n, s1)

/-- Discard the staged copies of a home page (R248). -/
def State.invalidate (s : State) (t off : Nat) : State :=
  match homePage off with
  | none => s
  | some l => { s with staged := s.staged.filter fun c => !(c.homeTile == t && c.page == l) }

/-- A word written anew is no longer the word a gather delivered (R231). -/
def State.ungather (s : State) (key : Nat) : State :=
  { s with gathered := s.gathered.filter fun g => g.key != key }

/-- The word that eight optional bytes make over an old one. -/
def mergeBytes (old : Word) (bs : List (Option (Byte × Bool))) : Word :=
  wd (bytesNat ((wordBytes old).mapIdx fun i b => match lget bs i none with | some (c, _) => c | none => b))

/-- Write the given bytes of one word as one indivisible read, merge and write (R208, R232). -/
def State.putWord (s : State) (t off : Nat) (bs : List (Option (Byte × Bool))) (x : OpCtx) : State :=
  match s.resolve t off with
  | none => s
  | some p =>
    let s0 := (s.invalidate t off).ungather (placeKey p)
    let dirty := bs.any fun o => match o with | some (_, b) => b | none => false
    if bs.length = 8 && bs.all Option.isSome then s0.storeCw p (encodeWord (mergeBytes 0 bs) dirty)
    else if bs.any Option.isSome then
      let ((w, po), s1) := s0.readPlace p (s.wordAddr t off) x
      s1.storeCw p (encodeWord (mergeBytes w bs) (po || dirty))
    else s

/-- Write bytes, each with its own poison mark, from a tile-local offset; `k` bounds the words touched. -/
def State.putBytesAux (s : State) (t off : Nat) (bs : List (Option (Byte × Bool))) (x : OpCtx) : Nat → State
  | 0 => s
  | k + 1 =>
    match bs with
    | [] => s
    | _ =>
      let lead := off % 8
      let here := List.replicate lead none ++ bs.take (8 - lead)
      let s1 := s.putWord t (off / 8 * 8) (here ++ List.replicate (8 - here.length) none) x
      s1.putBytesAux t (off / 8 * 8 + 8) (bs.drop (8 - lead)) x k

/-- Write bytes from a tile-local offset. -/
def State.putBytes (s : State) (t off : Nat) (bs : List (Option (Byte × Bool))) (x : OpCtx) : State :=
  s.putBytesAux t off bs x (bs.length / 8 + 2)

/-- Write one whole word (R232: whole-word writes set the poison flag they carry). -/
def State.writeWord (s : State) (t off : Nat) (d : Word) (poison : Bool) : State :=
  match s.resolve t off with
  | none => s
  | some p => ((s.invalidate t off).ungather (placeKey p)).storeCw p (encodeWord d poison)

/-- Write whole words one after another. -/
def State.writeWords (s : State) (t : Nat) : Nat → List (Word × Bool) → State
  | _, [] => s
  | off, (d, p) :: ws => (s.writeWord t off d p).writeWords t (off + 8) ws

/-! ## Access tables (R485 to R490) -/

/-- The reset entries of a target's table (R490): target number kind × 32 + tile, register space 96. -/
def defaultAt (target i : Nat) : AtEntry :=
  let rd (c lo hi : Nat) : AtEntry := { valid := true, read := true, cls := c, base := wd lo, limit := wd hi }
  let rw (c lo hi : Nat) : AtEntry := { rd c lo hi with write := true }
  let all (c lo hi : Nat) : AtEntry := { rw c lo hi with atomic := true, accum := true }
  match target / 32, i with
  | 0, 0 => rw 0 0 0x600000000
  | 0, 1 => all 1 0 0x600000000
  | 0, 2 => all 2 0 0x600000000
  | 0, 3 => all 3 0 0x600000000
  | 0, 4 => all 4 0 0x600000000
  | 1, 0 => rw 0 0x40003F80000 0x40004000000
  | 1, 1 => rd 4 0x40003F80000 0x40004000000
  | 1, 2 => all 1 0x40000000000 0x40003D80000
  | 1, 3 => all 2 0x40000000000 0x40003D80000
  | 1, 4 => all 3 0x40000000000 0x40003D80000
  | 1, 5 => all 4 0x40000000000 0x40003D80000
  | 2, 0 => rw 1 0x60000000000 0x60010000000
  | 2, 1 => rw 2 0x60000000000 0x60010000000
  | 2, 2 => rw 4 0x60000000000 0x60010000000
  | 3, 0 => rw 0 0 0x60000
  | 3, 1 => rd 0 0x60000 0x70000
  | 3, 2 => rw 0 0x70000 0x1000000
  | 3, 3 => rw 6 0 0x60000
  | 3, 4 => rd 6 0x60000 0x70000
  | 3, 5 => rw 6 0x70000 0x1000000
  | _, _ => {}

/-- Entry `i` of a target's table. -/
def State.accessEntry (s : State) (target i : Nat) : AtEntry :=
  (kvGet s.sec.tables (target * 256 + i)).getD (defaultAt target i)

/-- The entry numbers of a target that may be in force, lowest first. -/
def State.accessIndices (s : State) (target : Nat) : List Nat :=
  List.range 6 ++ ((s.sec.tables.filter fun e => target * 256 + 6 ≤ e.1 && e.1 < target * 256 + 256).map
    fun e => e.1 - target * 256)

/-- An entry matches an operation (R487). -/
def AtEntry.hits (e : AtEntry) (master fjob off : Nat) : Bool :=
  e.valid && e.cls == master / 4096 && (((e.id ^^^ (master % 4096)) &&& e.idMask) == 0)
    && (!e.matchJob || e.job == fjob)
    && decide (e.base.toNat ≤ off / 4096 * 4096) && decide (off / 4096 * 4096 + 4096 ≤ e.limit.toNat)

/-- The right an entry grants. -/
def AtEntry.right (e : AtEntry) : MemOp → Bool
  | .read => e.read
  | .write => e.write
  | .atomic => e.atomic
  | .accumulate => e.accum

/-- The lowest-numbered matching entry decides, and no match denies (R487); no table checks the security controller
(R488). -/
def State.accessAllowed (s : State) (target master fjob off : Nat) (op : MemOp) : Bool :=
  master / 4096 == 7 ||
  match (s.accessIndices target).find? fun i => (s.accessEntry target i).hits master fjob off with
  | none => false
  | some i => (s.accessEntry target i).right op

/-- How an operation at its target ends (R209). -/
inductive OpRes where
  | ok | denied | unbacked
  deriving DecidableEq, Repr, Inhabited

/-- The check of one operation within one 4 KiB page of a tile (R207, R209, R487). -/
def State.opCheck (s : State) (x : OpCtx) (op : MemOp) (t off : Nat) : OpRes :=
  match regionOf off with
  | none => .unbacked
  | some k =>
    if (op = .atomic && k = 2) || (op = .accumulate && k ≠ 0) then .unbacked
    else if !s.accessAllowed (k * 32 + t) x.master x.fjob off op then .denied
    else if (s.resolve t off).isSome then .ok else .unbacked

/-- The MEMORY field for an address fault. [Log entry 51: DEDUCED] -/
def memoryCode (off : Nat) : Nat := if off < 0x40000000000 then 0 else if off < 0x60000000000 then 1 else 2

/-- Log a denial or an address fault at a tile-local offset (R209, R237). [Log entry 51: DEDUCED] -/
def State.logFault (s : State) (x : OpCtx) (kind t off : Nat) (addr : Word) : State :=
  let r : LogRec := { kind := kind, addr := addr, bit0 := 0x7F, bit1 := 0x7F }
  let r := match s.resolve t off with
    | some p => r.atPlace p
    | none => { r with memory := memoryCode off, tile := t }
  s.log (r.by_ x)

/-- Log what a check found. -/
def State.logRes (s : State) (x : OpCtx) (r : OpRes) (t off : Nat) (addr : Word) : State :=
  match r with
  | .ok => s
  | .denied => s.logFault x 5 t off addr
  | .unbacked => s.logFault x 8 t off addr

/-- The status and detail of an operation that was not performed (R209). -/
def OpRes.status : OpRes → Status × Nat
  | .ok => (.done, 0)
  | .denied => (.accessDenied, 2)
  | .unbacked => (.internal, 0x0141)

/-- The check of a run of bytes, page by page: the first page that fails, with its offset (R207). -/
def State.rangeCheck (s : State) (x : OpCtx) (op : MemOp) (t off : Nat) : Nat → Nat → Option (OpRes × Nat)
  | _, 0 => none
  | fuel, n =>
    match fuel with
    | 0 => none
    | f + 1 =>
      match s.opCheck x op t off with
      | .ok =>
        let k := min n (4096 - off % 4096)
        s.rangeCheck x op t (off + k) f (n - k)
      | r => some (r, off)

/-- The whole range is backed on this module (R241). -/
def State.rangeBacked (s : State) (t off n : Nat) : Bool :=
  (List.range ((off % 65536 + max 1 n + 65535) / 65536)).all fun k => (s.resolve t (off / 65536 * 65536 + 65536 * k)).isSome

end Sys2Proof.Machine
end

