-- ==== Sys2Proof/Machine/Fabric.lean ====
section
/-! DEFINITION. Kealet links, ports, routes and the sending of messages (10_links.md R268 to R298). -/

namespace Sys2Proof.Machine

/-! ## Links and ports -/

/-- The tile whose port block link L leaves (R268). [Log entry 60: DEDUCED] -/
def linkTile (l : Nat) : Nat :=
  lget [0, 4, 8, 12, 16, 20, 24, 28, 29, 30, 31, 27, 23, 19, 15, 11, 7, 3] l 0

/-- The link `l`. -/
def State.link (s : State) (l : Nat) : Link := vget s.links l

/-- Change link `l`. -/
def State.modLink (s : State) (l : Nat) (f : Link → Link) : State := { s with links := vmod s.links l f }

/-- The port `p`. -/
def State.port (s : State) (p : Nat) : Port := vget s.ports p

/-- Change port `p`. -/
def State.modPort (s : State) (p : Nat) (f : Port → Port) : State := { s with ports := vmod s.ports p f }

/-- A link's weight in its port (R279, R282). -/
def Link.weight (l : Link) : Nat := if l.st ≠ .up || l.peerErr then 0 else if l.width = 3 then 2 else 1

/-- The member links of a port; a retired link has left it (R278, R285). -/
def State.members (s : State) (p : Nat) : List Nat :=
  (List.range 18).filter fun l => (s.link l).port == p && !(s.link l).retired

/-- A port is formed (R278). -/
def State.formed (s : State) (p : Nat) : Bool := [1, 2, 3, 6, 9].contains (s.members p).length

/-- The slots that a port deals to its members in link-number order (R279); none when it is not formed. -/
def State.slots (s : State) (p : Nat) : List Nat :=
  if s.formed p then (s.members p).flatMap fun l => List.replicate (s.link l).weight l else []

/-- A port is formed and not down (R279, R301). -/
def State.portUp (s : State) (p : Nat) : Bool := !(s.slots p).isEmpty

/-- A message names an address in word 2 (R279). -/
def opAddressed : MsgOp → Bool
  | .read | .write | .atomic | .accumulate => true
  | .idle | .data | .ack | .nack | .control | .collective => false

/-- h of R279. -/
def slotHash (m : Msg) : Nat :=
  if opAddressed m.op then m.dest ^^^ fld m.word2 12 12 ^^^ fld m.word2 24 12 ^^^ fld m.word2 36 12 else m.tag % 4096

/-- The member that holds slot h mod W (R279). -/
def memberOf (slots : List Nat) (h : Nat) : Option Nat := if slots.isEmpty then none else slots[h % slots.length]?

/-- Hand a message to a link's transmitter at a time, or leave it waiting while 256 codewords are unacknowledged (R274).
[Log entry 67: DESIGN CHOICE] -/
def Link.transmit (l : Link) (now : Nat) (o : Out) : Link :=
  if l.unacked.length < 256 && l.waiting.isEmpty then
    { l with unacked := l.unacked ++ [{ seq := l.txNext, out := o }], txNext := (l.txNext + 1) % 512
             ackAt := if l.unacked.isEmpty then now else l.ackAt }
  else { l with waiting := l.waiting ++ [o] }

/-- Waiting messages go as room allows. -/
def Link.refill (l : Link) (now : Nat) : Link :=
  let n := 256 - l.unacked.length
  (l.waiting.take n).foldl (fun l o => l.transmit now o) { l with waiting := [] } |> fun l' =>
    { l' with waiting := l'.waiting ++ l.waiting.drop n }

/-- Hand a message to link `l`. -/
def State.transmitOn (s : State) (l : Nat) (o : Out) : State := s.modLink l fun k => k.transmit s.uptime o

/-- The messages of a link that its peer has not acknowledged, oldest first. -/
def Link.outstanding (l : Link) : List Out := l.unacked.map (fun c => c.out) ++ l.waiting

/-- Two operations of one master on one 4 KiB page (R280). -/
def samePage (a b : Msg) : Bool :=
  opAddressed a.op && opAddressed b.op && a.src == b.src && a.master == b.master && a.word2.toNat / 4096 == b.word2.toNat / 4096

/-- R280: an operation of the same master to the page waits at the port, or its codeword is unacknowledged on another VC.
[Log entry 127: DESIGN CHOICE] -/
def State.vcConflict (s : State) (p : Nat) (m : Msg) : Bool :=
  ((s.port p).held.any fun o => samePage o.msg m)
    || (s.members p).any fun l => (s.link l).outstanding.any fun o => o.msg.vc != m.vc && samePage o.msg m

/-- A message of a port must wait: its member has changed and the hold of R281 lasts, or R280 holds it. -/
def State.mustHold (s : State) (p : Nat) (o : Out) : Bool :=
  let q := s.port p
  (q.holding && memberOf q.before (slotHash o.msg) != memberOf (s.slots p) (slotHash o.msg)) || s.vcConflict p o.msg

/-- Send a numbered message on its member, or hold it. [Log entry 67: DESIGN CHOICE] -/
def State.portSend (s : State) (p : Nat) (o : Out) : State :=
  if s.mustHold p o then s.modPort p fun q => { q with held := q.held ++ [o] }
  else match memberOf (s.slots p) (slotHash o.msg) with
    | none => s
    | some l => s.transmitOn l o

/-- Held messages that need wait no longer go, in order. -/
def State.flushHeld (s : State) (p : Nat) : State :=
  let hs := (s.port p).held
  hs.foldl (fun s o => s.portSend p o) (s.modPort p fun q => { q with held := [] })

/-! ## Routes (R291) -/

/-- The route entry of a destination. -/
def State.route (s : State) (dest : Nat) : Nat := (kvGet s.fabric.routes dest).getD 0x1F

/-- Count a message of this module's own that it discards (R291). -/
def State.localDrop (s : State) (n : Nat) : State :=
  { s with fabric := { s.fabric with localDrop := satAdd 16 s.fabric.localDrop n } }

/-- Number a message on a port and send it (R282). -/
def State.numbered (s : State) (p : Nat) (o : Out) : State :=
  let n := (s.port p).pseq
  (s.modPort p fun q => { q with pseq := (n + 1) % 2 ^ 32 }).portSend p { o with msg := { o.msg with pseq := n } }

/-- The port that a destination's route names, where it is not down. -/
def State.outPort (s : State) (dest : Nat) : Option Nat :=
  let p := s.route dest % 32
  if p < 18 && s.portUp p then some p else none

/-- Send a message of this module's own; an unreachable one is discarded and counted (R291, R301). -/
def State.send (s : State) (m : Msg) : State :=
  if !s.fabric.modValid then s.localDrop 1
  else match s.outPort m.dest with
    | none => s.localDrop 1
    | some p => s.numbered p { msg := { m with cls := s.route m.dest / 32 % 2 }, via := none }

/-- Send a VC0 CONTROL message to the peer on one link, which needs no route (R278, R301). -/
def State.sendPeer (s : State) (l : Nat) (m : Msg) : State :=
  if (s.link l).st = .up then s.transmitOn l { msg := m, via := none } else s

/-- An empty message of this module. -/
def State.blank (s : State) (op : MsgOp) (dest : Nat) : Msg :=
  { vc := 0, cls := 0, dest := dest, src := s.fabric.mod, job := 0, op := op, subop := 0, len := 0, master := 0, tag := 0
    word2 := 0, pseq := 0, mask := [], data := [], ctl := .none }

/-- A VC0 CONTROL message (R277). -/
def State.control (s : State) (dest job : Nat) (c : Ctl) : State :=
  s.send { s.blank .control dest with job := job, ctl := c }

/-! ## Changes of membership (R281, R282) -/

/-- A message between link peers, which no port numbers (R278, R301). [Log entry 70: DEDUCED] -/
def isPeerMsg (m : Msg) : Bool :=
  m.vc = 0 && m.op = .control && match m.ctl with | .time _ _ => true | .xferReq _ => true | .xferAns _ _ _ _ _ => true | .bootImage _ => true | .peer _ _ _ => true | _ => false

/-- Count messages lost when a port went down: transit on the link each arrived on, the module's own in LOCAL_DROP. -/
def State.countLost (s : State) (os : List Out) : State :=
  os.foldl (fun s o => match o.via with
    | none => s.localDrop 1
    | some l => s.modLink l fun k => { k with unreachDrop := satInc 16 k.unreachDrop }) s

/-- The messages sent on a port whose codewords are not acknowledged, waiting ones among them; those between link peers belong
to their link and not to the port. -/
def State.sentOn (s : State) (ls : List Nat) : List Out := ls.flatMap fun l => (s.link l).outstanding.filter fun o => !isPeerMsg o.msg

/-- A port settles after its members changed: a link that carries nothing any more gives its messages back, they go on the
remaining members before any new message, and messages whose member changed are held until every message sent before is
acknowledged; a port that is down loses them. -/
def State.settlePort (s : State) (before : List Nat) (p : Nat) : State :=
  let now := s.slots p
  if before = now then s
  else
    let gone := before.eraseDups.filter fun l => !now.contains l
    let back := s.sentOn gone
    let s1 := gone.foldl (fun s l => s.modLink l fun k => { k with unacked := [], waiting := [] }) s
    if now.isEmpty then
      (s1.countLost (back ++ (s1.port p).held)).modPort p fun _ => {}
    else
      let old := (back ++ s1.sentOn now.eraseDups).map fun o => o.msg.pseq
      let s2 := s1.modPort p fun q => { q with holding := !old.isEmpty, before := before, sentBefore := old }
      back.foldl (fun s o => match memberOf (s.slots p) (slotHash o.msg) with
        | none => s
        | some l => s.transmitOn l o) s2

/-- Do something that may change links, and let every port settle (R281). -/
def State.settling (s : State) (f : State → State) : State :=
  let befores := (List.range 18).map fun p => (p, s.slots p)
  befores.foldl (fun t b => t.settlePort b.2 b.1) (f s)

/-- Change a link's state or port, and let every port settle (R281). -/
def State.changeLink (s : State) (l : Nat) (f : Link → Link) : State := s.settling fun s => s.modLink l f

/-! ## Link states (R283, R284) -/

/-- The lanes of a pair: 0 lanes 0 and 1, 1 lanes 2 and 3. -/
def pairMask (k : Nat) : Nat := if k = 0 then 3 else 12

/-- The width that training can reach: four lanes, a pair without a faulted lane, or none (R284). -/
def Link.trainWidth (l : Link) : Nat :=
  if l.lanesBad % 16 = 0 then 3 else if l.lanesBad &&& 3 = 0 then 1 else if l.lanesBad &&& 12 = 0 then 2 else 0

/-- Record a link event; a link that it retires leaves its port (R285, R404, R405). -/
def State.linkEvent (s : State) (l mech sig : Nat) : State := s.settling fun s => s.recordEvent (.link l) mech 15 sig 0

/-- The signature of a lane event: FAULT 5 with the mask of faulted lanes (R404). -/
def Link.laneSig (l : Link) : Nat := 5 + at_ l.lanesBad 4 4

/-- The width that the training in progress reaches: that of a width change's pair, else the lanes' (R284). -/
def Link.goalWidth (l : Link) : Nat := if l.pair = 0 then l.trainWidth else if l.lanesBad &&& pairMask (l.pair - 1) = 0 then l.pair else 0

/-- A link that light or a write lets train starts training (R283). -/
def Link.startTraining (l : Link) : Link :=
  if l.enable && !l.retired && l.st == .down && l.light && l.trainWidth ≠ 0 then
    { l with st := .training, failedTraining := false, pair := 0 }
  else l

/-- Light appears on a lane (R283). [Log entry 68: DEDUCED] -/
def opLightDetect (l lane : Nat) (s : State) : State :=
  s.modLink l fun k =>
    ({ k with light := true, lanesBad := k.lanesBad &&& (15 - 2 ^ (lane % 4)) } : Link).startTraining

/-- The peer of a port is what its first member to reach UP reports; another peer is an error (R282). [Log entry 69: DEDUCED] -/
def State.joinPeer (s : State) (l peer : Nat) : State :=
  let p := (s.link l).port
  match (s.port p).peer with
  | none => (s.modPort p fun q => { q with peer := some peer }).modLink l fun k => { k with peerErr := false }
  | some q => s.modLink l fun k => { k with peerErr := q != peer }

/-- The peer of a link has told its module number (R283, R300): a port whose peer it was keeps it under its new number, and the
link is judged against its port's peer again. -/
def State.peerHere (s : State) (l mod link : Nat) (valid : Bool) : State :=
  s.settling fun s =>
    let k := s.link l
    let s1 := if (s.port k.port).peer = some k.peerModule then s.modPort k.port fun q => { q with peer := some (mod % 4096) } else s
    (s1.modLink l fun k => { k with peerModule := mod % 4096, peerLink := link % 32, peerValid := valid }).joinPeer l (mod % 4096)

/-- Tell the peer of one link this module's number and the link's (R283, R300). [Log entry 21: DEDUCED] -/
def State.tellPeer (s : State) (l : Nat) : State :=
  s.sendPeer l { s.blank .control 0 with ctl := .peer s.fabric.mod l s.fabric.modValid }

/-- Tell every link peer this module's number (R300, R301). -/
def State.tellPeers (s : State) : State := (List.range 18).foldl (fun s l => s.tellPeer l) s

/-- A training ends: the link is UP once the peers have told each other their module and link (R283, R284). -/
def opTrainingDone (l : Nat) (ok : Bool) (peerModule peerLink : Nat) (peerValid : Bool) (s : State) : State :=
  let k := s.link l
  if k.st ≠ .training then s
  else if ok && k.goalWidth ≠ 0 then
    let w := k.goalWidth
    let s1 := s.joinPeer l (peerModule % 4096)
    (s1.changeLink l fun k =>
      { k with st := .up, width := w, laneFault := if w = 3 then 0 else k.laneFault, peerModule := peerModule % 4096
               peerLink := peerLink % 32, peerValid := peerValid, failedTraining := false, pair := 0
               txNext := 0, rxNext := 0, rxAck := 511, nak := false, rowanNext := false }).tellPeer l
  else s.modLink l fun k => ({ k with failedTraining := true } : Link).idle .down

/-- After a failed training the link tries again while light remains (R283). -/
def opTrainingRetry (l : Nat) (s : State) : State :=
  if (s.link l).failedTraining then s.modLink l Link.startTraining else s

/-- The pair that a width change trains: the first that holds no faulted lane; 0 when both do (R284). -/
def Link.cleanPair (l : Link) : Nat := if l.lanesBad &&& 3 = 0 then 1 else if l.lanesBad &&& 12 = 0 then 2 else 0

/-- A lane faults (R284, R285). [Log entry 68: DEDUCED] -/
def opLaneFault (l lane : Nat) (s : State) : State :=
  let k := s.link l
  let bit := 2 ^ (lane % 4)
  if k.lanesBad &&& bit ≠ 0 then s
  else
    let mark (k : Link) : Link := { k with lanesBad := k.lanesBad ||| bit, laneFault := k.laneFault ||| bit }
    let k1 := mark k
    match k.st with
    | .up =>
      if k.width = 3 && k1.cleanPair ≠ 0 then
        (s.changeLink l fun k => { mark k with st := .training, width := 0, widthDrop := true, pair := k1.cleanPair }).linkEvent l 9 k1.laneSig
      else (s.changeLink l fun k => (mark k).idle .down).linkEvent l 10 k1.laneSig
    | .training =>
      s.modLink l fun k =>
        if k1.goalWidth ≠ 0 then mark k
        else if k.pair ≠ 0 && k1.cleanPair ≠ 0 then { mark k with pair := k1.cleanPair }
        else (mark k).idle .down
    | .off | .down => s.modLink l mark

/-- RETRAIN: with every lane free of faults the link leaves UP and trains at four lanes (R284). -/
def opLinkRetrain (l : Nat) (s : State) : State :=
  let k := s.link l
  if k.st = .up && k.lanesBad % 16 = 0 then s.changeLink l fun k => { k with st := .training, width := 0, pair := 0 } else s

/-- A write of ENABLE: 0 sends the link OFF (R283, R300). -/
def opLinkEnable (l : Nat) (en : Bool) (s : State) : State :=
  if en then
    s.modLink l fun k =>
      let k1 := { k with enable := true }
      if k.st = .off && !k.retired then { k1 with st := .down }.startTraining else k1
  else s.changeLink l fun k => ({ k with enable := false } : Link).idle .off

/-- A write of PORT: above 17 it is ignored (R300); a link that is up is judged against its new port's peer (R282). -/
def opLinkPort (l p : Nat) (s : State) : State :=
  if 17 < p || (s.link l).port = p then s
  else s.settling fun s =>
    let s1 := s.modLink l fun k => { k with port := p }
    if (s.link l).st = .up then s1.joinPeer l (s.link l).peerModule else s1

/-! ## Codewords (R272, R274) -/

/-- What an acknowledgement of codeword `ack` leaves unacknowledged. -/
def ackedUpTo (us : List TxCw) (ack : Nat) : List TxCw :=
  if us.any fun c => c.seq == ack then (us.dropWhile fun c => c.seq != ack).drop 1 else us

/-- A bulk codeword is received: SEQ, ACK, NAK and ROWAN are its trailer's (R272, R274, R285). Each codeword that carries NAK makes
the link resend, and each resend counts in REPLAYS. [Log entries 69: DEDUCED; 124: DEDUCED] -/
def opBulkCodeword (l : Nat) (intact corrected : Bool) (seq ack : Nat) (nak rowan : Bool) (worst : Nat) (s : State) : State :=
  let k := s.link l
  if k.st ≠ .up then s
  else if !intact then
    (s.modLink l fun k => { k with cwUncorr := satInc 32 k.cwUncorr, nak := true }).linkEvent l 11 (6 + at_ worst 2 4)
  else
    let s1 := s.modLink l fun k => { k with cwCorrected := satAdd 32 k.cwCorrected (b2n corrected), rowanNext := rowan }
    if seq ≠ k.rxNext then s1
    else
      let s2 := s1.modLink l fun k =>
        ({ k with rxNext := (seq + 1) % 512, rxAck := seq, nak := false, unacked := ackedUpTo k.unacked ack
                  ackAt := if nak || k.unacked.any fun c => c.seq == ack then s.uptime else k.ackAt
                  replays := if nak then satInc 16 k.replays else k.replays } : Link).refill s.uptime
      s2.flushHeld k.port

/-- 2 µs pass without ACK advancing: the link resends from its oldest unacknowledged codeword (R274). -/
def opReplayTimeout (l : Nat) (s : State) : State :=
  let k := s.link l
  if k.st = .up && !k.unacked.isEmpty && k.ackAt + 2000 ≤ s.uptime then
    s.modLink l fun k => { k with replays := satInc 16 k.replays, ackAt := s.uptime }
  else s

/-- Every message sent on a port before its weights changed has been acknowledged: held messages go (R281). -/
def opPortHoldEnd (p : Nat) (s : State) : State :=
  let q := s.port p
  let still := (s.sentOn (s.members p)).any fun o => q.sentBefore.contains o.msg.pseq
  if !q.holding || still then s
  else (s.modPort p fun q => { q with holding := false, before := [], sentBefore := [] }).flushHeld p

/-! ## Transit (R293 to R298) -/

/-- A reservation matches a transit message (R294). -/
def Reservation.hits (r : Reservation) (job inP outP : Nat) : Bool :=
  r.valid && r.job == job && r.outPort == outP && (r.inPort == inP || r.inPort == 0x1F)

/-- A number is within the receiving port's window of another (R282). -/
def nearPseq (a b : Nat) : Bool := (a + 2 ^ 32 - b) % 2 ^ 32 < 65536 || (b + 2 ^ 32 - a) % 2 ^ 32 < 65536

/-- The receiving port takes a number once within its window (R282): whether it is new, and the port after it. -/
def State.takeNumber (s : State) (l : Nat) (m : Msg) : Bool × State :=
  let p := (s.link l).port
  if isPeerMsg m || !s.formed p then (true, s)
  else if (s.port p).seen.contains m.pseq then (false, s)
  else (true, s.modPort p fun q => { q with seen := m.pseq :: q.seen.filter fun n => nearPseq n m.pseq })

/-- A new transit message is forwarded or discarded (R294, R298). -/
def State.forward (s : State) (l : Nat) (m : Msg) : State :=
  let k := s.link l
  let drop := s.modLink l fun k => { k with transitDrop := satInc 16 k.transitDrop }
  if k.st ≠ .up || m.dest = s.fabric.mod then s
  else if !s.fabric.modValid || s.fabric.legacy then drop
  else match s.outPort m.dest with
    | none => s.modLink l fun k => { k with unreachDrop := satInc 16 k.unreachDrop }
    | some p =>
      if !s.fabric.transitEn then drop
      else if m.vc = 0 || s.fabric.res.toList.any fun r => r.hits m.job k.port p then
        s.numbered p { msg := { m with cls := s.route m.dest / 32 % 2 }, via := some l }
      else drop

/-- A transit message arrives on a link; one whose port is not formed carries none (R278). -/
def opTransit (l : Nat) (m : Msg) (s : State) : State :=
  if (s.link l).st ≠ .up || !s.formed (s.link l).port then s
  else
    let (new, s1) := s.takeNumber l m
    if new then s1.forward l m else s

/-- The capacity of a port in units of 0.125 GB/s (R295). -/
def State.portUnits (s : State) (p : Nat) : Nat := 775 * (s.slots p).length / 2

/-- The rates reserved on a port by the valid entries (R295). -/
def Fabric.reserved (f : Fabric) (p : Nat) : Nat :=
  ((f.res.toList.filter fun r => r.valid && r.outPort == p).map fun r => r.rate).foldl (· + ·) 0

/-- RES_SCALED: some port's reservations exceed its capacity (R296). -/
def State.resScaled (s : State) : Bool := (List.range 18).any fun p => s.portUnits p < s.fabric.reserved p

/-- A reservation word as a write leaves it (R301). -/
def Reservation.written (r : Reservation) (word : Nat) (v : Word) : Reservation :=
  if word = 0 then { r with job := fld v 0 32, inPort := fld v 32 5, outPort := fld v 37 5, valid := bitOf v 42 }
  else { r with rate := fld v 0 13 }

/-- A write of a reservation entry, judged when it leaves the entry valid (R295). -/
def State.writeReservation (s : State) (i word : Nat) (v : Word) : State :=
  let r := (vget s.fabric.res i).written word v
  let f := { s.fabric with res := vset s.fabric.res i r }
  if r.valid && s.portUnits r.outPort < f.reserved r.outPort then { s with fabric := { s.fabric with resErr := true } }
  else { s with fabric := f }

end Sys2Proof.Machine
end

