-- ==== Sys2Proof/Machine/Flags.lean ====
section
/-! DEFINITION. Numeric status (04_number_formats.md R102 to R110) and the conditions of a job's step
(12_gradient_reduction.md R358). -/

namespace Sys2Proof.Machine

/-- The vote lane of a condition (R358). -/
def Status.lane : Status → Option Nat
  | .replayedOk => some 0 | .lateExcluded => some 1 | .poisonedContribution => some 2 | .nanTrap => some 3
  | .scaleRange => some 4 | .checkMismatch => some 5 | .internal => some 6
  | .done | .accepted | .badOpcode | .badParam | .noResource | .accessDenied | .staleGeneration | .epochFencePending
  | .sloeOnly => none

/-- A condition of the job's current step at an FT, with its detail (R358, R359). -/
def State.raiseAt (s : State) (slot : Nat) (st : Status) (ft detail : Nat) : State :=
  match st.lane with
  | none => s
  | some l =>
    s.modJob slot fun j => { j.note l ft with fails := j.fails ++ [{ ft := ft, status := st, detail := detail }] }

/-- A condition that arises now. -/
def State.raise (s : State) (slot : Nat) (st : Status) (detail : Nat) : State := s.raiseAt slot st s.ftNow detail

/-- Note that work of the packet was replayed: its reply and its step's lane (R162, R231, R252). -/
def State.noteReplay (s : State) (pid : Nat) : State :=
  match s.work pid with
  | none => s
  | some w =>
    let s1 := s.addOut pid .replayedOk 0
    match w.slot with
    | none => s1
    | some j => s1.raise j .replayedOk 0

/-- Note a failure of the packet: its reply and its step's lane (R358, R359). -/
def State.noteFail (s : State) (pid : Nat) (st : Status) (detail : Nat) : State :=
  match s.work pid with
  | none => s
  | some w =>
    let s1 := s.addOut pid st detail
    match w.slot with
    | none => s1
    | some j => s1.raise j st detail

/-- The order of R105 among events of one FT: core, array with the vector engine after array 3, output tile row,
output tile column, element index. -/
def NumRec.key (r : NumRec) : Nat :=
  ((((r.tile * 16 + r.core) * 5 + (if r.vector then 4 else r.array)) * 2 ^ 25 + r.row) * 2 ^ 25 + r.col) * 4096 + r.elem

/-- The record of an event at element (m, n) of a packet's result, on a core and array (R105, R110). -/
def evRecord (p : Packet) (ft core arr : Nat) (vector : Bool) (source m n : Nat) : NumRec :=
  { seq := p.seq, window := p.window, opcode := p.opcode, vector := vector, source := source, ft := ft
    tile := core / 16, core := core % 16, array := arr, row := m / 64, col := n / 64, elem := m % 64 * 64 + n % 64 }

/-- The record takes an event: it is empty, or the event has the same FT and comes first in the order of R105. Of several at one
element with one FT it keeps the one that the model evaluates first. [Log entry 129: DESIGN CHOICE] -/
def NumRec.takes (held : Bool) (old new : NumRec) : Bool := !held || (old.ft == new.ft && new.key < old.key)

/-- A NaN event of a packet's work: it marks the step, and the first fills the record (R105, R106). -/
def State.nanEvent (s : State) (slot pid : Nat) (r : NumRec) : State :=
  let n := (s.job slot).num
  let s1 := s.modJob slot fun j => j.note 3 r.ft
  if NumRec.takes n.nanTrap n.nanRec r then
    let s2 := match n.nanPid with
      | some q => s1.modWork q fun w => { w with outs := dropFirst (fun o => o.1 == .nanTrap) w.outs }
      | none => s1
    let s3 := if n.nanTrap then s2 else s1
    (s3.modJob slot fun j => { j with num := { j.num with nanTrap := true, nanRec := r, nanPid := some pid } }).addOut pid
      .nanTrap 0
  else s1

/-- A range event of a packet's work (R103, R108). -/
def State.rangeEvent (s : State) (slot pid : Nat) (trap : Bool) (r : NumRec) : State :=
  let n := (s.job slot).num
  let s1 := s.modJob slot fun j =>
    { j with num := { j.num with
        scaleRange := true, rangeCount := satInc 16 j.num.rangeCount
        rangeRec := if NumRec.takes n.scaleRange n.rangeRec r then r else j.num.rangeRec } }
  if trap then (s1.addOut pid .scaleRange 0).raiseAt slot .scaleRange r.ft 0 else s1

/-- A nonzero value that rounded to zero (R102). -/
def State.tinyEvent (s : State) (slot : Nat) : State :=
  s.modJob slot fun j => { j with num := { j.num with tiny := true } }

/-- Record one numeric event of a packet's work on a core. Output tile row r runs on array r mod 4 (R121). -/
def State.numEvent (s : State) (w : Work) (slot core : Nat) (trap : Bool) (e : NumEv) : State :=
  let arr := if e.vector then 0 else e.row / 64 % 4
  match e.kind with
  | .nan src => s.nanEvent slot w.pid (evRecord w.pkt s.ftNow core arr e.vector src e.row e.col)
  | .range src => s.rangeEvent slot w.pid trap (evRecord w.pkt s.ftNow core arr e.vector src e.row e.col)
  | .tiny => s.tinyEvent slot

/-- Record the numeric events of a packet's work, in any order: the records keep the first of R105. -/
def State.numEvents (s : State) (w : Work) (slot core : Nat) (trap : Bool) (es : List NumEv) : State :=
  es.foldl (fun s e => s.numEvent w slot core trap e) s

/-- JNS_STATUS as it reads (R108). -/
def NumSet.statusWord (n : NumSet) : Word :=
  wd (flag n.nanTrap 0 + flag n.scaleRange 1 + flag n.tiny 2 + at_ n.rangeCount 16 16)

/-- A write of 1 to JNS_STATUS bits: each clears its bit and re-arms its record (R108). -/
def NumSet.clear (n : NumSet) (v : Word) : NumSet :=
  let n1 := if bitOf v 0 then { n with nanTrap := false, nanPid := none } else n
  let n2 := if bitOf v 1 then { n1 with scaleRange := false, rangeCount := 0 } else n1
  if bitOf v 2 then { n2 with tiny := false } else n2

/-- The words of a numeric record (R110). -/
def NumRec.words (r : NumRec) : List Word :=
  [wd (at_ r.seq 32 0 + at_ r.window 6 32 + at_ r.opcode 8 38 + flag r.vector 46 + at_ r.source 3 48), wd r.ft,
   wd (at_ r.tile 5 0 + at_ r.core 4 5 + at_ r.array 2 9 + at_ r.row 25 16),
   wd (at_ r.elem 12 0 + at_ r.col 25 16)]

end Sys2Proof.Machine
end

