-- ==== Sys2Proof/Machine/Formats.lean ====
section
/-! DEFINITION. FP16, G16 and FP32 values, the conversions between them, and E8 block scales
(04_number_formats.md R84 to R101). -/

namespace Sys2Proof.Machine

/-! ## Formats: 0 FP16, 1 G16, 2 FP32 (R84, R92); 3 BYTE for tensors alone (R211) -/

/-- The width in bytes of a real element of a format. -/
def fmtBytes : Nat → Nat
  | 0 => 2 | 1 => 2 | 2 => 4 | _ => 1

/-- The width of the exponent field E. -/
def fmtE : Nat → Nat
  | 0 => 5 | _ => 8

/-- The fraction length f = p − 1. -/
def fmtF : Nat → Nat
  | 0 => 10 | 1 => 7 | _ => 23

/-- The exponent bias. -/
def fmtBias (f : Nat) : Nat := 2 ^ (fmtE f - 1) - 1

/-- emin, the exponent of subnormals (R86). -/
def fmtEmin (f : Nat) : Int := 1 - (fmtBias f : Int)

/-- emax (R86). -/
def fmtEmax (f : Nat) : Int := fmtBias f

/-- A decoded value: NaN, an infinity, or (−1)^neg × sig × 2^exp (R85). -/
inductive Val where
  | nan
  | inf (neg : Bool)
  | fin (neg : Bool) (sig : Nat) (exp : Int)
  deriving DecidableEq, Repr, Inhabited

/-- The sign bit of stored bits. -/
def signOf (f bits : Nat) : Bool := bits.testBit (fmtE f + fmtF f)

/-- The exponent field of stored bits. -/
def eField (f bits : Nat) : Nat := nfld bits (fmtF f) (fmtE f)

/-- The fraction field of stored bits. -/
def fField (f bits : Nat) : Nat := nfld bits 0 (fmtF f)

/-- Decode stored bits (R85). -/
def decodeVal (f bits : Nat) : Val :=
  let s := signOf f bits
  let e := eField f bits
  let fr := fField f bits
  if e = 2 ^ fmtE f - 1 then (if fr = 0 then .inf s else .nan)
  else if e = 0 then .fin s fr (fmtEmin f - fmtF f)
  else .fin s (fr + 2 ^ fmtF f) ((e : Int) - fmtBias f - fmtF f)

/-- The canonical NaN (R87). -/
def nanBits (f : Nat) : Nat := (2 ^ fmtE f - 1) * 2 ^ fmtF f + 2 ^ (fmtF f - 1)

/-- An infinity. -/
def infBits (f : Nat) (neg : Bool) : Nat := flag neg (fmtE f + fmtF f) + (2 ^ fmtE f - 1) * 2 ^ fmtF f

/-- A signed zero. -/
def zeroBits (f : Nat) (neg : Bool) : Nat := flag neg (fmtE f + fmtF f)

/-- floor(log2) of sig × 2^exp for a nonzero sig. -/
def floorLog (sig : Nat) (exp : Int) : Int := (Nat.log2 sig : Int) + exp

/-- The significand of sig × 2^exp in units of 2^q, rounded to nearest, ties to even (R101). -/
def rneUnits (sig : Nat) (exp q : Int) : Nat :=
  if q ≤ exp then sig <<< (exp - q).toNat
  else
    let d := (q - exp).toNat
    let n := sig >>> d
    let r := sig % 2 ^ d
    if 2 * r < 2 ^ d then n else if 2 ^ d < 2 * r then n + 1 else n + n % 2

/-- The exponent of the unit in the last place for a magnitude in a format (R101). -/
def unitExp (f : Nat) (sig : Nat) (exp : Int) : Int := max (floorLog sig exp) (fmtEmin f) - fmtF f

/-- Bits of n units of 2^q, where q is a unit of R101, or infinity beyond the format; true when it became infinite. -/
def packUnits (f : Nat) (neg : Bool) (n : Nat) (q : Int) : Nat × Bool :=
  let b := (q - (fmtEmin f - fmtF f)).toNat * 2 ^ fmtF f + n
  if (2 ^ fmtE f - 1) * 2 ^ fmtF f ≤ b then (infBits f neg, true) else (zeroBits f neg + b, false)

/-- A rounded result: its bits, whether a finite value became infinite, and whether a nonzero value became zero (R102). -/
structure Rounded where
  bits : Nat
  ovf : Bool := false
  tiny : Bool := false
  deriving DecidableEq, Repr, Inhabited

/-- Round an exact finite value to a format (R101). -/
def roundFin (f : Nat) (neg : Bool) (sig : Nat) (exp : Int) : Rounded :=
  if sig = 0 then { bits := zeroBits f neg }
  else
    let q := unitExp f sig exp
    let n := rneUnits sig exp q
    let p := packUnits f neg n q
    { bits := p.1, ovf := p.2, tiny := n = 0 }

/-- Round a value to a format (R101). -/
def roundVal (f : Nat) : Val → Rounded
  | .nan => { bits := nanBits f }
  | .inf s => { bits := infBits f s }
  | .fin s m e => roundFin f s m e

/-- Stored bits of one format converted to another (R101). -/
def convertBits (src dst bits : Nat) : Rounded := roundVal dst (decodeVal src bits)

/-- FP32 bits of a 16-bit element, exact (R101). -/
def toFp32 (f bits : Nat) : Nat := (convertBits f 2 bits).bits

/-- A value times 2^k. -/
def Val.scale : Val → Int → Val
  | .fin s m e, k => .fin s m (e + k)
  | v, _ => v

/-- A value with its sign turned. -/
def Val.negate : Val → Val
  | .nan => .nan
  | .inf s => .inf (!s)
  | .fin s m e => .fin (!s) m e

/-- The value is NaN. -/
def Val.isNan : Val → Bool
  | .nan => true
  | _ => false

/-- The value is an infinity. -/
def Val.isInf : Val → Bool
  | .inf _ => true
  | _ => false

/-- The value is zero. -/
def Val.isZero : Val → Bool
  | .fin _ m _ => m = 0
  | _ => false

/-- The sign. -/
def Val.sign : Val → Bool
  | .nan => false
  | .inf s => s
  | .fin s _ _ => s

/-- An exact product of values (R91): 0 × ∞ makes a NaN. -/
def Val.mul : Val → Val → Val
  | .nan, _ => .nan
  | _, .nan => .nan
  | .inf s, .inf t => .inf (xor s t)
  | .inf s, .fin t m _ => if m = 0 then .nan else .inf (xor s t)
  | .fin s m _, .inf t => if m = 0 then .nan else .inf (xor s t)
  | .fin s m e, .fin t n d => .fin (xor s t) (m * n) (e + d)

/-- The signed integer of a finite value in units of 2^q, for q at or below its exponent. -/
def unitsOf (neg : Bool) (m : Nat) (e q : Int) : Int :=
  let n := m <<< (e - q).toNat
  if neg then -(n : Int) else n

/-- An exact sum of values: +∞ + −∞ makes a NaN; an exact zero sum of opposite signs is +0 (R89). -/
def Val.add : Val → Val → Val
  | .nan, _ => .nan
  | _, .nan => .nan
  | .inf s, .inf t => if s = t then .inf s else .nan
  | .inf s, .fin _ _ _ => .inf s
  | .fin _ _ _, .inf t => .inf t
  | .fin s m e, .fin t n d =>
    let q := min e d
    let v := unitsOf s m e q + unitsOf t n d q
    if v = 0 then .fin (s && t) 0 q else .fin (v < 0) v.natAbs q

/-- Compare two values that are not NaN: −1, 0 or 1; −0 equals +0. -/
def Val.cmp (a b : Val) : Int :=
  match a, b with
  | .inf s, .inf t => if s = t then 0 else if s then -1 else 1
  | .inf s, _ => if s then -1 else 1
  | _, .inf t => if t then 1 else -1
  | .fin s m e, .fin t n d =>
    let q := min e d
    let v := unitsOf s m e q - unitsOf t n d q
    if v < 0 then -1 else if v = 0 then 0 else 1
  | _, _ => 0

/-! ## Operand and output format fields (R92, R99) -/

def ffFormat (f : Nat) : Nat := nfld f 0 2
def ffDir (f : Nat) : Nat := nfld f 2 3
def ffBlockCode (f : Nat) : Nat := nfld f 5 3
def ffTileNkCode (f : Nat) : Nat := nfld f 8 2
def ffTileKCode (f : Nat) : Nat := nfld f 10 2
def ffDerive (f : Nat) : Bool := f.testBit 12
def ffRangeTrap (f : Nat) : Bool := f.testBit 13
/-- The block length b. -/
def ffBlock (f : Nat) : Nat := 8 * 2 ^ ffBlockCode f
def ffTileNk (f : Nat) : Nat := 8 * 2 ^ ffTileNkCode f
def ffTileK (f : Nat) : Nat := 8 * 2 ^ ffTileKCode f

/-- ceil(a / b). -/
def ceilDiv (a b : Nat) : Nat := (a + b - 1) / b

/-- An operand format field without reserved codes or bits (R92). -/
def operandFieldOk (f : Nat) : Bool :=
  let d := ffDir f
  ffFormat f ≠ 3 && d ≤ 4 && (f / 4096 % 16 = 0)
    && (if d = 1 || d = 2 || d = 4 then ffBlockCode f ≤ 5 else ffBlockCode f = 0)
    && (if d = 3 then ffTileNkCode f ≤ 2 && ffTileKCode f ≤ 2 else ffTileNkCode f = 0 && ffTileKCode f = 0)

/-- An output format field without reserved codes or bits (R99). -/
def outputFieldOk (f : Nat) : Bool :=
  let d := ffDir f
  ffFormat f ≠ 3 && d ≤ 3 && (f / 16384 % 4 = 0)
    && (if d = 1 || d = 2 then ffBlockCode f ≤ 5 else ffBlockCode f = 0)
    && (if d = 3 then ffTileNkCode f ≤ 2 && ffTileKCode f ≤ 2 else ffTileNkCode f = 0 && ffTileKCode f = 0)

/-- The scale grid G_nk × G_k of an operand of `nk` × `k` elements (R94). -/
def operandGrid (f nk k : Nat) : Nat × Nat :=
  match ffDir f with
  | 1 => (nk, ceilDiv k (ffBlock f))
  | 2 => (ceilDiv nk (ffBlock f), k)
  | 3 => (ceilDiv nk (ffTileNk f), ceilDiv k (ffTileK f))
  | 4 => (ceilDiv nk (ffBlock f), 1)
  | _ => (0, 0)

/-- The grid byte of element (x, k) of an operand (R94). -/
def operandCell (f nk kext x k : Nat) : Nat :=
  let g := operandGrid f nk kext
  match ffDir f with
  | 1 => x * g.2 + k / ffBlock f
  | 2 => x / ffBlock f * g.2 + k
  | 3 => x / ffTileNk f * g.2 + k / ffTileK f
  | 4 => x / ffBlock f * g.2
  | _ => 0

/-- The scale grid G_m × G_n of a result of `m` × `n` elements (R99). -/
def outputGrid (f m n : Nat) : Nat × Nat :=
  match ffDir f with
  | 1 => (m, ceilDiv n (ffBlock f))
  | 2 => (ceilDiv m (ffBlock f), n)
  | 3 => (ceilDiv m (ffTileNk f), ceilDiv n (ffTileK f))
  | _ => (0, 0)

/-- The grid byte of element (i, j) of a result (R99). -/
def outputCell (f m n i j : Nat) : Nat :=
  let g := outputGrid f m n
  match ffDir f with
  | 1 => i * g.2 + j / ffBlock f
  | 2 => i / ffBlock f * g.2 + j
  | 3 => i / ffTileNk f * g.2 + j / ffTileK f
  | _ => 0

/-- The scale code that DERIVE chooses for a block of values (R100). -/
def deriveScale (fmt : Nat) (vs : List Val) : Nat :=
  let es := vs.filterMap fun v => match v with
    | .fin _ m e => if m = 0 then none else some (floorLog m e)
    | _ => none
  match es with
  | [] => 0x7F
  | e :: t => (min (max (t.foldl max e + 128 - fmtEmax fmt) 0) 254).toNat

/-- The value written under an output scale code (R99); a code of 0xFF makes it NaN. -/
def applyOutScale (code : Nat) (v : Val) : Val := if code = 255 then .nan else v.scale (127 - (code : Int))

end Sys2Proof.Machine
end

