-- ==== Sys2Proof/Machine/Operands.lean ====
section
/-! DEFINITION. Tensors by handle, result addresses, product, kernel and program descriptors, and their checks
(03_commands.md R70, 04 R112, 05 R127 to R141, 06 R168, 07 R170 to R192, 08 R210, R211). -/

namespace Sys2Proof.Machine

/-! ## Tensors (R210, R211) -/

/-- A handle's number and slot (R210). -/
def handleNum (h : Word) : Nat := fld h 0 32
def handleSlot (h : Word) : Nat := fld h 32 2

/-- The tensor a handle of a job names: not freed (R79, R210). -/
def State.tensor (s : State) (slot : Nat) (h : Word) : Option Tensor :=
  if handleNum h = 0 || fld h 34 30 ≠ 0 || handleSlot h ≠ slot then none
  else s.tensors.find? fun t => t.num == handleNum h && t.slot == slot && !t.freed

/-- The tensor a dispatched packet names: kept although freed since (R79). -/
def State.tensorKept (s : State) (slot : Nat) (h : Word) : Option Tensor :=
  if handleNum h = 0 || fld h 34 30 ≠ 0 || handleSlot h ≠ slot then none
  else s.tensors.find? fun t => t.num == handleNum h && t.slot == slot

/-- A handle is 0 or names a tensor. -/
def State.handleOk (s : State) (slot : Nat) (h : Word) : Bool := h = 0 || (s.tensor slot h).isSome

/-- The handle of a tensor. -/
def Tensor.handle (t : Tensor) : Word := wd (at_ t.num 32 0 + at_ t.slot 2 32)

/-- The element size in bytes, doubled for complex elements (R211). -/
def Tensor.elemBytes (t : Tensor) : Nat := fmtBytes t.fmt * (if t.cplx then 2 else 1)

/-- The number of logical pages a tensor occupies (R212). -/
def Tensor.pages (t : Tensor) : Nat := ceilDiv t.bytes 65536

/-- The tile-local offset of a tensor's first byte on this module. -/
def Tensor.off (t : Tensor) : Nat := t.page * 65536

/-- The base address (R203, R246). -/
def Tensor.base (t : Tensor) : Word :=
  match t.spill with
  | some a => a
  | none => mkAddr 0 0 t.tile t.off

/-- The start of a tensor as one number, to compare ranges: a spilled tensor's global address, or tile and offset. -/
def Tensor.lo (t : Tensor) : Nat := t.base.toNat

/-- Two byte ranges overlap. -/
def overlaps (a n b m : Nat) : Bool := a < b + m && b < a + n

/-! ## Address parameters of packets (R67, R198, R241) -/

/-- The first detail that rejects a global address of `n` bytes as a memory address (R241). -/
def State.addrDetail (s : State) (a : Word) (n : Nat) : Option Nat :=
  match s.addrKind a with
  | .bad => some 0x0140
  | .reg _ _ => some 0x0140
  | .remote _ _ _ => none
  | .here t o => if s.rangeBacked t o n then none else some 0x0141

/-- The first detail that rejects a result address: none for a host physical address (R67). -/
def State.resultDetail (s : State) (p : Packet) (a : Word) (n : Nat) : Option Nat :=
  if p.resHost then none else s.addrDetail a n

/-- The least of the details that apply. -/
def minDetail (ds : List (Option Nat)) : Option Nat :=
  (ds.filterMap id).foldl (fun a d => match a with | none => some d | some b => some (min b d)) none

/-- A detail that applies on a condition. -/
def failIf (c : Bool) (d : Nat) : Option Nat := if c then some d else none

/-! ## The product descriptor (R132, R133) -/

/-- A product descriptor with the opcode that carries it. -/
structure Prod where
  op    : Nat
  a     : Word
  b     : Word
  c     : Word
  sa    : Word
  sb    : Word
  sc    : Word
  m     : Nat
  n     : Nat
  k     : Nat
  kcode : Nat
  fa    : Nat
  fb    : Nat
  fc    : Nat
  mode  : Nat
  mask  : Word
  deriving DecidableEq, Repr, Inhabited

/-- The descriptor of a product packet. -/
def Packet.prod (p : Packet) : Prod :=
  { op := p.opcode, a := p.pay 0, b := p.pay 1, c := p.pay 2, sa := p.pay 3, sb := p.pay 4, sc := p.pay 5
    m := fld (p.pay 6) 0 32, n := fld (p.pay 6) 32 32, k := fld (p.pay 7) 0 32, kcode := fld (p.pay 7) 32 3
    fa := fld (p.pay 8) 0 16, fb := fld (p.pay 8) 16 16, fc := fld (p.pay 8) 32 16, mode := fld (p.pay 8) 48 16
    mask := if p.opcode = 0x32 then p.par 1 else 0 }

def Prod.quince (d : Prod) : Bool := d.mode.testBit 0
def Prod.verify (d : Prod) : Bool := d.mode.testBit 1
def Prod.fast (d : Prod) : Bool := d.mode.testBit 2
def Prod.cplx (d : Prod) : Bool := d.mode.testBit 3
def Prod.gauss (d : Prod) : Bool := d.mode.testBit 4
def Prod.transA (d : Prod) : Bool := d.mode.testBit 5
def Prod.transB (d : Prod) : Bool := d.mode.testBit 6
def Prod.accC (d : Prod) : Bool := d.mode.testBit 7
def Prod.limitK (d : Prod) : Bool := d.mode.testBit 8

/-- The operand A is stored with its K index before its M index (R134, R171). -/
def Prod.storedKA (d : Prod) : Bool := xor d.transA (d.op == 0x32)
/-- The operand B is stored with its N index before its K index (R134, R171). -/
def Prod.storedNB (d : Prod) : Bool := xor d.transB (d.op == 0x31)

/-- The place of element (m, k) of A in its tensor. -/
def Prod.idxA (d : Prod) (m k : Nat) : Nat := if d.storedKA then k * d.m + m else m * d.k + k
/-- The place of element (k, n) of B in its tensor. -/
def Prod.idxB (d : Prod) (k n : Nat) : Nat := if d.storedNB then n * d.k + k else k * d.n + n

/-- dY stands in the role of an operand in the backward products and takes the output coding (R172). -/
def Prod.aIsGrad (d : Prod) : Bool := d.op == 0x31
def Prod.bIsGrad (d : Prod) : Bool := d.op == 0x32

/-- The scale-grid byte of element (m, k) of A (R94, R172). -/
def Prod.cellA (d : Prod) (m k : Nat) : Nat :=
  if d.aIsGrad then outputCell d.fa d.m d.k m k
  else if d.op = 0x32 then operandCell d.fa d.k d.m k m
  else operandCell d.fa d.m d.k m k

/-- The scale-grid byte of element (k, n) of B (R94, R172). -/
def Prod.cellB (d : Prod) (k n : Nat) : Nat :=
  if d.bIsGrad then outputCell d.fb d.k d.n k n
  else if d.op = 0x31 then operandCell d.fb d.k d.n k n
  else operandCell d.fb d.n d.k n k

/-- The scale grids of A, B and C. -/
def Prod.gridA (d : Prod) : Nat × Nat :=
  if d.aIsGrad then outputGrid d.fa d.m d.k else if d.op = 0x32 then operandGrid d.fa d.k d.m else operandGrid d.fa d.m d.k
def Prod.gridB (d : Prod) : Nat × Nat :=
  if d.bIsGrad then outputGrid d.fb d.k d.n else if d.op = 0x31 then operandGrid d.fb d.k d.n else operandGrid d.fb d.n d.k
def Prod.gridC (d : Prod) : Nat × Nat := outputGrid d.fc d.m d.n

/-- The chunks of K (R136). -/
def Prod.chunks (d : Prod) : Nat := ceilDiv d.k 64

/-- The chunks of part `j` of `parts`: first and one past the last (R136). -/
def Prod.partRange (d : Prod) (parts j : Nat) : Nat × Nat := (j * d.chunks / parts, (j + 1) * d.chunks / parts)

/-- The longest part in chunks. -/
def Prod.longestPart (d : Prod) (parts : Nat) : Nat :=
  ((List.range parts).map fun j => (d.partRange parts j).2 - (d.partRange parts j).1).foldl max 0

/-- The least power of two from `p` for which no part exceeds 1,024 chunks (R136). -/
def Prod.splitParts (d : Prod) : Nat → Nat → Nat
  | 0, p => p
  | f + 1, p => if d.longestPart p ≤ 1024 then p else d.splitParts f (2 * p)

/-- The effective number of parts. In Quince mode the placer chooses; the model takes one part (R136, log entry 9).
[Log entry 9: DESIGN CHOICE] -/
def Prod.parts (d : Prod) : Nat :=
  if d.quince then 1 else if d.limitK then 2 ^ d.kcode else d.splitParts 32 (2 ^ d.kcode)

def Prod.rowGroups (d : Prod) : Nat := ceilDiv d.m 256
def Prod.tileCols (d : Prod) : Nat := ceilDiv d.n 64

/-- The number of items (R138). -/
def Prod.itemCount (d : Prod) : Nat := d.parts * d.rowGroups * d.tileCols

/-- The number of FP32 passes q_f (R147). -/
def Prod.qf (d : Prod) : Nat := if ffFormat d.fa = 2 then (if d.fast then 3 else 4) else 1

/-- A pairing the arrays accept (R83). -/
def pairingOk (fa fb : Nat) (quince : Bool) : Bool :=
  if quince then fa = 0 && fb = 0 else (fa < 2 && fb < 2) || (fa = 2 && fb = 2)

/-- A dY format field: the output coding with bits [15:12] 0 (R172). -/
def gradFieldOk (f : Nat) : Bool := outputFieldOk f && f / 4096 = 0

/-- The bytes of a matrix of `n` elements. -/
def matBytes (fmt n : Nat) (cplx : Bool) : Nat := n * fmtBytes fmt * (if cplx then 2 else 1)

/-- A scale tensor fits its grid and stands only where a grid is (R95). -/
def State.scaleOk (s : State) (slot dir : Nat) (h : Word) (g : Nat × Nat) : Bool :=
  if dir = 0 then h = 0
  else match s.tensor slot h with
    | none => false
    | some t => g.1 * g.2 ≤ t.bytes

/-- A tensor holds `n` bytes. -/
def State.holds (s : State) (slot : Nat) (h : Word) (n : Nat) : Bool :=
  match s.tensor slot h with
  | none => false
  | some t => n ≤ t.bytes

/-- Two handles' tensors overlap in memory over the given lengths. -/
def State.handlesOverlap (s : State) (slot : Nat) (h g : Word) (n m : Nat) : Bool :=
  match s.tensor slot h, s.tensor slot g with
  | some t, some u => overlaps t.lo n u.lo m
  | _, _ => false

/-- The mask bits a mask tensor must hold (R176). -/
def Prod.maskBits (d : Prod) (grain : Nat) : Nat := if grain = 0 then d.m else ceilDiv d.m 64 * d.tileCols

/-- The BAD_PARAM detail of a product packet, the lowest that applies (R112, R141, R168, R192); `hdr` is the mask's header,
0 when there is none. -/
def State.prodDetail (s : State) (slot : Nat) (p : Packet) (hdr : Word) : Option Nat :=
  let d := p.prod
  let bwd := d.op ≠ 0x30
  let fA := if d.aIsGrad then gradFieldOk d.fa else operandFieldOk d.fa
  let fB := if d.bIsGrad then gradFieldOk d.fb else operandFieldOk d.fb
  let dims := d.m = 0 || d.n = 0 || d.k = 0 || 2 ^ 31 ≤ d.m || 2 ^ 31 ≤ d.n || 2 ^ 31 ≤ d.k
  let nA := matBytes (ffFormat d.fa) (d.m * d.k) d.cplx
  let nB := matBytes (ffFormat d.fb) (d.k * d.n) d.cplx
  let nC := matBytes (ffFormat d.fc) (d.m * d.n) d.cplx
  let gA := d.gridA.1 * d.gridA.2
  let gB := d.gridB.1 * d.gridB.2
  let gC := d.gridC.1 * d.gridC.2
  let wr := ffDir d.fc ≠ 0 && ffDerive d.fc
  let ov (h : Word) (n : Nat) : Bool :=
    s.handlesOverlap slot h d.a n nA || s.handlesOverlap slot h d.b n nB
      || s.handlesOverlap slot h d.sa n gA || s.handlesOverlap slot h d.sb n gB
  minDetail
    [failIf (!((s.tensor slot d.a).isSome && (s.tensor slot d.b).isSome && (s.tensor slot d.c).isSome
        && s.handleOk slot d.sa && s.handleOk slot d.sb && s.handleOk slot d.sc && s.handleOk slot d.mask)) 0x0005,
     failIf (!(fA && fB && outputFieldOk d.fc)) 0x0100,
     failIf (!(pairingOk (ffFormat d.fa) (ffFormat d.fb) d.quince)) 0x0101,
     failIf ((ffFormat d.fa = 2 && ffDir d.fa ≠ 0) || (ffFormat d.fb = 2 && ffDir d.fb ≠ 0)
        || (ffFormat d.fc = 2 && ffDir d.fc ≠ 0)) 0x0102,
     failIf (d.quince && (ffFormat d.fa ≠ 0 || ffFormat d.fb ≠ 0 || (1 ≤ ffDir d.fa && ffDir d.fa ≤ 3)
        || (1 ≤ ffDir d.fb && ffDir d.fb ≤ 3))) 0x0103,
     failIf (!(s.scaleOk slot (ffDir d.fa) d.sa d.gridA && s.scaleOk slot (ffDir d.fb) d.sb d.gridB
        && s.scaleOk slot (ffDir d.fc) d.sc d.gridC)) 0x0104,
     failIf dims 0x0110,
     failIf (!dims && !(s.holds slot d.a nA && s.holds slot d.b nB && s.holds slot d.c nC)) 0x0111,
     failIf (d.verify && !d.quince) 0x0112,
     failIf (d.fast && !(ffFormat d.fa = 2 && ffFormat d.fb = 2)) 0x0113,
     failIf (d.gauss && (!d.cplx || d.quince)) 0x0114,
     failIf (d.accC && d.quince) 0x0115,
     failIf (!d.quince && (d.kcode = 7 || (!dims && d.chunks < 2 ^ d.kcode))) 0x0116,
     failIf (ov d.c nC || (wr && ov d.sc gC)) 0x0117,
     failIf ((List.range 7).any (fun i => p.pay (9 + i) ≠ 0) || d.mode / 512 ≠ 0 || fld (p.pay 7) 35 29 ≠ 0) 0x011B,
     failIf (!d.quince && d.limitK && d.kcode ≠ 7 && !dims && 1024 < d.longestPart (2 ^ d.kcode)) 0x0120,
     failIf (bwd && d.quince && (ffDir d.fa = 4 || ffDir d.fb = 4)) 0x0130,
     failIf (d.mask ≠ 0 && (2 ≤ fld hdr 0 2 || fld hdr 3 61 ≠ 0
        || !s.holds slot d.mask (8 + ceilDiv (d.maskBits (fld hdr 0 2)) 8))) 0x0131,
     failIf (d.mask ≠ 0 && !bitOf hdr 2 && ffDir d.fc ≠ 0) 0x0132]

/-! ## Vector programs (R127, R128) -/

/-- An argument record: a tensor, its row stride and format (R127), and the element where its rows start, which only an
optimizer's binding moves from 0 (R353). -/
structure VArg where
  handle : Word
  stride : Nat
  fmt    : Nat
  base   : Nat := 0
  deriving DecidableEq, Repr, Inhabited

/-- The argument of number `i` of a VECTOR_PROGRAM packet. -/
def Packet.varg (p : Packet) (i : Nat) : VArg :=
  { handle := p.pay (2 * i), stride := fld (p.pay (2 * i + 1)) 0 32, fmt := fld (p.pay (2 * i + 1)) 32 2 }

/-- An instruction of a program (R128). -/
structure VIns where
  op  : Nat
  d   : Nat
  a   : Nat
  b   : Nat
  cc  : Nat
  imm : Nat
  deriving DecidableEq, Repr, Inhabited

/-- An instruction from its two words. -/
def vins (w0 w1 : Word) : VIns :=
  { op := fld w0 0 8, d := fld w0 8 12, a := fld w0 20 12, b := fld w0 32 12, cc := fld w0 44 12, imm := fld w1 0 32 }

/-- The instructions of a program's words. -/
def vprogram : List Word → List VIns
  | w0 :: w1 :: t => vins w0 w1 :: vprogram t
  | _ => []

/-- The number of sources an operation uses, none for an unknown one (R129). -/
def vopArity : Nat → Option Nat
  | 0x01 => some 2 | 0x02 => some 2 | 0x03 => some 2 | 0x04 => some 3 | 0x05 => some 2 | 0x06 => some 2 | 0x07 => some 1
  | 0x08 => some 1 | 0x09 => some 1 | 0x0A => some 1 | 0x0B => some 1 | 0x0C => some 1 | 0x0D => some 1 | 0x0E => some 2
  | 0x0F => some 3 | 0x10 => some 1 | 0x20 => some 1 | 0x21 => some 1 | 0x22 => some 1 | _ => none

/-- A row reduction (R129). -/
def isRowOp (op : Nat) : Bool := 0x20 ≤ op && op ≤ 0x22

/-- An operand number that names an argument or a temporary (R128). -/
def isArgNo (p1 x : Nat) : Bool := 1 ≤ x && x < p1
def isTempNo (x : Nat) : Bool := 0x800 ≤ x && x ≤ 0x80F
def srcOk (p1 x : Nat) : Bool := isArgNo p1 x || isTempNo x || x == 0xFFF

/-- An instruction without fault among its operands and reserved bits (R128, detail 0x0118). -/
def vinsOk (p1 : Nat) (w0 w1 : Word) : Bool :=
  let i := vins w0 w1
  match vopArity i.op with
  | none => false
  | some n =>
    fld w0 56 8 = 0 && fld w1 32 32 = 0 && (isArgNo p1 i.d || isTempNo i.d || (isRowOp i.op && i.d ≠ 0 && isTempNo i.d))
      && (if 1 ≤ n then srcOk p1 i.a else i.a = 0) && (if 2 ≤ n then srcOk p1 i.b else i.b = 0)
      && (if 3 ≤ n then srcOk p1 i.cc else i.cc = 0)

/-- Every instruction of a program's words is without fault. -/
def vprogramOk (p1 : Nat) : List Word → Bool
  | w0 :: w1 :: t => vinsOk p1 w0 w1 && vprogramOk p1 t
  | _ => true

/-- Every reduction's destination is an argument that no other instruction reads (R131). -/
def vreduceOk (p1 : Nat) (is : List VIns) : Bool :=
  (is.mapIdx fun i v => (i, v)).all fun (i, v) =>
    !isRowOp v.op || (isArgNo p1 v.d && (is.mapIdx fun j u => (j, u)).all fun (j, u) =>
      i = j || (u.a ≠ v.d && u.b ≠ v.d && u.cc ≠ v.d))

/-- The elements an argument needs: the index space, or one column where only reductions write it. -/
def argExtent (a : VArg) (r c : Nat) : Nat := (r - 1) * a.stride + c

/-- The columns an argument must hold: 1 where reductions alone use it, which write it at (r, 0), otherwise the index space's
(R129, R141). [Log entry 128: DEDUCED] -/
def argCols (is : List VIns) (i c : Nat) : Nat :=
  if is.any (fun v => isRowOp v.op && v.d == i)
    && !is.any (fun v => (!isRowOp v.op && v.d == i) || v.a == i || v.b == i || v.cc == i) then 1 else c

/-- The BAD_PARAM detail of a VECTOR_PROGRAM packet, given its program's words (R127, R141). Without any argument record there is no
index space to judge. [Log entry 128: DEDUCED] -/
def State.vprogDetail (s : State) (slot : Nat) (p : Packet) (prog : List Word) : Option Nat :=
  let p1 := (p.par 1).toNat
  let r := fld (p.pay 0) 0 32
  let c := fld (p.pay 0) 32 32
  let args := (List.range (min p1 1021)).drop 1
  let is := vprogram prog
  minDetail
    [failIf (args.any (fun i => (s.tensor slot (p.varg i).handle).isNone) || (s.tensor slot (p.par 0)).isNone) 0x0005,
     failIf (p1 ≠ 0 && (r = 0 || 2 ^ 31 ≤ r || c = 0 || 2 ^ 24 < c)) 0x0110,
     failIf (args.any fun i =>
        let a := p.varg i
        !s.holds slot a.handle (argExtent a r (argCols is i c) * fmtBytes a.fmt)) 0x0111,
     failIf (p1 < 2 || 1020 < p1 || prog.length % 2 ≠ 0 || prog.length < 2 || 2048 < prog.length || !vprogramOk p1 prog) 0x0118,
     failIf (!vreduceOk p1 is) 0x0119,
     failIf (p.pay 1 ≠ 0 || args.any (fun i => (p.varg i).fmt = 3 || fld (p.pay (2 * i + 1)) 34 30 ≠ 0)) 0x011A]

/-! ## Fused kernels (R180, R183) -/

/-- A fused kernel's descriptor: its tensors in the order of the payload, and its fields. -/
structure Kern where
  norm  : Bool
  dy    : Word
  x     : Word
  stats : Word := 0
  gamma : Word := 0
  dx    : Word
  dgam  : Word := 0
  dbet  : Word := 0
  rows  : Nat
  cols  : Nat
  rms   : Bool := false
  accP  : Bool := false
  fdy   : Nat
  fx    : Nat
  fdx   : Nat
  tau   : Nat := 0
  deriving DecidableEq, Repr, Inhabited

/-- The descriptor of FUSED_NORM_BWD or FUSED_SOFTMAX_BWD. -/
def Packet.kern (p : Packet) : Kern :=
  if p.opcode = 0x33 then
    let w := p.pay 7
    { norm := true, dy := p.pay 0, x := p.pay 1, stats := p.pay 2, gamma := p.pay 3, dx := p.pay 4, dgam := p.pay 5
      dbet := p.pay 6, rows := fld w 0 31, cols := fld w 32 19, rms := bitOf w 51, accP := bitOf w 52, fdy := fld w 53 2
      fx := fld w 55 2, fdx := fld w 57 2 }
  else
    let w := p.pay 3
    { norm := false, dy := p.pay 0, x := p.pay 1, dx := p.pay 2, rows := fld w 0 31, cols := fld w 32 19
      fdy := fld w 51 2, fx := fld w 53 2, fdx := fld w 55 2, tau := fld (p.pay 4) 0 32 }

/-- The tensors of a kernel with the bytes each must hold: inputs, then outputs. -/
def Kern.inputs (k : Kern) : List (Word × Nat) :=
  let n := k.rows * k.cols
  if k.norm then [(k.dy, n * fmtBytes k.fdy), (k.x, n * fmtBytes k.fx), (k.stats, 8 * k.rows), (k.gamma, 4 * k.cols)]
  else [(k.dy, n * fmtBytes k.fdy), (k.x, n * fmtBytes k.fx)]
def Kern.outputs (k : Kern) : List (Word × Nat) :=
  [(k.dx, k.rows * k.cols * fmtBytes k.fdx)] ++ (if k.dgam = 0 then [] else [(k.dgam, 4 * k.cols)])
    ++ (if k.dbet = 0 then [] else [(k.dbet, 4 * k.cols)])

/-- Some pair of a list meets `p`. -/
def anyPair {α : Type} (p : α → α → Bool) : List α → Bool
  | [] => false
  | a :: t => t.any (p a) || anyPair p t

/-- The BAD_PARAM detail of a fused kernel (R192). -/
def State.kernDetail (s : State) (slot : Nat) (p : Packet) : Option Nat :=
  let k := p.kern
  let ov (x y : Word × Nat) : Bool := s.handlesOverlap slot x.1 y.1 x.2 y.2
  let res := if k.norm then bitOf (p.pay 7) 31 || fld (p.pay 7) 59 5 ≠ 0
    else bitOf (p.pay 3) 31 || fld (p.pay 3) 57 7 ≠ 0 || fld (p.pay 4) 32 32 ≠ 0 || p.pay 5 ≠ 0 || p.pay 6 ≠ 0 || p.pay 7 ≠ 0
  minDetail
    [failIf ((k.inputs ++ k.outputs).any fun h => (s.tensor slot h.1).isNone) 0x0005,
     failIf (k.rows = 0 || k.cols = 0 || 262144 < k.cols || k.fdy = 3 || k.fx = 3 || k.fdx = 3 || res) 0x0133,
     failIf ((k.inputs ++ k.outputs).any fun h => !s.holds slot h.1 h.2) 0x0134,
     failIf (k.outputs.any (fun o => k.inputs.any (ov o)) || anyPair ov k.outputs) 0x0135,
     failIf (!k.norm && eField 2 k.tau = 255) 0x0136]

end Sys2Proof.Machine
end

