-- ==== Sys2Proof/Machine/Staging.lean ====
section
/-! DEFINITION. Reading operands for work on a core: home and staged copies, spilled tensors, consumed poison and its
replays (08_memory.md R229 to R231, R538; 09_placement.md R246 to R248). -/

namespace Sys2Proof.Machine

/-- A poisoned word that work read: the home word's tile and offset; the tile, and core where it is core memory, that held the word as
it was read when that was no home word; and the address of a word of a spilled tensor, which has no home word here. -/
structure BadWord where
  tile   : Nat
  off    : Nat
  staged : Option (Nat × Option Nat) := none
  away   : Option Word := none
  deriving DecidableEq, Repr, Inhabited

/-- A reader of operands: the state so far, the core that reads, who it reads for, and the poisoned words met.
[Log entries 17: DESIGN CHOICE; 48: DEDUCED] -/
structure Rdr where
  st   : State
  core : Nat
  x    : OpCtx
  bad  : List BadWord := []
  /-- The words of this piece of work that a check corrected: a piece of work reads a word once (log entry 17). -/
  seen : List (Nat × Nat) := []
  /-- The first word whose access the tile denied or could not perform (R209). -/
  fail : Option (OpRes × Nat × Nat) := none
  /-- The home pages read, by tile and logical page. -/
  pages : List (Nat × Nat) := []

/-- The codeword a staged copy holds for a word of a home page, where it differs from the home page (R247). -/
def State.stagedFlaw (s : State) (core t off : Nat) : Option (Staged × Codeword) :=
  match homePage off with
  | none => none
  | some l =>
    match s.staged.find? fun c => c.homeTile == t && c.page == l && c.tile == core / 16
        && (c.core == none || c.core == some core) with
    | none => none
    | some c => (kvGet c.flaws (off % 65536 / 8)).map fun w => (c, w)

/-- The record of a staged word's error: the staging memory and where it is (R237). -/
def stagedRec (kind : Nat) (c : Staged) (addr : Word) (cw : Codeword) (bits : List Nat) : LogRec :=
  { kind := kind, memory := if c.core.isSome then 2 else 1, tile := c.tile, core := c.core.getD 0 % 16, addr := addr
    synd := eccSyndrome cw, bit0 := lget bits 0 0x7F, bit1 := lget bits 1 0x7F }

/-- The history of a staged word's error: against the core for core memory (R238). -/
def State.stagedHistory (s : State) (c : Staged) (w bit mech : Nat) (x : OpCtx) : State :=
  match c.core with
  | none => s
  | some g => s.recordEvent (.core g) mech x.slot (at_ w 21 4 + at_ bit 7 25) x.seq

/-- Read one word whose access is allowed: from a staged copy where one differs, otherwise from home. -/
def Rdr.allowedWord (r : Rdr) (t off : Nat) : (Word × Bool) × Rdr :=
  let k := (t, off / 8 * 8)
  let again := r.seen.contains k
  let mark (st : State) (p : Bool) (held : Option Staged) (fixed : Bool) : Rdr :=
    let b : BadWord := { tile := t, off := k.2, staged := held.map fun c => (c.tile, c.core) }
    { r with st := st, bad := if p && !r.bad.contains b then b :: r.bad else r.bad
             seen := if fixed && !again then k :: r.seen else r.seen }
  match r.st.stagedFlaw r.core t off with
  | none =>
    let ((d, p), fixed, s1) := r.st.checkedWord t off r.x
    ((d, p), mark (if fixed && again then r.st else s1) p none fixed)
  | some (c, cw) =>
    let w := off % 65536 / 8
    match eccCheck cw with
    | .clean => ((cwData cw, cwPoison cw), mark r.st (cwPoison cw) (some c) false)
    | .corrected bs =>
      let cw' := flipBits cw bs
      let s1 := { r.st with memErr := { r.st.memErr with ce := satInc 32 r.st.memErr.ce } }
      let s2 := if s1.memErr.logCe then
          (s1.log ((stagedRec 0 c (r.st.wordAddr t off) cw bs).by_ r.x)).stagedHistory c w (lget bs 0 0x7F) 0 r.x else s1
      ((cwData cw', cwPoison cw'), mark (if again then r.st else s2) (cwPoison cw') (some c) true)
    | .uncorrectable =>
      let s1 := { r.st with
        memErr := { r.st.memErr with ue := satInc 32 r.st.memErr.ue }
        staged := updFirst (fun x => x == c)
          (fun x => { x with flaws := kvPut x.flaws w (some (encodeWord (cwData cw) true)) }) r.st.staged }
      let s2 := (s1.log ((stagedRec 1 c (r.st.wordAddr t off) cw []).by_ r.x)).stagedHistory c w 0x7F 1 r.x
      ((cwData cw, true), mark s2 true (some c) false)

/-- Note the home page of a word. -/
def Rdr.notePage (r : Rdr) (t off : Nat) : Rdr :=
  match homePage off with
  | none => r
  | some l => if r.pages.contains (t, l) then r else { r with pages := (t, l) :: r.pages }

/-- The home pages read of which no home word was poisoned (R247). -/
def Rdr.intactPages (r : Rdr) : List (Nat × Nat) :=
  r.pages.filter fun p => !r.bad.any fun b => b.staged.isNone && b.tile == p.1 && homePage b.off == some p.2

/-- Read one word for a core's work, checked as the staging engine's access (R487). [Log entries 17: DESIGN CHOICE; 66: DEDUCED] -/
def Rdr.word (r : Rdr) (t off : Nat) : (Word × Bool) × Rdr :=
  if r.fail.isSome then ((0, false), r)
  else match r.st.opCheck r.x .read t off with
    | .ok => ({ r with st := r.st.countAccess t off r.x.master } : Rdr).notePage t off |>.allowedWord t off
    | res => ((0, false), { r with fail := some (res, t, off) })

/-- Read `n` words. -/
def Rdr.words (r : Rdr) (t off : Nat) : Nat → List (Word × Bool) × Rdr
  | 0 => ([], r)
  | n + 1 =>
    let (w, r1) := r.word t off
    let (ws, r2) := r1.words t (off + 8) n
    (w :: ws, r2)

/-- A word of a spilled tensor that a packet has read over the fabric. -/
def State.fetchedWord (s : State) (pid a : Nat) : Word × Bool := (kvGet s.fetched (fetchKey pid a)).getD (0, true)

/-- Note the poisoned words among those of a spilled tensor, which the core's staging engine has fetched into its memory. -/
def Rdr.noteAway (r : Rdr) (ws : List (Nat × (Word × Bool))) : Rdr :=
  let bs : List BadWord := (ws.filter fun w => w.2.2).map fun w => { tile := 0, off := 0, staged := some (r.core / 16, some r.core), away := some (wd w.1) }
  { r with bad := bs.filter (fun b => !r.bad.contains b) ++ r.bad }

/-- Read `n` bytes of a tensor from byte `off` of it, each with its word's poison flag. [Log entry 48: DEDUCED] -/
def Rdr.bytes (r : Rdr) (t : Tensor) (off n : Nat) : List (Byte × Bool) × Rdr :=
  match t.spill with
  | none =>
    let o := t.off + off
    let (ws, r1) := r.words t.tile (o / 8 * 8) ((o + n + 7) / 8 - o / 8)
    (((ws.flatMap fun w => (wordBytes w.1).map fun b => (b, w.2)).drop (o % 8)).take n, r1)
  | some a =>
    let o := a.toNat + off
    let ws := (List.range ((o + n + 7) / 8 - o / 8)).map fun i => (o / 8 * 8 + 8 * i, r.st.fetchedWord r.x.pid (o / 8 * 8 + 8 * i))
    (((ws.flatMap fun w => (wordBytes w.2.1).map fun b => (b, w.2.2)).drop (o % 8)).take n, r.noteAway ws)

/-- An element as read: its bits and whether its word was poisoned. -/
abbrev RawElem := Nat × Bool

/-- Cut bytes into elements of `k` bytes. -/
def cutElems (k : Nat) : Nat → List (Byte × Bool) → List RawElem
  | 0, _ => []
  | n + 1, bs =>
    let h := bs.take k
    (bytesNat (h.map Prod.fst), h.any Prod.snd) :: cutElems k n (bs.drop k)

/-- Read `n` real elements of `k` bytes from element index `i` of a tensor. -/
def Rdr.elems (r : Rdr) (t : Tensor) (k i n : Nat) : List RawElem × Rdr :=
  let (bs, r1) := r.bytes t (i * k) (n * k)
  (cutElems k n bs, r1)

/-! ## Consumed poison (R229 to R231) -/

/-- The generations that a job retains: 2, or 3 (R187). -/
def Job.retain (j : Job) : Nat := if j.keep3 then 3 else 2

/-- The present step of a job, and the pending generation (R151, R187): generations count modulo 2^64 (R338). -/
def Job.step (j : Job) : Nat := (j.stp.gen + 1) % 2 ^ 64

/-- How far a generation lies behind the current one, modulo 2^64; the pending one lies 2^64 − 1 behind (R338). -/
def Job.behind (j : Job) (g : Nat) : Nat := (j.stp.gen + 2 ^ 64 - g % 2 ^ 64) % 2 ^ 64

/-- The job retains a generation of a shard that has had `kept` of them (R187, R336, R338, R367). [Log entry 89: DEDUCED] -/
def Job.keeps (j : Job) (kept g : Nat) : Bool := j.behind g < min j.retain (min j.kept kept)

/-- A generation is older than those retained (R188). [Log entry 89: DEDUCED] -/
def Job.stale (j : Job) (kept g : Nat) : Bool := j.behind g < 2 ^ 63 && !j.keeps kept g

/-- A generation is above the pending one (R188). [Log entry 89: DEDUCED] -/
def Job.tooNew (j : Job) (g : Nat) : Bool := 2 ^ 63 ≤ j.behind g && g ≠ j.step

/-- The generations that the shard of a parameter tensor has had; one that this module does not own bounds nothing. -/
def State.shardKept (s : State) (slot param : Nat) : Nat :=
  ((s.shards.find? fun h => h.slot == slot && h.param == param).map fun h => h.kept).getD 3

/-- The home word's data where it reads correctly (R231 case 1). -/
def State.homeIntact (s : State) (b : BadWord) : Option Word :=
  if b.away.isSome then none
  else (s.resolve b.tile b.off).bind fun p => let c := eccFix (s.storedCw p); if cwPoison c.1 then none else some (cwData c.1)

/-- What the retained generation of a gathered parameter tensor delivered at a word (R231 case 2). [Log entry 49: DEDUCED] -/
def State.gatheredIntact (s : State) (b : BadWord) : Option Word :=
  if b.away.isSome then none
  else (s.resolve b.tile b.off).bind fun p => (s.gathered.find? fun g => g.key == placeKey p).bind fun g =>
    if (s.job g.slot).keeps (s.shardKept g.slot g.src) g.gen then some g.data else none

/-- The data of an intact copy of a poisoned word: the home word under a staged copy (case 1), or what the retained
generation delivered (case 2). [Log entry 49: DEDUCED] -/
def State.intactWord (s : State) (b : BadWord) : Option Word :=
  (if b.staged.isSome then s.homeIntact b else none).orElse fun _ => s.gatheredIntact b

/-- Every poisoned word has an intact copy. -/
def State.allIntact (s : State) (bs : List BadWord) : Bool := bs.all fun b => (s.intactWord b).isSome

/-- Stage a poisoned word afresh from its intact copy: the staged copy that held it is discarded, and a gathered word is delivered
again where the home word is not intact (R231). -/
def State.restage (s : State) (b : BadWord) : State :=
  let s1 := s.invalidate b.tile b.off
  if b.staged.isSome && (s.homeIntact b).isSome then s1
  else match s.resolve b.tile b.off, s.gatheredIntact b with
    | some p, some d => s1.writeCw (placeKey p) (encodeWord d false)
    | _, _ => s

/-- Log a poisoned word that a piece of work consumed, at the memory that held it as it was read (R230, R237, R238). -/
def State.logBadWord (s : State) (b : BadWord) (x : OpCtx) : State :=
  let a := b.away.getD (s.wordAddr b.tile b.off)
  match b.staged with
  | none => match s.resolve b.tile b.off with
    | some p => s.noteConsumed p a x
    | none => s
  | some (t, c) =>
    let r : LogRec := { kind := 2, memory := if c.isSome then 2 else 1, tile := t, core := c.getD 0 % 16, addr := a, bit0 := 0x7F, bit1 := 0x7F }
    let s1 := s.log (r.by_ x)
    match c with
    | none => s1
    | some g => s1.recordEvent (.core g) 3 x.slot (at_ (a.toNat % 65536 / 8) 21 4 + at_ 0x7F 7 25) x.seq

/-- Log the poisoned words a piece of work consumed (R230). -/
def State.logConsumed (s : State) (bs : List BadWord) (x : OpCtx) : State := bs.foldl (fun s b => s.logBadWord b x) s

/-- How a steering tensor reads (R538): its words, after a re-read from home where a staged copy was poisoned; `bad` when
the home word itself is poisoned. -/
structure Steer where
  st     : State
  words  : List Word
  bad    : Bool
  reread : Bool

/-- Read `n` bytes of a tensor that steers work, whole and before the work starts (R538). [Log entries 40: DEDUCED; 41: DEDUCED] -/
def State.steer (s : State) (t : Tensor) (core n : Nat) (x : OpCtx) : Steer :=
  let (ws, r) := ({ st := s, core := core, x := x } : Rdr).bytes t 0 n
  if r.bad.isEmpty then { st := r.st, words := bytesWords (ceilDiv n 8) (ws.map Prod.fst), bad := false, reread := false }
  else if r.bad.all fun b => b.staged.isSome && (r.st.homeIntact b).isSome then
    let s1 := r.bad.foldl State.restage r.st
    let (ws2, r2) := ({ st := s1, core := core, x := x } : Rdr).bytes t 0 n
    { st := r2.st, words := bytesWords (ceilDiv n 8) (ws2.map Prod.fst), bad := false, reread := true }
  else { st := r.st, words := [], bad := true, reread := false }

/-- A tensor's bytes written, each `none` left as it is; a spilled tensor's are sent by its packet (R246). -/
def State.putTensor (s : State) (t : Tensor) (off : Nat) (bs : List (Option (Byte × Bool))) (x : OpCtx) : State :=
  match t.spill with
  | none => (s.countRange t.tile (t.off + off) bs.length x.master).putBytes t.tile (t.off + off) bs x
  | some _ => s

/-- The first failure of access to a tensor's bytes by a core's staging engine: the check of R487 page by page. -/
def State.tensorCheck (s : State) (x : OpCtx) (op : MemOp) (t : Tensor) (n : Nat) : Option (OpRes × Nat) :=
  match t.spill with
  | none => s.rangeCheck x op t.tile t.off (n / 4096 + 2) n
  | some _ => none

end Sys2Proof.Machine
end

