-- ==== Sys2Proof/Machine/Remote.lean ====
section
/-! DEFINITION. The memory operations at their target, and operations on other modules with their responses
(08_memory.md R207 to R209, 10_links.md R276, R277). -/

namespace Sys2Proof.Machine

/-! ## Operations at their target (R207, R208) -/

/-- An operation of `n` bytes has a legal size and stays within a 4 KiB page (R207). -/
def spanOk (off n : Nat) : Bool := 1 ≤ n && n ≤ 4096 && off % 4096 + n ≤ 4096

/-- READ at this module: the words that cover the bytes. -/
def State.doRead (s : State) (x : OpCtx) (t off n : Nat) (addr : Word) : OpRes × List (Word × Bool) × State :=
  let r := if spanOk off n then s.opCheck x .read t off else .unbacked
  match r with
  | .ok =>
    let (ws, s1) := (s.countAccess t off x.master).readWords t (off / 8 * 8) x ((off + n + 7) / 8 - off / 8)
    (.ok, ws, s1)
  | r => (r, [], s.logRes x r t off addr)

/-- WRITE at this module. -/
def State.doWrite (s : State) (x : OpCtx) (t off : Nat) (bs : List (Option (Byte × Bool))) (addr : Word) : OpRes × State :=
  let r := if spanOk off bs.length then s.opCheck x .write t off else .unbacked
  match r with
  | .ok => (.ok, (s.countAccess t off x.master).putBytes t off bs x)
  | r => (r, s.logRes x r t off addr)

/-- The new value of an atomic operation (R207). -/
def atomicNew (k : AtomicOp) (old a b : Word) : Word :=
  match k with
  | .fadd => old + a
  | .swap => a
  | .cas => if old = a then b else old
  | .fand => old &&& a
  | .fior => old ||| a

/-- ATOMIC at this module: returns the old value. SWAP covers the whole word and clears poison; the other operations
merge with data that a poisoned word cannot be trusted for, and a poisoned operand poisons the result (R232, log entry 10).
[Log entry 10: DEDUCED] -/
def State.doAtomic (s : State) (x : OpCtx) (k : AtomicOp) (t off : Nat) (a b : Word) (dirty : Bool) (addr : Word) :
    OpRes × (Word × Bool) × State :=
  let r := if off % 8 = 0 then s.opCheck x .atomic t off else .unbacked
  match r with
  | .ok =>
    let ((old, p), s1) := (s.countAccess t off x.master).readWord t off x
    (.ok, (old, p), s1.writeWord t off (atomicNew k old a b) ((p && k != .swap) || dirty))
  | r => (r, (0, false), s.logRes x r t off addr)

/-- Add lanes into words one after another (R207, R227). [Log entry 10: DEDUCED] -/
def State.addLanes (s : State) (x : OpCtx) (t : Nat) : Nat → List (Word × Bool) → State
  | _, [] => s
  | off, (d, p) :: ls =>
    let ((old, q), s1) := s.readWord t off x
    (s1.writeWord t off (old + d) (p || q)).addLanes x t (off + 8) ls

/-- An ACCUMULATE of `n` lanes has a legal size and alignment; it may cross a 4 KiB boundary (R207). -/
def lanesOk (off n : Nat) : Bool := off % 8 = 0 && 1 ≤ n && n ≤ 512

/-- The check of an ACCUMULATE over the pages that it touches: how it ends, and the offset of the page that decides. -/
def State.accCheck (s : State) (x : OpCtx) (t off n : Nat) : OpRes × Nat :=
  if lanesOk off n then (s.rangeCheck x .accumulate t off 3 (8 * n)).getD (.ok, off) else (.unbacked, off)

/-- ACCUMULATE at this module. -/
def State.doAccumulate (s : State) (x : OpCtx) (t off : Nat) (lanes : List (Word × Bool)) (addr : Word) : OpRes × State :=
  match s.accCheck x t off lanes.length with
  | (.ok, _) => (.ok, (s.countAccess t off x.master).addLanes x t off lanes)
  | (r, o) => (r, s.logRes x r t o (addr + wd (o - off)))

/-! ## Operations on other modules (R209, R276) -/

/-- The words that cover bytes from an address, other bytes 0, with a word poisoned when any of its bytes is. -/
def coverWords (off : Nat) (bs : List (Option (Byte × Bool))) : List (Word × Bool) :=
  let all := List.replicate (off % 8) none ++ bs
  (List.range (ceilDiv all.length 8)).map fun i =>
    let h := (all.drop (8 * i)).take 8
    (mergeBytes 0 h, h.any fun o => match o with | some (_, p) => p | none => false)

/-- The mask words of bytes (R277). -/
def maskWords (bs : List (Option (Byte × Bool))) : List Word :=
  (List.range (ceilDiv bs.length 64)).map fun j =>
    wd (((bs.drop (64 * j)).take 64).foldr (fun o a => 2 * a + b2n o.isSome) 0)

/-- Codewords of words. -/
def cwsOf (ws : List (Word × Bool)) : List Codeword := ws.map fun w => encodeWord w.1 w.2

/-- The words that codewords carry. -/
def wordsOf (cs : List Codeword) : List (Word × Bool) := cs.map fun c => let f := eccFix c; (cwData f.1, cwPoison f.1)

/-- Send a request to the module its address names and keep it until its response (R209). [Log entry 61: DEDUCED] -/
def State.issue (s : State) (x : OpCtx) (pid : Option Nat) (m : Msg) (dst : Option Word) (hostDst : Option Nat) : State :=
  let m := { m with vc := x.vc, job := x.fjob, master := x.master, tag := s.nextTag, dest := addrModule m.word2 }
  let op : RemoteOp := { tag := s.nextTag, pid := pid, msg := m, sent := s.ftNow, dst := dst, hostDst := hostDst }
  let s1 := { s with nextTag := (s.nextTag + 1) % 2 ^ 28, remotes := s.remotes ++ [op] }
  let s2 := match pid with
    | none => s1
    | some q => s1.modWork q fun w => { w with tags := w.tags ++ [op.tag] }
  s2.send m

/-- Issue a READ of `n` bytes; its data goes to `dst`, to the host, or to the packet's fetched words. -/
def State.issueRead (s : State) (x : OpCtx) (pid : Option Nat) (a : Word) (n : Nat) (dst : Option Word)
    (hostDst : Option Nat) : State :=
  s.issue x pid { s.blank .read 0 with word2 := a, len := n - 1 } dst hostDst

/-- Issue a WRITE. -/
def State.issueWrite (s : State) (x : OpCtx) (pid : Option Nat) (a : Word) (bs : List (Option (Byte × Bool))) : State :=
  let masked := bs.any Option.isNone
  s.issue x pid { s.blank .write 0 with
    word2 := a, len := bs.length - 1, subop := b2n masked, mask := if masked then maskWords bs else []
    data := cwsOf (coverWords a.toNat bs) } none none

/-- A piece of a transfer of `n` bytes from an address: as far as the next 4 KiB boundary. [Log entry 61: DEDUCED] -/
def pieceLen (a n : Nat) : Nat := min n (4096 - a % 4096)

/-- The number under which a job slot's shadow copy issues its operations. -/
def shadowPid (slot : Nat) : Nat := 2 ^ 40 + slot

/-- An operation fails: noted on its packet, or on the shadow copy that it serves (R209, R389). -/
def State.failOp (s : State) (pid : Nat) (st : Status) (detail : Nat) : State :=
  if shadowPid 0 ≤ pid && pid < shadowPid 4 then
    s.modJob (pid - shadowPid 0) fun j => { j with shadow := { j.shadow with copy := j.shadow.copy.map fun c => { c with failed := true } } }
  else s.noteFail pid st detail

/-- Write bytes to a global address: here, or on the module it names, in pieces within 4 KiB pages; failures are noted on
the packet (R209). -/
def State.globalWrite (s : State) (x : OpCtx) (pid : Option Nat) (a : Word) (bs : List (Option (Byte × Bool))) : Nat → State
  | 0 => s
  | fuel + 1 =>
    if bs.isEmpty then s
    else
      let k := pieceLen a.toNat bs.length
      let h := bs.take k
      let s1 := match s.addrKind a with
        | .here t o =>
          let (r, s1) := s.doWrite x t o h a
          match r, pid with
          | .ok, _ => s1
          | r, some q => s1.failOp q r.status.1 r.status.2
          | _, none => s1
        | .remote _ _ _ => s.issueWrite x pid a h
        | _ => s
      s1.globalWrite x pid (a + wd k) (bs.drop k) fuel

/-- Read `n` bytes from byte `off` of a spilled tensor over the fabric for a packet (R246). -/
def State.fetchTensor (s : State) (x : OpCtx) (pid : Nat) (t : Tensor) (off n : Nat) : State :=
  match t.spill with
  | none => s
  | some a =>
    let lo := (a.toNat + off) / 4096
    let hi := (a.toNat + off + n + 4095) / 4096
    (List.range (hi - lo)).foldl (fun s i =>
      let p := max (a.toNat + off) ((lo + i) * 4096)
      let q := min (a.toNat + off + n) ((lo + i + 1) * 4096)
      s.issueRead x (some pid) (wd p) (q - p) none none) s

/-- Write a tensor's bytes, here or on the spill module that holds it. -/
def State.writeTensor (s : State) (x : OpCtx) (pid : Nat) (t : Tensor) (off : Nat) (bs : List (Option (Byte × Bool))) : State :=
  match t.spill with
  | none => s.putTensor t off bs x
  | some a => s.globalWrite x (some pid) (a + wd off) bs (bs.length / 4096 + 2)

/-- A packet that waits only for its remote operations completes when the last has its response. -/
def State.remoteDone (s : State) (pid : Nat) : State :=
  match s.work pid with
  | none => s
  | some w => if w.tags.isEmpty && w.stage = .waiting then s.completeOuts pid else s

/-- The end of a packet whose results are written: it completes, or waits for its remote operations. -/
def State.finishRemote (s : State) (pid : Nat) : State :=
  (s.modWork pid fun w => { w with stage := .waiting }).remoteDone pid

/-- Post bytes to the host; each host line of 64 bytes that holds a poisoned byte is its own write, marked poisoned (R215). -/
def State.postLines (s : State) (a : Nat) (bs : List (Byte × Bool)) : Nat → State
  | 0 => s
  | fuel + 1 =>
    if bs.isEmpty then s
    else
      let k := min bs.length (64 - a % 64)
      let h := bs.take k
      (s.post a (h.map Prod.fst) (h.any Prod.snd)).postLines (a + k) (bs.drop k) fuel

/-- The data of a READ's response goes where the request says. -/
def State.deliverData (s : State) (r : RemoteOp) (ws : List (Word × Bool)) : State :=
  let a := r.msg.word2.toNat
  let bs := ((ws.flatMap fun w => (wordBytes w.1).map fun b => (b, w.2)).drop (a % 8)).take (r.msg.len + 1)
  let x : OpCtx := { master := r.msg.master, fjob := r.msg.job }
  match r.hostDst, r.dst, r.pid with
  | some h, _, _ => s.postLines h bs (bs.length / 64 + 2)
  | none, some d, p => s.globalWrite x p d (bs.map some) 4
  | none, none, some p =>
    { s with fetched := (ws.mapIdx fun i w => (fetchKey p (a + 8 * i), w)).foldl (fun f e => kvPut f e.1 (some e.2)) s.fetched }
  | none, none, none => { s with lastData := ws }

/-- The status a code stands for, INTERNAL for a code that is no failure. -/
def statusOfCode (c : Nat) : Status := if c = 0x20 then .accessDenied else .internal

/-- Drop a remote operation and its packet's note of it. -/
def State.dropRemote (s : State) (r : RemoteOp) : State :=
  let s1 := { s with remotes := s.remotes.filter fun q => q.tag != r.tag }
  match r.pid with
  | none => s1
  | some p => s1.modWork p fun w => { w with tags := w.tags.filter fun t => t != r.tag }

/-- A DATA, ACK or NACK arrives (R209, R277). -/
def State.respond (s : State) (m : Msg) : State :=
  match s.remotes.find? fun r => r.tag == m.tag && r.msg.dest == m.src with
  | none => s
  | some r =>
    let s1 := s.dropRemote r
    let s2 := match m.op with
      | .data => s1.deliverData r (wordsOf m.data)
      | .nack => match r.pid with
        | none => s1
        | some p => s1.failOp p (statusOfCode (fld m.word2 0 8)) (fld m.word2 8 16)
      | _ => s1
    match r.pid with
    | none => s2
    | some p => s2.remoteDone p

/-- Answer a request (R277). -/
def State.answer (s : State) (m : Msg) (op : MsgOp) (data : List Codeword) (word2 : Word) : State :=
  s.send { s.blank op m.src with vc := m.vc, job := m.job, tag := m.tag, word2 := word2, data := data
                                 len := 8 * data.length - 1, master := m.master }

/-- A NACK with the status and detail of an operation that was not performed. -/
def State.nack (s : State) (m : Msg) (r : OpRes) : State :=
  s.answer m .nack [] (wd (at_ r.status.1.code 8 0 + at_ r.status.2 16 8))

/-- The context of an operation that arrived on a link (R487). -/
def msgCtx (s : State) (m : Msg) : OpCtx :=
  { master := mRemote m.src, fjob := m.job
    slot := ((List.range 4).find? fun j => (s.job j).opened && (s.job j).fjob == m.job).getD 15 }

/-- No response within 2 ms of FT (R209). -/
def opRemoteTimeout (tag : Nat) (s : State) : State :=
  match s.remotes.find? fun r => r.tag == tag with
  | none => s
  | some r =>
    if s.ftNow < r.sent + 2000000 then s
    else
      let w := r.pid.bind s.work
      let x : OpCtx := { master := r.msg.master, fjob := r.msg.job, slot := (w.bind (fun w => w.slot)).getD 15
                         seq := (w.map fun w => w.pkt.seq).getD 0 }
      let t := addrTile r.msg.word2
      let rec0 : LogRec := { kind := 8, memory := memoryCode (addrOff r.msg.word2), tile := t, addr := r.msg.word2
                             bit0 := 0x7F, bit1 := 0x7F }
      let s1 := (s.dropRemote r).log (rec0.by_ x)
      match r.pid with
      | none => s1
      | some p => (s1.failOp p .internal 0x0140).remoteDone p

end Sys2Proof.Machine
end

