-- ==== Sys2Proof/Machine/Moves.lean ====
section
/-! DEFINITION. Requests on this module's memory, the holding of operations at a moving page, and the end of a page move
(08_memory.md R202, R207, R218, R239). -/

namespace Sys2Proof.Machine

/-! ## Requests (R207, R277) -/

/-- What a memory operation asks at its target. -/
inductive MemReq where
  | read (n : Nat)
  | write (bs : List (Option (Byte × Bool)))
  | atomic (k : AtomicOp) (a b : Word) (poison : Bool)
  | accumulate (lanes : List (Word × Bool))
  | malformed
  deriving DecidableEq, Repr, Inhabited

/-- The bytes of `n` from byte `off` of words, each enabled by its mask bit; no mask enables every byte. -/
def maskedBytes (off n : Nat) (mask : Option (List Word)) (ws : List (Word × Bool)) : List (Option (Byte × Bool)) :=
  let bs := ((ws.flatMap fun w => (wordBytes w.1).map fun b => (b, w.2)).drop (off % 8)).take n
  bs.mapIdx fun i b => match mask with
    | none => some b
    | some m => if bitOf (lget m (i / 64) 0) (i % 64) then some b else none

/-- The atomic operation of a SUBOP code (R276). -/
def atomicOf : Nat → Option AtomicOp
  | 0 => some .fadd | 1 => some .swap | 2 => some .cas | 3 => some .fand | 4 => some .fior | _ => none

/-- The SUBOP code of an atomic operation. -/
def atomicCode : AtomicOp → Nat
  | .fadd => 0 | .swap => 1 | .cas => 2 | .fand => 3 | .fior => 4

/-- What an arrived message asks (R277). [Log entry 53: DEDUCED] -/
def msgReq (m : Msg) : MemReq :=
  let ws := wordsOf m.data
  let w (i : Nat) : Word × Bool := lget ws i (0, false)
  match m.op with
  | .read => .read (m.len + 1)
  | .write => .write (maskedBytes m.word2.toNat (m.len + 1) (if m.subop % 2 = 1 then some m.mask else none) ws)
  | .atomic => match atomicOf m.subop with
    | some k => .atomic k (w 0).1 (w 1).1 (ws.any Prod.snd)
    | none => .malformed
  | .accumulate => if (m.len + 1) % 8 = 0 then .accumulate (ws.take ((m.len + 1) / 8)) else .malformed
  | .idle | .data | .ack | .nack | .control | .collective => .malformed

/-- A code names a master of this module (R485, R206). -/
def ownMaster (m : Nat) : Bool :=
  match m / 4096 with
  | 1 => m % 4096 < 512
  | 2 => m % 4096 < 64
  | 3 => m % 4096 < 128
  | 4 => m % 4096 < 32
  | 7 => m % 4096 = 0 || m % 4096 = 16
  | _ => false

/-- The issuer, address and request of an operation. -/
def State.heldReq (s : State) : HeldOp → OpCtx × Word × MemReq
  | .arrived d => (msgCtx s d.msg, d.msg.word2, msgReq d.msg)
  | .own i =>
    let ctx : OpSource → OpCtx
      | .arrived => { master := 0 }
      | .own master fjob slot seq => { master := master, fjob := fjob, slot := slot, seq := seq }
    match i with
    | .memoryRead _ src a n => (ctx src, a, .read n)
    | .memoryWrite _ src a n mask data =>
      (ctx src, a, .write (maskedBytes a.toNat n (if mask.isEmpty then none else some mask) (data.map fun w => (w, false))))
    | .memoryAtomic _ src a k x y => (ctx src, a, .atomic k x y false)
    | .memoryAccumulate _ src a lanes => (ctx src, a, .accumulate (lanes.map fun w => (w, false)))
    | _ => ({ master := 0 }, 0, .malformed)

/-! ## At this module's memory -/

/-- An operation that this module does not perform because of its address: logged with KIND 8 (R198, R209). [Log entry 53: DEDUCED] -/
def State.logBad (s : State) (x : OpCtx) (a : Word) : State :=
  s.log (({ kind := 8, memory := memoryCode (addrOff a), tile := addrTile a, addr := a, bit0 := 0x7F, bit1 := 0x7F } : LogRec).by_ x)

/-- A request at a tile-local offset. [Log entry 52: DEDUCED] -/
def State.reqHere (s : State) (x : OpCtx) (t off : Nat) (a : Word) (q : MemReq) : OpRes × List (Word × Bool) × State :=
  match q with
  | .read n => s.doRead x t off n a
  | .write bs =>
    let (r, s1) := s.doWrite x t off bs a
    (r, [], s1)
  | .atomic k v w po =>
    let (r, o, s1) := s.doAtomic x k t off v w po a
    (r, [o], s1)
  | .accumulate ls =>
    let (r, s1) := s.doAccumulate x t off ls a
    (r, [], s1)
  | .malformed => (.unbacked, [], s.logRes x .unbacked t off a)

/-- The answer to an arrived request: its data or the old value, a completion, or why it was not performed (R277). -/
def State.answerReq (s : State) (m : Msg) (r : OpRes) (ws : List (Word × Bool)) : State :=
  match r with
  | .ok => if m.op = .read || m.op = .atomic then s.answer m .data (cwsOf ws) 0 else s.answer m .ack [] 0
  | r => s.nack m r

/-! ## Operations at a moving page (R202) -/

/-- A logical page is moving. -/
def State.moving (s : State) (t l : Nat) : Bool := s.moves.any fun m => m.tile == t && m.page == l

/-- Two held operations are parts of one message. -/
def HeldOp.sameMsg : HeldOp → HeldOp → Bool
  | .arrived d, .arrived e => d.msg.src == e.msg.src && d.msg.tag == e.msg.tag
  | _, _ => false

/-- The parts of an operation of `n` lanes before and after its lane `k`. -/
def HeldOp.split (k : Nat) : HeldOp → HeldOp × HeldOp
  | .arrived d =>
    (.arrived { d with msg := { d.msg with len := 8 * k - 1, data := d.msg.data.take k } },
     .arrived { d with msg := { d.msg with word2 := d.msg.word2 + wd (8 * k), len := d.msg.len - 8 * k, data := d.msg.data.drop k } })
  | .own (.memoryAccumulate dt src a ls) =>
    (.own (.memoryAccumulate dt src a (ls.take k)), .own (.memoryAccumulate dt src (a + wd (8 * k)) (ls.drop k)))
  | h => (h, h)

/-- An operation is performed at a tile-local offset. A message is answered when its last part is performed. -/
def State.performHere (s : State) (h : HeldOp) (t off : Nat) : State :=
  let (x, a, q) := s.heldReq h
  let (r, ws, s1) := s.reqHere x t off a q
  match h with
  | .arrived d => if s.moves.any fun m => m.held.any h.sameMsg then s1 else s1.answerReq d.msg r ws
  | .own _ => if r = .ok then { s1 with lastData := ws } else s1

/-- An operation within one page: held while the page moves, otherwise performed. -/
def State.servePage (s : State) (h : HeldOp) (t off : Nat) : State :=
  let l := off / 65536
  if off < 0x600000000 && s.moving t l then
    { s with moves := updFirst (fun m => m.tile == t && m.page == l) (fun m => { m with held := m.held ++ [h] }) s.moves }
  else s.performHere h t off

/-- An operation at a tile-local offset of this module. One that crosses into the next page is split where either page moves; an
operation that cannot be performed is not held. [Log entry 55: DEDUCED] -/
def State.serveHere (s : State) (h : HeldOp) (t off : Nat) : State :=
  let (x, _, q) := s.heldReq h
  match q with
  | .accumulate ls =>
    let next := (off / 65536 + 1) * 65536
    if next < off + 8 * ls.length && (s.moving t (off / 65536) || s.moving t (off / 65536 + 1))
        && (s.accCheck x t off ls.length).1 = .ok then
      let (h1, h2) := h.split ((next - off) / 8)
      if s.moving t (off / 65536) then (s.servePage h1 t off).servePage h2 t next else (s.servePage h2 t next).servePage h1 t off
    else s.servePage h t off
  | _ => s.servePage h t off

/-! ## The end of a page move (R202, R239) -/

/-- A word key carried from one page of 8,192 words to another. -/
def shiftKey (a b k : Nat) : Nat := if a ≤ k && k < a + 8192 then k - a + b else k

/-- The keys that samples and written packets keep, carried to a page's new place. -/
def Rel.rekey (r : Rel) (f : Nat → Nat) : Rel :=
  let out (o : OutWord) : OutWord := { o with addr := f o.addr }
  let rng (x : Nat × Nat) : Nat × Nat := (f x.1, f x.1 + (x.2 - x.1))
  { r with
    samples := r.samples.map fun p => { p with orig := p.orig.map out, sound := p.sound.map out, second := p.second.map out }
    wrote := r.wrote.map fun e => { e with reads := e.reads.map rng, writes := e.writes.map rng, sent := e.sent.map rng
                                           before := e.before.map out } }

/-- Copy a page's words: correctable words corrected, uncorrectable words poisoned; words that are all zero need no copy.
[Log entry 56: DEDUCED] -/
def State.copyPage (s : State) (src dst : Place) (srcKey dstKey : Nat) (a : Word) (x : OpCtx) : State :=
  let word (p : Place) (w : Nat) : Place := match p with | .dram t c pg _ => .dram t c pg w | q => q
  let ws := (List.range 8192).filter fun w => s.readCw (srcKey + w) ≠ 0
  ws.foldl (fun s w =>
    let ((d, po), s1) := s.readPlace (word src w) (a + wd (8 * w)) x
    s1.writeCw (placeKey (word dst w)) (encodeWord d po)) (s.eraseKeys dstKey (dstKey + 8192))

/-- A page's standing in unit history. -/
def Rel.setUnit (r : Rel) (u : Unit_) (st : Nat) : Rel := r.modUnit u fun x => { x with st := st }

/-- What a move logs where the page that it left is retired: KIND 6, and KIND 7 with the page's standing (R239). The page that a
retired page backed has moved: nothing waits for it any more. [Log entry 57: DEDUCED] -/
def State.leavePage (s : State) (e : PageEntry) (t : Nat) (a : Word) : State :=
  if !s.physRetired e.tile e.channel e.page then s
  else
    let r : LogRec := { kind := 6, tile := e.tile, channel := e.channel, page := e.page, job := 15, master := mTranspose t, addr := a, bit0 := 0x7F, bit1 := 0x7F }
    let s1 : State := { s with rel := s.rel.setUnit (.page e.tile e.channel e.page) (s.retiredAs e.tile e.channel e.page) }
    (s1.log r).log { r with kind := 7 }

/-- The copy of a moving page completes: the page map changes, a retired physical page is recorded, and the held operations go on in
their order. [Log entry 56: DEDUCED] -/
def State.finishMove (t l : Nat) (s : State) : State :=
  match s.moves.find? fun m => m.tile == t && m.page == l with
  | none => s
  | some m =>
    let e := s.pageEntry t l
    let src : Place := .dram e.tile e.channel e.page 0
    let dst : Place := .dram m.toTile m.toChan m.toPage 0
    let (k, k') := (placeKey src, placeKey dst)
    let a := s.wordAddr t (l * 65536)
    let s1 := s.copyPage src dst k k' a { master := mTranspose t }
    let s2 := ({ s1 with moves := dropFirst (fun v => v.tile == t && v.page == l) s1.moves } : State).backPage t l
      { tile := m.toTile, channel := m.toChan, page := m.toPage, backed := true }
    let s3 : State := { s2 with gathered := s2.gathered.map (fun g => { g with key := shiftKey k k' g.key }), rel := s2.rel.rekey (shiftKey k k') }
    m.held.foldl (fun s h => s.serveHere h t (addrOff (s.heldReq h).2.1)) (s3.leavePage e t a).settleDeferred

/-- Every page move in progress completes: a command that reads or writes memory by another path than the MEMORY commands takes
place after it, which is a delay only (R202). [Log entry 55: DEDUCED] -/
def State.finishMoves (s : State) : State := s.moves.foldl (fun s m => s.finishMove m.tile m.page) s

/-- An operation that takes place once no page moves. -/
def afterMoves (op : State → State) (s : State) : State := op s.finishMoves

/-- The work of a packet that was handed to its unit, once no page moves. -/
def onHandedMem (pid : Nat) (ops : List Nat) (f : Work → State → State) (s : State) : State :=
  onHanded pid ops (fun w => afterMoves (f w)) s

end Sys2Proof.Machine
end

