-- ==== Sys2Proof/Machine/Items.lean ====
section
/-! DEFINITION. Which cores run a packet's items, and when they start (09_placement.md R249 to R252, 02_fabric_time.md
R49, R50). -/

namespace Sys2Proof.Machine

/-! ## Available cores (R249) -/

/-- The target of a job's rule of a kind for the whole job, or a default. -/
def Job.ruleTarget (j : Job) (action kind d : Nat) : Nat :=
  ((j.rules.find? fun r => r.action == action && r.kind == kind && r.handle == 0).map fun r => r.target).getD d

/-- The job's CORE_QUOTA and PRIORITY (R256). -/
def Job.quota (j : Job) : Nat := j.ruleTarget 0 0x09 0
def Job.priority (j : Job) : Nat := j.ruleTarget 0 0x0A 1

/-- A forbid of the job excludes the core from its work (R256 NO_TILE, NO_CORE). -/
def Job.forbidsCore (j : Job) (g : Nat) : Bool :=
  j.rules.any fun r => r.action == 1 && r.handle == 0
    && ((r.kind == 0x10 && r.target == g / 16) || (r.kind == 0x11 && r.target == g))

/-- A field test, or its drain, has the core for this job (R25, R410). -/
def State.tested (s : State) (slot g : Nat) : Bool :=
  s.rel.tests.any fun t => t.core == g && (t.started || !t.waits.contains slot)

/-- A core that forbids apart is available to a job (R249, R395). -/
def State.coreFree (s : State) (slot g : Nat) (whole : Bool) : Bool :=
  s.coreInService g && !s.tested slot g && !s.rel.suspects.contains g && (!whole || s.coreWhole g)

/-- The job's work forbids are ignored once retirement leaves no core that they allow (R257). -/
def State.forbidsHold (s : State) (slot : Nat) : Bool :=
  (List.range 512).any fun g => !s.retired (.core g) && !(s.job slot).forbidsCore g

/-- The cores available to a job, in number order; product items need a core with four arrays (R249). -/
def State.available (s : State) (slot : Nat) (whole : Bool) : List Nat :=
  let hold := s.forbidsHold slot
  (List.range 512).filter fun g => s.coreFree slot g whole && !(hold && (s.job slot).forbidsCore g)

/-- The die-to-die hops between two tiles (R12). -/
def hops (a b : Nat) : Nat :=
  let d (x y : Nat) : Nat := if x < y then y - x else x - y
  d (a / 4) (b / 4) + d (a % 4) (b % 4)

/-- Items of this opcode are product items. -/
def isProduct (op : Nat) : Bool := op == 0x30 || op == 0x31 || op == 0x32

/-- The handles of the tensors that a packet's items read (R250). -/
def Work.operands (w : Work) : List Word :=
  let p := w.pkt
  if isProduct p.opcode then
    let d := p.prod
    [d.a, d.b, d.sa, d.sb, d.mask] ++ (if d.accC then [d.c] else [])
  else if p.opcode = 0x33 || p.opcode = 0x34 then p.kern.inputs.map fun h => h.1
  else if p.opcode = 0x35 then
    let is := vprogram w.mask
    (((List.range (min (p.par 1).toNat 1021)).drop 1).filter fun i => is.any fun v => v.a == i || v.b == i || v.cc == i).map fun i =>
      (p.varg i).handle
  else [p.par 0]

/-- The operands of a packet that lie on this module. -/
def State.operandTensors (s : State) (w : Work) : List Tensor :=
  match w.slot with
  | none => []
  | some j => (w.operands.filterMap fun h => s.tensorKept j h).filter fun t => t.spill.isNone

/-- A staged copy of a page of one of the operands lies on the tile (R250). -/
def State.stagedOn (s : State) (ts : List Tensor) (tile : Nat) : Bool :=
  s.staged.any fun c => c.tile == tile && ts.any fun t => t.tile == c.homeTile && t.page ≤ c.page && c.page < t.page + t.pages

/-- The rank of a core for a packet: staged copies first, then hops from the operands' homes (R250). -/
def State.coreRank (s : State) (ts : List Tensor) (g : Nat) : Nat :=
  (if s.stagedOn ts (g / 16) then 0 else 10000) + (ts.map fun t => hops (g / 16) t.tile).foldl (· + ·) 0

/-- Cores in the order the placer takes them: by rank, and among equals in an order the spec leaves open (R250): a
rotation by a free value (log entry 11). [Log entry 11: DESIGN CHOICE] -/
def State.rankCores (s : State) (w : Work) (cores : List Nat) : List Nat × State :=
  let ts := s.operandTensors w
  let (r, s1) := s.free
  let n := cores.length
  let turned := cores.drop (r % (n + 1)) ++ cores.take (r % (n + 1))
  (turned.mergeSort fun a b => s.coreRank ts a ≤ s.coreRank ts b, s1)

/-! ## Starting items (R49, R50, R251) -/

/-- The slot of a core in a ramp (R49). -/
def rampSlot (g : Nat) : Nat := (7 * (g % 16) + 3 * (g / 16)) % 16

/-- A barrier of the job has not released, or the core's slot of the current ramp has not come (R48 to R50, log entry 12).
[Log entry 12: DEDUCED] -/
def State.rampHolds (s : State) (slot g : Nat) : Bool :=
  s.works.any (fun w => w.slot == some slot && w.pkt.opcode == 0x58)
    || s.ramps.any fun r => r.slot == slot && s.ftNow < r.release + rampSlot g * r.width

/-- The core runs an item. -/
def State.busy (s : State) (g : Nat) : Bool :=
  s.works.any fun w => w.items.any fun i => i.core == some g && i.started && !i.finished

/-- The cores that run items of a job. -/
def State.runningCores (s : State) (slot : Nat) : List Nat :=
  ((s.works.filter fun w => w.slot == some slot).flatMap fun w =>
    (w.items.filter fun i => i.started && !i.finished).filterMap fun i => i.core).eraseDups

/-- The order of preference among items that wait on a core (R251), as one number. -/
def State.itemKey (s : State) (w : Work) (i : Item) : Nat :=
  let j := w.slot.getD 0
  let job := s.job j
  let cls := if (s.runningCores j).length < job.quota then j else 4 + (3 - job.priority)
  ((cls * 2 ^ 64 + w.pkt.stamp) * 64 + w.pkt.window) * 2 ^ 90 + i.num

/-- A sampled unit of an earlier packet waits for a recomputation that the core can run: that goes ahead of a later packet's unstarted
items (R393). -/
def State.sampleAhead (s : State) (g pid : Nat) : Bool :=
  s.rel.samples.any fun x => x.pid < pid && (x.stage = 1 || (x.stage = 2 && g / 16 ≠ x.core2 / 16)) && g / 16 ≠ x.core / 16
    && (s.available x.slot (!x.vector)).contains g

/-- The next item for a core: its packet and number. -/
def State.nextItem (s : State) (g : Nat) : Option (Nat × Nat) :=
  let cands := s.works.flatMap fun w =>
    if s.rampHolds (w.slot.getD 0) g || s.sampleAhead g w.pid then []
    else (w.items.filter fun i => i.core == some g && !i.started && !i.finished).map fun i => (s.itemKey w i, w.pid, i.num)
  (argMin (fun c : Nat × Nat × Nat => c.1) cands).map fun c => c.2

/-- Change one item of a packet. -/
def State.modItem (s : State) (pid num : Nat) (f : Item → Item) : State :=
  s.modWork pid fun w => { w with items := updFirst (fun i => i.num == num) f w.items }

/-- The staged copies in these cores' memories are discarded (R247). -/
def State.unstage (s : State) (cores : List Nat) : State :=
  { s with staged := s.staged.filter fun c => match c.core with | some g => !cores.contains g | none => true }

/-! ### Hardware threads (R125) -/

/-- The thread that runs a kernel row of a vector program: threads 16 to 255 take the rows in turn. [Log entry 134: DESIGN CHOICE] -/
def rowThread (row : Nat) : Nat := 16 + row % 240

/-- A hardware thread as it stands. -/
def State.thread (s : State) (core num : Nat) : HwThread :=
  (s.threads.find? fun h => h.core == core && h.num == num).getD { core := core, num := num }

/-- Change a hardware thread. -/
def State.modThread (s : State) (core num : Nat) (f : HwThread → HwThread) : State :=
  { s with threads := s.threads.filter (fun h => !(h.core == core && h.num == num)) ++ [f (s.thread core num)] }

/-- A row of a vector program starts on its thread. -/
def State.startThread (s : State) (g pid n : Nat) : State :=
  match s.work pid with
  | none => s
  | some w => if w.pkt.opcode = 0x35 then s.modThread g (rowThread n) fun h => { h with pc := 0, row := some (pid, n) } else s

/-- A row of a vector program has run all of its instructions. [Log entry 134: DESIGN CHOICE] -/
def State.endThread (s : State) (g n instrs : Nat) : State :=
  s.modThread g (rowThread n) fun h => { h with pc := instrs, row := none }

/-! ### Starts (R251, R428) -/

/-- A core without a running item takes its next one (R251). -/
def State.startCore (s : State) (g : Nat) : State :=
  if s.busy g then s
  else match s.nextItem g with
    | none => s
    | some (pid, n) => (s.modItem pid n fun i => { i with started := true, ran := g }).startThread g pid n

/-- The start of a core from idle is booked: the starts that wait on its tile follow one another in the order of their cores, 125 ns
apart (R428). [Log entry 135: DEDUCED] -/
def bookStart (now g : Nat) (starts : List (Nat × Nat)) : List (Nat × Nat) :=
  let live := starts.filter fun e => e.1 != g && now < e.2 + 125
  let past := live.filter fun e => e.2 ≤ now
  let turn := (g :: (live.filter fun e => now < e.2).map fun e => e.1).mergeSort
  let from_ := past.foldl (fun b e => max b (e.2 + 125)) now
  past ++ turn.mapIdx fun i c => (c, from_ + 125 * i)

/-- A start that never waits: a core's own ramp slot (R428). [Log entry 135: DEDUCED] -/
def slotStart (now g : Nat) (starts : List (Nat × Nat)) : List (Nat × Nat) :=
  (starts.filter fun e => e.1 != g && now < e.2 + 125) ++ [(g, now)]

/-- An idle core takes its next item, and its start is entered with its tile's limiter. -/
def State.startBy (book : Nat → Nat → List (Nat × Nat) → List (Nat × Nat)) (s : State) (g : Nat) : State :=
  if s.busy g then s
  else
    let s1 := s.startCore g
    if s1.busy g then
      { s1 with power := { s1.power with tiles := vmod s1.power.tiles (g / 16) fun t => { t with starts := book s.uptime g t.starts } } }
    else s1

/-- A core whose start the limiter has booked for later has not begun (R428). -/
def State.startWaits (s : State) (g : Nat) : Bool :=
  (vget s.power.tiles (g / 16)).starts.any fun e => e.1 == g && s.uptime < e.2

/-- Idle cores take their next items where they can, through the start limiters (R428). -/
def State.startAll (s : State) (gs : List Nat) : State := gs.mergeSort.foldl (State.startBy bookStart) s

/-- Cores take their next items at their own ramp slots (R49, R428). -/
def State.startSlots (s : State) (gs : List Nat) : State := gs.foldl (State.startBy slotStart) s

/-- Give unassigned items of a packet that have not run to cores in turn; no core gets more than ceil(I / n) of them (R250). -/
def dealItems (cores : List Nat) : Nat → List Item → List Item
  | _, [] => []
  | k, i :: t =>
    if i.core.isNone && !i.finished && i.tried.isEmpty then
      { i with core := cores[k % cores.length]? } :: dealItems cores (k + 1) t
    else i :: dealItems cores k t

/-- Spread a packet's unassigned items over the cores available to its job; with none available they wait (R250). An item
that has run goes to a tile that has not run it, and waits while none such has an available core (R162). [Log entry 131: DESIGN CHOICE] -/
def State.assignItems (s : State) (pid : Nat) : State :=
  match s.work pid with
  | none => s
  | some w =>
    let j := w.slot.getD 0
    let avail := s.available j (isProduct w.pkt.opcode)
    if avail.isEmpty then s
    else
      let (ranked, s1) := s.rankCores w avail
      let again := w.items.map fun i =>
        if i.core.isNone && !i.finished && !i.tried.isEmpty then
          { i with core := ranked.find? fun g => !i.tried.contains (g / 16) }
        else i
      let dealt := dealItems ranked 0 again
      (s1.modWork pid fun w => { w with items := dealt }).startAll (dealt.filterMap fun i => i.core).eraseDups

/-- Cores that become unavailable hand the unstarted items that `p` names to others (R250). -/
def State.handOver (s : State) (p : Work → Item → Bool) : State :=
  let gives (w : Work) (i : Item) : Bool := i.core.isSome && !i.started && !i.finished && p w i
  let hit := (s.works.filter fun w => w.items.any (gives w)).map fun w => w.pid
  let s1 := { s with works := s.works.map fun w => { w with items := updAll (gives w) (fun i => { i with core := none }) w.items } }
  hit.foldl (fun s q => s.assignItems q) s1

/-- Assign every packet's unassigned items and start what can start: after cores become available (R250). -/
def opItemsAssign (s : State) : State :=
  let s1 := (s.works.map fun w => w.pid).foldl (fun s p => s.assignItems p) s
  s1.startAll (List.range 512)

/-- The packet's items are handed out and it runs. -/
def State.launch (s : State) (pid : Nat) (items : List Item) : State :=
  (s.modWork pid fun w => { w with items := items, stage := .running }).assignItems pid

end Sys2Proof.Machine
end

