-- ==== Sys2Proof/Machine/Rng.lean ====
section
/-! DEFINITION. The counter-based generator, packet keys and stochastic rounding (06_accumulation.md R146 to R151). -/

namespace Sys2Proof.Machine

/-- The state of the generator: four counter words and two key words (R148). -/
structure GenSt where
  c0 : Nat
  c1 : Nat
  c2 : Nat
  c3 : Nat
  k0 : Nat
  k1 : Nat
  deriving DecidableEq, Repr, Inhabited

/-- One round of R148. -/
def genRound (g : GenSt) : GenSt :=
  let p := 0xD2511F53 * g.c0
  let r := 0xCD9E8D57 * g.c2
  { c0 := nfld r 32 32 ^^^ g.c1 ^^^ g.k0, c1 := r % 2 ^ 32
    c2 := nfld p 32 32 ^^^ g.c3 ^^^ g.k1, c3 := p % 2 ^ 32
    k0 := (g.k0 + 0x9E3779B9) % 2 ^ 32, k1 := (g.k1 + 0xBB67AE85) % 2 ^ 32 }

/-- `n` rounds. -/
def genRounds : Nat → GenSt → GenSt
  | 0, g => g
  | n + 1, g => genRounds n (genRound g)

/-- generate of R148: the words o0 to o3. -/
def generate (c0 c1 c2 c3 k0 k1 : Nat) : Nat × Nat × Nat × Nat :=
  let g := genRounds 10 { c0 := c0, c1 := c1, c2 := c2, c3 := c3, k0 := k0, k1 := k1 }
  (g.c0, g.c1, g.c2, g.c3)

/-- The packet key (R149). -/
def packetKey (step ksi : Nat) (seed : Word) : Nat × Nat :=
  let o := generate (nfld step 0 32) (nfld step 32 32) ksi 0 (fld seed 0 32) (fld seed 32 32)
  (o.1, o.2.1)

/-- The 24-bit draw of an update (R148, R150): item number, result row and lane, chunk, update index and component. -/
def drawOf (pk : Nat × Nat) (w m lane chunk upd comp : Nat) : Nat :=
  let c0 := at_ (w % 512 / 16) 5 0 + at_ (w % 16) 4 5 + at_ (m / 64) 2 9 + at_ lane 6 11 + at_ upd 4 17 + at_ comp 1 21
  let c1 := at_ (m % 64) 6 0 + at_ chunk 26 6
  (generate c0 c1 (nfld (w / 512) 0 32) (nfld (w / 512) 32 32) pk.1 pk.2).1 % 2 ^ 24

end Sys2Proof.Machine
end

