-- ==== Sys2Proof/Machine/VectorMath.lean ====
section
/-! DEFINITION. Stochastic rounding (06_accumulation.md R146) and the FP32 operations of the vector engine
(05_matrix_cores.md R126, R129, R535). -/

namespace Sys2Proof.Machine

/-- sr_round of R146 on an exact finite value. -/
def srRound (neg : Bool) (sig : Nat) (exp : Int) (d : Nat) : Rounded :=
  if sig = 0 then { bits := 0 }
  else
    let q := max (floorLog sig exp) (-126) - 23
    if q ≤ exp then
      let p := packUnits 2 neg (sig <<< (exp - q).toNat) q
      { bits := p.1, ovf := p.2 }
    else
      let k := (q - exp).toNat
      let f24 := ((sig % 2 ^ k) <<< 24) >>> k
      let n := (sig >>> k) + (if 2 ^ 24 ≤ f24 + d then 1 else 0)
      let p := packUnits 2 neg n q
      { bits := p.1, ovf := p.2, tiny := n = 0 }

/-- The result of an FP32 operation, and whether it made a NaN from operands that are not NaN (R104). -/
structure VRes where
  bits : Nat
  made : Bool := false
  ovf  : Bool := false
  tiny : Bool := false
  deriving DecidableEq, Repr, Inhabited

/-- A rounded result as an operation's result. -/
def Rounded.toVRes (r : Rounded) : VRes := { bits := r.bits, ovf := r.ovf, tiny := r.tiny }

/-- The canonical FP32 NaN. -/
def nan32 : Nat := 0x7FC00000

/-- A value rounded to FP32; `fresh` says that no operand was NaN. -/
def v32 (fresh : Bool) (v : Val) : VRes :=
  match v with
  | .nan => { bits := nan32, made := fresh }
  | _ => (roundVal 2 v).toVRes

/-- Decode FP32 bits. -/
def d32 (b : Nat) : Val := decodeVal 2 b

/-- FP32 bits are NaN. -/
def isNan32 (b : Nat) : Bool := (d32 b).isNan

def vAdd (a b : Nat) : VRes := v32 (!isNan32 a && !isNan32 b) ((d32 a).add (d32 b))
def vSub (a b : Nat) : VRes := v32 (!isNan32 a && !isNan32 b) ((d32 a).add (d32 b).negate)
def vMul (a b : Nat) : VRes := v32 (!isNan32 a && !isNan32 b) ((d32 a).mul (d32 b))
def vFma (a b c : Nat) : VRes :=
  v32 (!isNan32 a && !isNan32 b && !isNan32 c) (((d32 a).mul (d32 b)).add (d32 c))

/-- An addition whose exact zero result is +0 (R89, R130). -/
def vSum (a b : Nat) : VRes :=
  let r := (d32 a).add (d32 b)
  if r.isZero then { bits := 0 } else v32 (!isNan32 a && !isNan32 b) r

/-- The order of R129 for MAX and MIN: by value, and −0 below +0. -/
def below32 (a b : Nat) : Bool :=
  let c := (d32 a).cmp (d32 b)
  c < 0 || (c = 0 && (d32 a).sign && !(d32 b).sign)

def vMax (a b : Nat) : VRes :=
  if isNan32 a || isNan32 b then { bits := nan32 } else { bits := if below32 a b then b else a }
def vMin (a b : Nat) : VRes :=
  if isNan32 a || isNan32 b then { bits := nan32 } else { bits := if below32 a b then a else b }
def vAbs (a : Nat) : VRes := if isNan32 a then { bits := nan32 } else { bits := a % 2 ^ 31 }
def vNeg (a : Nat) : VRes := if isNan32 a then { bits := nan32 } else { bits := a ^^^ 2 ^ 31 }
def vMov (a : Nat) : VRes := if isNan32 a then { bits := nan32 } else { bits := a }
def vGt (a b : Nat) : VRes :=
  if isNan32 a || isNan32 b then { bits := 0 }
  else { bits := if 0 < (d32 a).cmp (d32 b) then 0x3F800000 else 0 }

/-- sig × 2^exp with a nonzero part below it marked in one further bit, rounded to FP32. -/
def stickyRound (neg : Bool) (sig : Nat) (exact : Bool) (exp : Int) : VRes :=
  (roundFin 2 neg (2 * sig + b2n (!exact)) (exp - 1)).toVRes

/-- RECIP (R535). -/
def vRecip (a : Nat) : VRes :=
  match d32 a with
  | .nan => { bits := nan32 }
  | .inf s => { bits := zeroBits 2 s }
  | .fin s m e =>
    if m = 0 then { bits := infBits 2 s }
    else
      let k := 64 + Nat.log2 m
      stickyRound s (2 ^ k / m) (2 ^ k % m = 0) (-(k : Int) - e)

/-- The integer square root, bit by bit from bit `k` down. -/
def isqrtFrom : Nat → Nat → Nat → Nat
  | 0, n, r => if (r + 1) * (r + 1) ≤ n then r + 1 else r
  | k + 1, n, r => let t := r + 2 ^ (k + 1); isqrtFrom k n (if t * t ≤ n then t else r)

/-- The integer square root. -/
def isqrt (n : Nat) : Nat := isqrtFrom (Nat.log2 n / 2 + 1) n 0

/-- SQRT (R535). -/
def vSqrt (a : Nat) : VRes :=
  match d32 a with
  | .nan => { bits := nan32 }
  | .inf s => if s then { bits := nan32, made := true } else { bits := infBits 2 false }
  | .fin s m e =>
    if m = 0 then { bits := zeroBits 2 s }
    else if s then { bits := nan32, made := true }
    else
      let odd := (e % 2).toNat
      let n := (m * 2 ^ odd) * 2 ^ 80
      let r := isqrt n
      stickyRound false r (r * r = n) ((e - odd) / 2 - 40)

/-- RSQRT (R535). -/
def vRsqrt (a : Nat) : VRes :=
  match d32 a with
  | .nan => { bits := nan32 }
  | .inf s => if s then { bits := nan32, made := true } else { bits := 0 }
  | .fin s m e =>
    if m = 0 then { bits := infBits 2 s }
    else if s then { bits := nan32, made := true }
    else
      -- 1 / sqrt(m' 2^(2h)) with m' = m or 2m: sqrt(2^128 / m') × 2^(−64 − h)
      let odd := (e % 2).toNat
      let m' := m * 2 ^ odd
      let r := isqrt (2 ^ 128 / m')
      stickyRound false r (r * r * m' = 2 ^ 128) (-64 - (e - odd) / 2)

/-- Fraction bits of the fixed-point arithmetic of EXP2 and LOG2. -/
def fxBits : Nat := 192

/-- Σ z^(2i+1) / (2i+1) from term i on, for z in units of 2^−192: `t` is z^(2i+1), `z2` is z². -/
def atanhSum : Nat → Nat → Nat → Nat → Nat
  | 0, _, _, _ => 0
  | k + 1, i, t, z2 => t / (2 * i + 1) + atanhSum k (i + 1) ((t * z2) >>> fxBits) z2

/-- ln of p / q for 1 ≤ p / q ≤ 2, in units of 2^−192. -/
def fxLn (p q : Nat) : Nat :=
  let z := ((p - q) * 2 ^ fxBits) / (p + q)
  2 * atanhSum 70 0 z ((z * z) >>> fxBits)

/-- ln 2 in units of 2^−192. -/
def fxLn2 : Nat := fxLn 2 1

/-- Σ x^n / n! from term n on: `t` is x^n / n!. -/
def expSum : Nat → Nat → Nat → Nat → Nat
  | 0, _, _, _ => 0
  | k + 1, n, t, x => t + expSum k (n + 1) (((t * x) >>> fxBits) / (n + 1)) x

/-- EXP2 (R535): exact where 2^A is an FP32 value; otherwise 2^A is irrational and 192 bits decide the rounding. -/
def vExp2 (a : Nat) : VRes :=
  match d32 a with
  | .nan => { bits := nan32 }
  | .inf s => { bits := if s then 0 else infBits 2 false }
  | .fin s m e =>
    if m = 0 then { bits := 0x3F800000 }
    else if floorLog m e < -27 then { bits := 0x3F800000 }
    else if 8 ≤ floorLog m e then
      if s then { bits := 0, tiny := true } else { bits := infBits 2 false, ovf := true }
    else
      -- A = i + f with 0 ≤ f < 1, in units of 2^e or of 1
      let u := unitsOf s m e (min e 0)
      let d : Int := 2 ^ (-(min e 0)).toNat
      let i := u / d
      let f := (u % d).toNat
      if f = 0 then (roundFin 2 false 1 i).toVRes
      else
        let x := (((f * 2 ^ fxBits) / d.toNat) * fxLn2) >>> fxBits
        stickyRound false (expSum 60 0 (2 ^ fxBits) x) false (i - fxBits)

/-- LOG2 (R535): exact at powers of 2; otherwise irrational, and 192 bits decide the rounding. -/
def vLog2 (a : Nat) : VRes :=
  match d32 a with
  | .nan => { bits := nan32 }
  | .inf s => if s then { bits := nan32, made := true } else { bits := infBits 2 false }
  | .fin s m e =>
    if m = 0 then { bits := infBits 2 true }
    else if s then { bits := nan32, made := true }
    else
      let k := floorLog m e
      let p := 2 ^ Nat.log2 m
      if m = p then (if k = 0 then { bits := 0 } else (roundFin 2 (k < 0) k.natAbs 0).toVRes)
      else
        let l : Int := ((fxLn m p) * 2 ^ fxBits) / fxLn2
        let v := k * 2 ^ fxBits + l
        stickyRound (v < 0) v.natAbs false (-(fxBits : Int))

end Sys2Proof.Machine
end

