-- ==== Sys2Proof/Machine/Product.lean ====
section
/-! DEFINITION. Matrix products: the staging of operands, passes, accumulation, verification and writeback
(05_matrix_cores.md R114 to R139, R539; 06_accumulation.md R143 to R162; 07_backward_pass.md R170 to R179). -/

namespace Sys2Proof.Machine

/-! ## Operand elements -/

/-- An operand element as a cell reads it: its real and imaginary values before the scale, its scale exponent, and the
SOURCE of R111 where the element enters as NaN through its scale or its poisoned word (0 otherwise). -/
structure Elm where
  re  : Val := .fin false 0 0
  im  : Val := .fin false 0 0
  sc  : Int := 0
  src : Nat := 0
  deriving Repr, Inhabited

/-- A padding cell (R120). -/
def Elm.zero : Elm := {}

/-- An element from its raw parts and its scale byte: a scale of 0xFF, or one in a poisoned word, makes it NaN with SOURCE 3;
a poisoned data word makes it NaN from its operand (R98, R229). -/
def mkElm (fmt : Nat) (re im : RawElem) (scale : Option RawElem) : Elm :=
  let bad := match scale with | some (b, p) => p || b == 255 | none => false
  if bad then { re := .nan, im := .nan, src := 3 }
  else
    let sc : Int := match scale with | some (b, _) => (b : Int) - 127 | none => 0
    let v (e : RawElem) : Val := if e.2 then .nan else decodeVal fmt e.1
    { re := v re, im := v im, sc := sc }

/-- The high and low parts of an FP32 value (R90). -/
def hiPart : Val → Val
  | .fin s m e => .fin s (m / 4096 * 4096) e
  | v => v
def loPart : Val → Val
  | .fin s m e => .fin s (m % 4096) e
  | v => v

/-- A value is finite. -/
def Val.finite : Val → Bool
  | .fin _ _ _ => true
  | _ => false

/-- The product of a cell pair in FP32 pass `j` (R121, R539); 16-bit operands have one pass of the whole values. -/
def passProduct (fp32 : Bool) (j : Nat) (a b : Val) : Val :=
  if !fp32 then a.mul b
  else if !a.finite || !b.finite then (if j = 1 then a.mul b else .fin false 0 0)
  else match j with
    | 1 => (hiPart a).mul (hiPart b)
    | 2 => (loPart a).mul (hiPart b)
    | 3 => (hiPart a).mul (loPart b)
    | _ => (loPart a).mul (loPart b)

/-- A pre-sum of the Gauss form: the exact sum rounded once to the operand's format (R123). -/
def preSum (fmt : Nat) (a b : Val) : Val := decodeVal fmt (roundVal fmt (a.add b)).bits

/-- A complex pass: the streamed and stationary values it takes from an element pair, the component it enters, and whether
it enters negated (R122). -/
structure CPass where
  a   : Elm → Val
  b   : Elm → Val
  ins : List (Nat × Bool)

/-- The passes of a chunk over complex or real elements (R122). -/
def complexPasses (cplx gauss : Bool) (fa fb : Nat) : List CPass :=
  if !cplx then [{ a := fun x => x.re, b := fun y => y.re, ins := [(0, false)] }]
  else if gauss then
    [{ a := fun x => preSum fa x.re x.im, b := fun y => y.re, ins := [(0, false), (1, false)] },
     { a := fun x => x.re, b := fun y => preSum fb y.im y.re.negate, ins := [(1, false)] },
     { a := fun x => x.im, b := fun y => preSum fb y.re y.im, ins := [(0, true)] }]
  else
    [{ a := fun x => x.re, b := fun y => y.re, ins := [(0, false)] },
     { a := fun x => x.im, b := fun y => y.re, ins := [(1, false)] },
     { a := fun x => x.re, b := fun y => y.im, ins := [(1, false)] },
     { a := fun x => x.im, b := fun y => y.im, ins := [(0, true)] }]

/-- Some part of an element is NaN. -/
def Elm.isNan (x : Elm) : Bool := x.re.isNan || x.im.isNan

/-- The SOURCE of a NaN product: consumed through a scale, from A or from B, or produced, as a pre-sum of opposite infinities is
(R104, R111, R123). Where several NaNs meet in one product it names a scale first, then A, then B. [Log entry 129: DESIGN CHOICE] -/
def nanSource (x y : Elm) (a b : Val) : Nat :=
  if x.src ≠ 0 then x.src else if y.src ≠ 0 then y.src
  else if a.isNan then (if x.isNan then 1 else 0)
  else if b.isNan then (if y.isNan then 2 else 0)
  else 0

/-! ## Accumulation (R144, R145, R153, R155, R156) -/

/-- A running sum with the NaN and range events its element has met. -/
structure Sum where
  acc : Acc
  evs : List EvKind := []
  deriving Repr, Inhabited

/-- One SR update with a tree sum (R144, R145, R146); `src` is the SOURCE of a NaN tree sum. -/
def srUpdate (u : Sum) (t : Val) (src : Nat) (d : Nat) : Sum :=
  match u.acc with
  | .quince _ _ _ _ => u
  | .fp bits =>
    let v := d32 bits
    match v.add t with
    | .nan =>
      let ev := if t.isNan then [EvKind.nan src] else if v.isNan then [] else [EvKind.nan 0]
      { acc := .fp nan32, evs := u.evs ++ ev }
    | .inf s => { acc := .fp (infBits 2 s), evs := u.evs }
    | .fin s m e =>
      let r := srRound s m e d
      { acc := .fp r.bits, evs := u.evs ++ (if r.ovf then [EvKind.range 0] else []) ++ (if r.tiny then [EvKind.tiny] else []) }

/-- One product enters a Quince accumulator (R155, R156). -/
def quinceTerm (u : Sum) (t : Val) (src : Nat) : Sum :=
  match u.acc with
  | .fp _ => u
  | .quince q p n k =>
    match t with
    | .fin s m e => { u with acc := .quince (q + unitsOf s m e (-48)) p n k }
    | .nan => { acc := .quince q p n true, evs := u.evs ++ [EvKind.nan src] }
    | .inf s =>
      let clash := if s then p && !n else n && !p
      { acc := .quince q (p || !s) (n || s) k, evs := u.evs ++ (if clash then [EvKind.nan 0] else []) }

/-- The products of one chunk for one result element in one pass, in order of k, each with its SOURCE. -/
def chunkTerms (fp32 : Bool) (j : Nat) (p : CPass) (xs ys : List Elm) : List (Val × Nat) :=
  (xs.zip ys).map fun (x, y) =>
    let a := p.a x
    let b := p.b y
    ((passProduct fp32 j a b).scale (x.sc + y.sc), nanSource x y a b)

/-- The exact tree sum and the SOURCE of its first NaN product, in order of k (R117, R145). [Log entry 129: DESIGN CHOICE] -/
def treeSum (ts : List (Val × Nat)) : Val × Nat :=
  (ts.foldl (fun a t => a.add t.1) (.fin false 0 0), ((ts.find? fun t => t.1.isNan).map fun t => t.2).getD 0)

/-- The parameters of a part's accumulation: the descriptor, the packet key and the item's logical number. -/
structure AccCtx where
  d  : Prod
  pk : Nat × Nat
  w  : Nat

/-- One chunk's updates of both components of a result element (m, n), in the order of R147. -/
def chunkUpdates (c : AccCtx) (m n chunk : Nat) (xs ys : List Elm) (us : Sum × Sum) : Sum × Sum :=
  let fp32 := ffFormat c.d.fa = 2
  let bare (e : Elm) : Elm := if c.d.quince then { e with sc := 0 } else e
  let xs := xs.map bare
  let ys := ys.map bare
  let passes := complexPasses c.d.cplx c.d.gauss (ffFormat c.d.fa) (ffFormat c.d.fb)
  (passes.mapIdx fun i p => (i, p)).foldl (fun us (i, p) =>
    (List.range c.d.qf).foldl (fun us j =>
      let ts := chunkTerms fp32 (j + 1) p xs ys
      p.ins.foldl (fun us (comp, neg) =>
        let u := if comp = 0 then us.1 else us.2
        let u' :=
          if c.d.quince then
            ts.foldl (fun u t => quinceTerm u (if neg then t.1.negate else t.1) t.2) u
          else
            let t := treeSum ts
            srUpdate u (if neg then t.1.negate else t.1) t.2
              (drawOf c.pk c.w m (n % 64) chunk (i * c.d.qf + j) comp)
        if comp = 0 then (u', us.2) else (us.1, u')) us) us) us

/-- A part's accumulation of one result element: the chunks in order. -/
def partSum (c : AccCtx) (m n : Nat) (chunks : List (Nat × List Elm × List Elm)) (init : Sum × Sum) : Sum × Sum :=
  chunks.foldl (fun us x => chunkUpdates c m n x.1 x.2.1 x.2.2 us) init

/-! ## Staging (R134, R120) -/

/-- Read an element of an operand: its parts and its scale byte. -/
def Rdr.elm (r : Rdr) (t : Tensor) (fmt : Nat) (cplx : Bool) (idx : Nat) (scale : Option (Tensor × Nat)) : Elm × Rdr :=
  let k := fmtBytes fmt
  let (re, r1) := r.elems t k (if cplx then 2 * idx else idx) 1
  let (im, r2) := if cplx then r1.elems t k (2 * idx + 1) 1 else ([(0, false)], r1)
  match scale with
  | none => (mkElm fmt (lget re 0 (0, false)) (lget im 0 (0, false)) none, r2)
  | some (u, c) =>
    let (sb, r3) := r2.elems u 1 c 1
    (mkElm fmt (lget re 0 (0, false)) (lget im 0 (0, false)) (some (lget sb 0 (0, false))), r3)

/-- Read a list of elements. -/
def Rdr.elmList (r : Rdr) (f : Rdr → Nat → Elm × Rdr) : List Nat → List Elm × Rdr
  | [] => ([], r)
  | i :: is =>
    let (e, r1) := f r i
    let (es, r2) := r1.elmList f is
    (e :: es, r2)

/-- A product's tensors as dispatched. -/
structure ProdTensors where
  d  : Prod
  a  : Tensor
  b  : Tensor
  c  : Tensor
  sa : Option Tensor
  sb : Option Tensor
  sc : Option Tensor

/-- The tensors of a product packet's work. -/
def State.prodTensors (s : State) (w : Work) : Option ProdTensors := do
  let j ← w.slot
  let d := w.pkt.prod
  let a ← s.tensorKept j d.a
  let b ← s.tensorKept j d.b
  let c ← s.tensorKept j d.c
  some { d := d, a := a, b := b, c := c, sa := s.tensorKept j d.sa, sb := s.tensorKept j d.sb, sc := s.tensorKept j d.sc }

/-- Row m of A over the indices ks. -/
def Rdr.rowA (r : Rdr) (t : ProdTensors) (m : Nat) (ks : List Nat) : List Elm × Rdr :=
  r.elmList (fun r k => r.elm t.a (ffFormat t.d.fa) t.d.cplx (t.d.idxA m k) (t.sa.map fun u => (u, t.d.cellA m k))) ks

/-- Column n of B over the indices ks. -/
def Rdr.colB (r : Rdr) (t : ProdTensors) (n : Nat) (ks : List Nat) : List Elm × Rdr :=
  r.elmList (fun r k => r.elm t.b (ffFormat t.d.fb) t.d.cplx (t.d.idxB k n) (t.sb.map fun u => (u, t.d.cellB k n))) ks

/-- Several rows or columns. -/
def Rdr.lines (r : Rdr) (f : Rdr → Nat → List Elm × Rdr) : List Nat → List (Nat × List Elm) × Rdr
  | [] => ([], r)
  | i :: is =>
    let (e, r1) := f r i
    let (es, r2) := r1.lines f is
    ((i, e) :: es, r2)

/-! ## Masks (R176 to R179) -/

/-- Element (m, n) is computed: the mask's bit is 1, or there is no mask. -/
def maskOn (mask : List Word) (d : Prod) (m n : Nat) : Bool :=
  match mask with
  | [] => true
  | h :: bits =>
    let i := if fld h 0 2 = 0 then m else m / 64 * d.tileCols + n / 64
    bitOf (lget bits (i / 64) 0) (i % 64)

/-- Masked elements are written as +0. -/
def maskWrites (mask : List Word) : Bool := match mask with | [] => false | h :: _ => bitOf h 2

/-- The result rows of row group g and the columns of tile column n. -/
def Prod.itemRows (d : Prod) (g : Nat) : List Nat := (List.range (min 256 (d.m - 256 * g))).map fun i => 256 * g + i
def Prod.itemCols (d : Prod) (n : Nat) : List Nat := (List.range (min 64 (d.n - 64 * n))).map fun i => 64 * n + i

/-- The items of a product in logical order; one whose every element is masked is skipped (R138, R175). -/
def Prod.items (d : Prod) (mask : List Word) : List Item :=
  (List.range d.itemCount).map fun w =>
    let n := w % d.tileCols
    let g := w / d.tileCols % d.rowGroups
    let skip := !((d.itemRows g).any fun m => (d.itemCols n).any fun c => maskOn mask d m c)
    { num := w, part := w / d.tileCols / d.rowGroups, g := g, n := n, skipped := skip, finished := skip }

/-! ## An item's work (R137, R144, R160) -/

/-- The initial running sum of an element: +0, C's element under ACC_C for part 0, or an empty Quince accumulator
(R135, R144, R155). -/
def Rdr.initSum (r : Rdr) (t : ProdTensors) (part m n : Nat) : (Sum × Sum) × Rdr :=
  if t.d.quince then
    (({ acc := .quince 0 false false false }, { acc := .quince 0 false false false }), r)
  else if !t.d.accC || part ≠ 0 then (({ acc := .fp 0 }, { acc := .fp 0 }), r)
  else
    let scale := if ffDir t.d.fc = 0 then none else t.sc.map fun u => (u, outputCell t.d.fc t.d.m t.d.n m n)
    let (e, r1) := r.elm t.c (ffFormat t.d.fc) t.d.cplx (m * t.d.n + n) scale
    let one (v : Val) : Sum :=
      match v with
      | .nan => { acc := .fp nan32, evs := [.nan (if e.src = 3 then 3 else 4)] }
      | v =>
        let q := roundVal 2 (v.scale e.sc)
        { acc := .fp q.bits, evs := (if q.ovf then [.range 0] else []) ++ (if q.tiny then [.tiny] else []) }
    ((one e.re, if t.d.cplx then one e.im else { acc := .fp 0 }), r1)

/-- A silent error's difference in a running sum. -/
def Acc.bump (a : Acc) (delta : Int) : Acc :=
  match a with
  | .fp b => .fp (((b : Int) + delta) % 2 ^ 32).toNat
  | .quince q p n k => .quince (q + delta) p n k

/-- The difference that the errors make at a component of an element. [Log entry 50: DESIGN CHOICE] -/
def errAt (errs : List SilentErr) (m n comp : Nat) : Int :=
  ((errs.filter fun e => e.row == m && e.col == n && e.comp == comp).map fun e => e.delta).foldl (· + ·) 0

/-- The cells and events of one element. -/
def elementCells (d : Prod) (errs : List SilentErr) (m n : Nat) (us : Sum × Sum) : List AccCell × List NumEv :=
  let ev (k : EvKind) : NumEv := { kind := k, vector := false, row := m, col := n }
  let re : AccCell := { row := m, col := n, comp := 0, val := us.1.acc.bump (errAt errs m n 0) }
  if d.cplx then
    ([re, { row := m, col := n, comp := 1, val := us.2.acc.bump (errAt errs m n 1) }], (us.1.evs ++ us.2.evs).map ev)
  else ([re], us.1.evs.map ev)

/-- The elements of an item that are computed. -/
def Prod.itemElems (d : Prod) (mask : List Word) (i : Item) : List (Nat × Nat) :=
  (d.itemRows i.g).flatMap fun m => ((d.itemCols i.n).filter fun n => maskOn mask d m n).map fun n => (m, n)

/-- Look up a line of staged elements. -/
def lineOf (ls : List (Nat × List Elm)) (i : Nat) : List Elm := ((ls.find? fun l => l.1 == i).map fun l => l.2).getD []

/-- Run a work item: stage its operands, accumulate, and give its running sums and events. -/
def Rdr.runItem (r : Rdr) (t : ProdTensors) (w : Work) (i : Item) (errs : List SilentErr) :
    List AccCell × List NumEv × Rdr :=
  let d := t.d
  let (lo, hi) := d.partRange d.parts i.part
  let ks := (List.range (min (64 * hi) d.k - 64 * lo)).map fun k => 64 * lo + k
  let es := d.itemElems w.mask i
  let (rows, r1) := r.lines (fun r m => r.rowA t m ks) (es.map Prod.fst).eraseDups
  let (cols, r2) := r1.lines (fun r n => r.colB t n ks) (es.map Prod.snd).eraseDups
  let c : AccCtx := { d := d, pk := (w.pk0, w.pk1), w := i.num }
  es.foldl (fun (cells, evs, r) (m, n) =>
    let (init, r') := r.initSum t i.part m n
    let a := lineOf rows m
    let b := lineOf cols n
    let chunks := (List.range (hi - lo)).map fun q => (lo + q, (a.drop (64 * q)).take 64, (b.drop (64 * q)).take 64)
    let o := elementCells d errs m n (partSum c m n chunks init)
    (cells ++ o.1, evs ++ o.2, r')) ([], [], r2)

/-! ## Verification (R160, R161) -/

/-- A finite operand value, and +0 for one that is not (R160). -/
def Val.orZero (v : Val) : Val := if v.finite then v else .fin false 0 0

/-- The sum of operand lines, element by element: a checksum row or column (R160). -/
def sumLines (n : Nat) (ls : List (List Elm)) : List Elm :=
  ls.foldl (fun a b => a.zipWith (fun x y => { re := x.re.add y.re.orZero, im := x.im.add y.im.orZero }) b) (List.replicate n {})

/-- Component `comp` of the exact sum of products of two lines, in units of 2^-48. -/
def exactDot (comp : Nat) (xs ys : List Elm) : Int :=
  let units (v : Val) : Int := match v with | .fin s m e => unitsOf s m e (-48) | _ => 0
  ((xs.zip ys).map fun (x, y) =>
    if comp = 0 then units (x.re.orZero.mul y.re.orZero) - units (x.im.orZero.mul y.im.orZero)
    else units (x.im.orZero.mul y.re.orZero) + units (x.re.orZero.mul y.im.orZero)).foldl (· + ·) 0

/-- The sum of a component of the accumulated values of the cells that `p` names. -/
def cellSum (cells : List AccCell) (comp : Nat) (p : AccCell → Bool) : Int :=
  ((cells.filter fun c => c.comp == comp && p c).map fun c => match c.val with | .quince q _ _ _ => q | .fp _ => 0).foldl (· + ·) 0

/-- The output tiles of an item whose row or column check fails: the sums of the accumulated values against the products with the
checksum row and column, for each component and over the elements that the mask leaves (R160, R161, R177). -/
def Rdr.failedTiles (r : Rdr) (t : ProdTensors) (w : Work) (i : Item) (cells : List AccCell) : List Nat :=
  let d := t.d
  let (lo, hi) := d.partRange d.parts i.part
  let ks := (List.range (min (64 * hi) d.k - 64 * lo)).map fun k => 64 * lo + k
  let all := d.itemElems w.mask i
  let (rows, r1) := r.lines (fun r m => r.rowA t m ks) (all.map Prod.fst).eraseDups
  let (cols, _) := r1.lines (fun r n => r.colB t n ks) (all.map Prod.snd).eraseDups
  (List.range 4).filter fun a =>
    let es := all.filter fun e => e.1 / 64 % 4 == a
    (List.range (if d.cplx then 2 else 1)).any fun comp =>
      (es.map Prod.fst).eraseDups.any (fun m =>
        cellSum cells comp (fun c => c.row == m)
          ≠ exactDot comp (lineOf rows m) (sumLines ks.length ((es.filter fun e => e.1 == m).map fun e => lineOf cols e.2)))
      || (es.map Prod.snd).eraseDups.any fun n =>
        cellSum cells comp (fun c => c.col == n && c.row / 64 % 4 == a)
          ≠ exactDot comp (sumLines ks.length ((es.filter fun e => e.2 == n).map fun e => lineOf rows e.1)) (lineOf cols n)

/-! ## The weight tile buffer (R114, R116 to R119, R121, R122) -/

/-- The stationary tiles of a chunk in the order in which they are loaded: the values that a pass takes from an element, and the part
of each that the cells hold: 0 whole, 1 high, 2 low. Passes that follow one another on one tile load it once. -/
def stationaryTiles (d : Prod) : List ((Elm → Val) × Nat) :=
  let parts := if ffFormat d.fa = 2 then [1, 2] else [0]
  let takes : List (Elm → Val) :=
    if !d.cplx then [fun y => y.re]
    else if d.gauss then [fun y => y.re, fun y => preSum (ffFormat d.fb) y.im y.re.negate, fun y => preSum (ffFormat d.fb) y.re y.im]
    else if parts.length = 1 then [fun y => y.re, fun y => y.im]
    else [fun y => y.re, fun y => y.re, fun y => y.im, fun y => y.im]
  takes.flatMap fun f => parts.map fun p => (f, p)

/-- The cells of one stationary tile that are not +0: in column mode the tile is the forward weights', whose rows are the result's
columns (R117, R118, R173). -/
def tileCells (d : Prod) (chunk : Nat) (cols : List (Nat × List Elm)) (f : Elm → Val) (part : Nat) : List (Nat × Nat × Nat) :=
  cols.flatMap fun (n, l) => (l.mapIdx fun k y => (k, y)).filterMap fun (k, y) =>
    let v := f y
    let v' := if part = 1 then hiPart v else if part = 2 then loPart v else v
    let bits := (roundVal (ffFormat d.fb) v').bits
    if bits = 0 || k / 64 ≠ chunk then none
    else some (if d.op = 0x31 then n % 64 * 64 + k % 64 else k % 64 * 64 + n % 64, bits, part)

/-- The weight tile buffer of a core. -/
def State.weightBuf (s : State) (g : Nat) : WeightBuf := (s.weights.find? fun b => b.core == g).getD { core := g }

/-- The tiles that a product item leaves in its core's buffer: the last one active, and the one before it (R119).
[Log entry 134: DESIGN CHOICE] -/
def State.loadTiles (s : State) (t : ProdTensors) (w : Work) (i : Item) (g : Nat) (r : Rdr) : State :=
  let d := t.d
  let (lo, hi) := d.partRange d.parts i.part
  let from_ := max lo (hi - 2)
  let ks := (List.range (min (64 * hi) d.k - 64 * from_)).map fun k => 64 * from_ + k
  let (cols, _) := r.lines (fun r n => r.colB t n ks) ((d.itemElems w.mask i).map Prod.snd).eraseDups
  let tiles := (List.range (hi - from_)).flatMap fun q => (stationaryTiles d).map fun (f, p) => tileCells d q cols f p
  let old := s.weightBuf g
  let new : WeightBuf := tiles.foldl (fun b t => { b with active := t, shadow := b.active }) old
  { s with weights := s.weights.filter (fun b => b.core != g) ++ [new] }

/-! ## Writeback (R97 to R101, R153, R157) -/

/-- The pairwise tree over partial sums, with the events of its additions (R153). -/
def pairLevel (f : Nat → Nat → VRes) : List Nat → List Nat × List VRes
  | a :: b :: t =>
    let r := f a b
    let (xs, es) := pairLevel f t
    (r.bits :: xs, r :: es)
  | [a] => ([a], [])
  | [] => ([], [])

/-- Level after level until one sum remains. -/
def pairTree (f : Nat → Nat → VRes) : Nat → List Nat → Nat × List VRes
  | 0, xs => (xs.headD 0, [])
  | k + 1, xs =>
    match xs with
    | [] => (0, [])
    | [a] => (a, [])
    | _ =>
      let (ys, es) := pairLevel f xs
      let (r, es') := pairTree f k ys
      (r, es ++ es')

/-- The events of FP32 results: produced NaNs with SOURCE 0, overflows and tiny results. -/
def vresEvents (rs : List VRes) : List EvKind :=
  rs.flatMap fun r =>
    (if r.made then [EvKind.nan 0] else []) ++ (if r.ovf then [EvKind.range 0] else []) ++ (if r.tiny then [EvKind.tiny] else [])

/-- Combine the parts of one component of an element (R153, R156): its value before writeback, and events. -/
def combineParts (as : List Acc) : Val × List EvKind :=
  match as with
  | [] => (.fin false 0 0, [])
  | .quince _ _ _ _ :: _ =>
    let r := as.foldl (fun (q, p, n, k, e) a => match a with
      | .quince q' p' n' k' => (q + q', p || p', n || n', k || k', e || ((p || p') && (n || n') && !(p && n) && !(p' && n')))
      | .fp _ => (q, p, n, k, e)) ((0 : Int), false, false, false, false)
    let (q, p, n, k, e) := r
    let v := if k || (p && n) then .nan else if p then .inf false else if n then .inf true else .fin (q < 0) q.natAbs (-48)
    (v, if e then [.nan 0] else [])
  | .fp _ :: _ =>
    let bs := as.map fun a => match a with | .fp b => b | .quince _ _ _ _ => 0
    let (b, rs) := pairTree vSum bs.length bs
    (d32 b, vresEvents rs)

/-- An element ready for writeback: its position, the values of its components before writeback, the core of its first
part, and its item's standing: fed by a poisoned word, or lost to failed checks. -/
structure OutElem where
  m    : Nat
  n    : Nat
  vals : List Val
  evs  : List EvKind
  core : Nat
  bad  : Bool
  lost : Bool
  deriving Repr, Inhabited

/-- A SCALE_DIR 4 scale exponent of a Quince operand at writeback; none when the scale makes the element NaN (R97, R98,
R157). -/
def Rdr.quinceScale (r : Rdr) (u : Option Tensor) (cell : Nat) : Option Int × Rdr :=
  match u with
  | none => (some 0, r)
  | some t =>
    let (b, r1) := r.elems t 1 cell 1
    let e := lget b 0 (255, true)
    (if e.2 || e.1 = 255 then none else some ((e.1 : Int) - 127), r1)

/-- The items of an element's parts, in part order. -/
def Work.partItems (w : Work) (m n : Nat) : List Item := w.items.filter fun i => i.g == m / 256 && i.n == n / 64

/-- Component `c` of an element in an item. -/
def Item.cellAcc (i : Item) (m n c : Nat) : Acc :=
  ((i.acc.find? fun a => a.row == m && a.col == n && a.comp == c).map fun a => a.val).getD (.fp 0)

/-- Gather one element's parts and combine them (R153, R156, R157). -/
def Rdr.outElem (r : Rdr) (t : ProdTensors) (w : Work) (m n : Nat) : OutElem × Rdr :=
  let is := w.partItems m n
  let comps := (List.range (if t.d.cplx then 2 else 1)).map fun c => combineParts (is.map fun i => i.cellAcc m n c)
  let (sa, r1) := if t.d.quince && ffDir t.d.fa = 4 then r.quinceScale t.sa (t.d.cellA m 0) else (some 0, r)
  let (sb, r2) := if t.d.quince && ffDir t.d.fb = 4 then r1.quinceScale t.sb (t.d.cellB 0 n) else (some 0, r1)
  let scale (v : Val) : Val := match sa, sb with
    | some x, some y => v.scale (x + y)
    | _, _ => .nan
  ({ m := m, n := n, vals := comps.map fun c => scale c.1, evs := comps.flatMap Prod.snd
     core := (is.head?.map fun i => i.ran).getD 0, bad := is.any fun i => i.poisoned
     lost := is.any fun i => i.lost.contains (m / 64 % 4) }, r2)

/-- Every element of a list of positions. -/
def Rdr.outElems (r : Rdr) (t : ProdTensors) (w : Work) : List (Nat × Nat) → List OutElem × Rdr
  | [] => ([], r)
  | (m, n) :: t' =>
    let (o, r1) := r.outElem t w m n
    let (os, r2) := r1.outElems t w t'
    (o :: os, r2)

/-- The output scale code of a block: chosen from its unmasked elements under DERIVE, otherwise read from SC; a byte of a
poisoned word counts as 0xFF (R98 to R100, R178). -/
def Rdr.outScale (r : Rdr) (t : ProdTensors) (os : List OutElem) (cell : Nat) : Nat × Rdr :=
  if ffDerive t.d.fc then
    (deriveScale (ffFormat t.d.fc)
      ((os.filter fun o => outputCell t.d.fc t.d.m t.d.n o.m o.n == cell).flatMap fun o => o.vals), r)
  else match t.sc with
    | none => (127, r)
    | some u =>
      let (b, r1) := r.elems u 1 cell 1
      let e := lget b 0 (255, true)
      (if e.2 then 255 else e.1, r1)

/-- The output scale codes of the blocks that the elements lie in. -/
def Rdr.outScales (r : Rdr) (t : ProdTensors) (os : List OutElem) : List Nat → List (Nat × Nat) × Rdr
  | [] => ([], r)
  | c :: cs =>
    let (x, r1) := r.outScale t os c
    let (xs, r2) := r1.outScales t os cs
    ((c, x) :: xs, r2)

/-- The bytes of an element's components in the result format under a scale code, with its writeback events (R99, R101,
R102). -/
def outBytes (d : Prod) (code : Option Nat) (o : OutElem) : List Byte × List EvKind :=
  let f := ffFormat d.fc
  o.vals.foldl (fun (bs, es) v =>
    let q := roundVal f (match code with | some c => applyOutScale c v | none => v)
    (bs ++ natBytes (fmtBytes f) q.bits,
     es ++ (if q.ovf then [EvKind.range 1] else []) ++ (if q.tiny then [EvKind.tiny] else []))) ([], [])

/-- `k` bytes of a free value, for contents the spec calls undefined (R74, R162). [Log entry 26: DESIGN CHOICE] -/
def State.freeBytes (s : State) (k : Nat) : List Byte × State :=
  ((List.range ((k + 7) / 8)).flatMap (fun i => wordBytes (Config.freeWord (s.freeCount + i))) |>.take k,
   { s with freeCount := s.freeCount + (k + 7) / 8 })

/-- What an element's place in C receives: `none` leaves it. -/
structure OutCell where
  off   : Nat
  bytes : List Byte
  bad   : Bool
  core  : Nat
  deriving Repr, Inhabited

/-- The cells of the computed elements; a lost element's bytes are free values (R162). -/
def State.outCells (s : State) (d : Prod) (codes : List (Nat × Nat)) : List OutElem → List OutCell × List (Nat × NumEv) × State
  | [] => ([], [], s)
  | o :: os =>
    let k := fmtBytes (ffFormat d.fc) * (if d.cplx then 2 else 1)
    let off := (o.m * d.n + o.n) * k
    let ev (e : EvKind) : Nat × NumEv := (o.core, { kind := e, vector := false, row := o.m, col := o.n })
    if o.lost then
      let (b, s1) := s.freeBytes k
      let (cs, es, s2) := s1.outCells d codes os
      ({ off := off, bytes := b, bad := false, core := o.core } :: cs, es, s2)
    else
      let code := if ffDir d.fc = 0 then none else some ((kvGet codes (outputCell d.fc d.m d.n o.m o.n)).getD 127)
      let (b, es1) := outBytes d code o
      let (cs, es, s2) := s.outCells d codes os
      ({ off := off, bytes := b, bad := o.bad, core := o.core } :: cs, ((o.evs ++ es1).map ev) ++ es, s2)

/-- The masked elements, written as +0 where MASKED_WRITE is 1 (R176, R178). -/
def maskedCells (d : Prod) (mask : List Word) (core : Nat) : List OutCell :=
  if !maskWrites mask then []
  else
    let k := fmtBytes (ffFormat d.fc) * (if d.cplx then 2 else 1)
    (List.range d.m).flatMap fun m => ((List.range d.n).filter fun n => !maskOn mask d m n).map fun n =>
      { off := (m * d.n + n) * k, bytes := List.replicate k 0, bad := false, core := core }

/-! ## Writing results (R63, R229, R230, R487) -/

/-- A word read over the fabric for a packet, with bytes that the packet writes over it. -/
def State.fetchedOver (s : State) (pid a : Nat) (bs : List (Option (Byte × Bool))) : Word × Bool :=
  let (w, p) := (kvGet s.fetched (fetchKey pid a)).getD (0, false)
  let dirty := bs.any fun o => match o with | some (_, b) => b | none => false
  (mergeBytes w bs, dirty || (p && !(bs.length = 8 && bs.all Option.isSome)))

/-- What a packet writes to a spilled tensor, it reads back (R130): the words that it holds of the tensor take the bytes. -/
def State.keepWritten (s : State) (pid a : Nat) (bs : List (Option (Byte × Bool))) : State :=
  let lo := a / 8
  let all := List.replicate (a % 8) none ++ bs
  { s with fetched := (List.range ((a + bs.length + 7) / 8 - lo)).foldl (fun f i =>
      let h := (all.drop (8 * i)).take 8
      kvPut f (fetchKey pid (8 * (lo + i))) (some (s.fetchedOver pid (8 * (lo + i)) (h ++ List.replicate (8 - h.length) none)))) s.fetched }

/-- A write of result bytes that its core's staging engine may make (R487): its pages are checked one by one, and the first
that fails is logged and noted on the packet (R209). [Log entry 26: DESIGN CHOICE] -/
def State.putResult (s : State) (w : Work) (t : Tensor) (c : OutCell) : State :=
  let x : OpCtx := { master := mStaging c.core, slot := w.slot.getD 15, fjob := w.fjob, seq := w.pkt.seq, pid := w.pid }
  let bs := c.bytes.map fun b => some (b, c.bad)
  match t.spill with
  | some a => (s.writeTensor x w.pid t c.off bs).keepWritten w.pid (a.toNat + c.off) bs
  | none =>
    match s.rangeCheck x .write t.tile (t.off + c.off) (c.bytes.length / 4096 + 2) c.bytes.length with
    | none => s.putBytes t.tile (t.off + c.off) bs x
    | some (r, o) => (s.logRes x r t.tile o (s.globalAddr t.tile o)).noteFail w.pid r.status.1 r.status.2

/-- Join cells that follow one another in memory on one core: one operation, as far as a 4 KiB page reaches. -/
def joinCells : List OutCell → List OutCell
  | [] => []
  | c :: t =>
    match joinCells t with
    | d :: r =>
      if d.core = c.core && d.bad = c.bad && c.off + c.bytes.length = d.off && d.off % 4096 ≠ 0 then
        { c with bytes := c.bytes ++ d.bytes } :: r
      else c :: d :: r
    | [] => [c]

/-- Write result cells. -/
def State.putResults (s : State) (w : Work) (t : Tensor) (cs : List OutCell) : State :=
  (joinCells (cs.mergeSort fun a b => a.off ≤ b.off)).foldl (fun s c => s.putResult w t c) s

/-- The word of a tensor's byte holds the poison flag: as stored, or for a spilled tensor as the packet wrote it. -/
def State.bytePoisoned (s : State) (t : Tensor) (cs : List OutCell) (off : Nat) : Bool :=
  match t.spill with
  | some a => cs.any fun c => c.bad && overlaps (a.toNat + c.off) c.bytes.length ((a.toNat + off) / 8 * 8) 8
  | none =>
    match s.resolve t.tile (t.off + off) with
    | none => false
    | some p => cwPoison (eccFix (s.readCw (placeKey p))).1

/-- The bytes of SC that DERIVE writes, once C is written: 0xFF where a data word of the block was written poisoned (R100).
[Log entry 45: DEDUCED] -/
def State.deriveCells (s : State) (d : Prod) (c : Tensor) (cs : List OutCell) (core : Nat) (codes : List (Nat × Nat)) :
    List OutCell :=
  let k := fmtBytes (ffFormat d.fc) * (if d.cplx then 2 else 1)
  codes.map fun (cell, code) =>
    let bad := cs.any fun o =>
      outputCell d.fc d.m d.n (o.off / k / d.n) (o.off / k % d.n) == cell
        && (o.bad || s.bytePoisoned c cs o.off || s.bytePoisoned c cs (o.off + k - 1))
    { off := cell, bytes := [BitVec.ofNat 8 (if bad then 255 else code)], bad := false, core := core }

/-- The word keys of a tensor's first `n` bytes on this module, as ranges. -/
def State.tensorKeys (s : State) (t : Tensor) (n : Nat) : List (Nat × Nat) :=
  match t.spill with
  | some _ => []
  | none => (List.range (ceilDiv n 65536)).filterMap fun i =>
      (s.resolve t.tile (t.off + 65536 * i)).map fun p => (placeKey p, placeKey p + ceilDiv (min 65536 (n - 65536 * i)) 8)

/-- Keys from here on name the words of spilled tensors that a packet wrote, which it keeps as it keeps those that it fetched. -/
def awayBase : Nat := 2 ^ 100

/-- The key of a word of a spilled tensor that a packet wrote. -/
def awayKey (pid a : Nat) : Nat := awayBase + fetchKey pid a

/-- The key of the word that holds a byte of a tensor as a packet wrote it: on this module, or sent to the spill module (R246, R393). -/
def State.outKey (s : State) (pid : Nat) (t : Tensor) (off : Nat) : Option Nat :=
  match t.spill with
  | some a => some (awayKey pid (a.toNat + off))
  | none => (s.resolve t.tile (t.off + off)).map placeKey

/-- The data and poison of stored words, by key. -/
def State.captureKeys (s : State) (ks : List (Nat × Nat)) : List OutWord :=
  ks.flatMap fun (lo, hi) => (List.range (hi - lo)).map fun i =>
    if awayBase ≤ lo + i then
      let w := (kvGet s.fetched (lo + i - awayBase)).getD (0, true)
      { addr := lo + i, bits := w.1.toNat, poison := w.2 }
    else
      let c := (eccFix (s.readCw (lo + i))).1
      { addr := lo + i, bits := (cwData c).toNat, poison := cwPoison c }

/-- Store captured words. -/
def State.restoreWords (s : State) (ws : List OutWord) : State :=
  (ws.filter fun w => w.addr < awayBase).foldl (fun s w => s.writeCw w.addr (encodeWord (wd w.bits) w.poison)) s

/-! ## A product's end -/

/-- The positions that are computed (R177). -/
def Prod.computed (d : Prod) (mask : List Word) : List (Nat × Nat) :=
  (List.range d.m).flatMap fun m => ((List.range d.n).filter fun n => maskOn mask d m n).map fun n => (m, n)

/-- Mark every item of a packet as fed by poison. -/
def Work.poisonAll (w : Work) : Work := { w with items := w.items.map fun i => { i with poisoned := true } }

/-- A scale word that the writeback consumes poisoned (R229 to R231): logged, read again from an intact copy, or its outputs
poisoned. -/
def State.consumeScales (s : State) (w : Work) (x : OpCtx) (bad : List BadWord) : Work × State :=
  if bad.isEmpty then (w, s)
  else
    let s1 := s.logConsumed bad x
    if s1.allIntact bad then (w, (bad.foldl State.restage s1).noteReplay w.pid)
    else (w.poisonAll, s1.noteFail w.pid .checkMismatch 0x0140)

/-- Read everything the writeback reads: elements with their Quince scales, and output scale codes. -/
def State.writebackReads (s : State) (t : ProdTensors) (w : Work) (core : Nat) (x : OpCtx) :
    List OutElem × List (Nat × Nat) × Rdr :=
  let (os, r1) := ({ st := s, core := core, x := x } : Rdr).outElems t w (t.d.computed w.mask)
  let blocks := if ffDir t.d.fc = 0 then [] else
    let all := if maskWrites w.mask then (List.range t.d.m).flatMap fun m => (List.range t.d.n).map fun n => (m, n)
      else t.d.computed w.mask
    (all.map fun e => outputCell t.d.fc t.d.m t.d.n e.1 e.2).eraseDups
  let (codes, r2) := r1.outScales t os blocks
  (os, codes, r2)

/-- Write a product's results from its items' running sums, with the events of combination and writeback (R99 to R103,
R153 to R157). `quiet` leaves the events out: they were recorded before, or belong to no packet. -/
def State.writeProduct (s : State) (t : ProdTensors) (w : Work) (quiet : Bool) : State :=
  let core := (w.items.head?.map fun i => i.ran).getD 0
  let x : OpCtx := { master := mStaging core, slot := w.slot.getD 15, fjob := w.fjob, seq := w.pkt.seq, pid := w.pid }
  let (_, _, r0) := s.writebackReads t w core x
  let (w1, s1) := r0.st.consumeScales w x r0.bad
  let (os, codes, r) := s1.writebackReads t w1 core x
  let (cs, es, s2) := r.st.outCells t.d codes os
  let cells := cs ++ maskedCells t.d w1.mask core
  let s3 := s2.putResults w1 t.c cells
  let s4 := match t.sc with
    | some u => if ffDir t.d.fc ≠ 0 && ffDerive t.d.fc then s3.putResults w1 u (s3.deriveCells t.d t.c cells core codes) else s3
    | none => s3
  if quiet then s4
  else es.foldl (fun s e => s.numEvents w1 (w1.slot.getD 0) e.1 (ffRangeTrap t.d.fc) [e.2]) s4

/-- A product's items run again soundly where `p` says, their running sums replaced (R139). -/
def State.recompute (s : State) (t : ProdTensors) (w : Work) (p : Item → Bool) : Work :=
  let x : OpCtx := { master := mSecurity 0, slot := w.slot.getD 15, fjob := w.fjob, seq := w.pkt.seq, pid := w.pid }
  let again (i : Item) : Item :=
    if p i && !i.skipped then
      { i with acc := (({ st := s, core := i.ran, x := x } : Rdr).runItem t w i []).1, lost := [] }
    else i
  { w with items := w.items.map again }

/-- The word keys of one output tile of C and its SC bytes (R392). -/
def State.tileKeys (s : State) (t : ProdTensors) (pid row col : Nat) : List (Nat × Nat) :=
  let k := fmtBytes (ffFormat t.d.fc) * (if t.d.cplx then 2 else 1)
  let rows := (List.range (min 64 (t.d.m - 64 * row))).map fun i => 64 * row + i
  let cols := t.d.itemCols col
  let key (u : Tensor) (off : Nat) : List (Nat × Nat) := ((s.outKey pid u off).map fun k => (k, k + 1)).toList
  let data := rows.flatMap fun m => cols.flatMap fun n =>
    key t.c ((m * t.d.n + n) * k) ++ key t.c ((m * t.d.n + n) * k + k - 1)
  let scales := if ffDir t.d.fc = 0 then [] else match t.sc with
    | none => []
    | some u => rows.flatMap fun m => cols.flatMap fun n => key u (outputCell t.d.fc t.d.m t.d.n m n)
  (data ++ scales).eraseDups

end Sys2Proof.Machine
end

