-- ==== Sys2Proof/Machine/VectorProgram.lean ====
section
/-! DEFINITION. Vector programs: rows, slices, instructions and row reductions (05_matrix_cores.md R125 to R131, R142). -/

namespace Sys2Proof.Machine

/-- A row of a program in progress: the reader, the sixteen temporaries of the present slice, the running reductions by
instruction, and the numeric events met. -/
structure VRow where
  r     : Rdr
  temps : List (Nat × Nat) := []
  sums  : List (Nat × Nat) := []
  evs   : List NumEv := []
  /-- Every word the row writes takes the poison flag (R230). -/
  dirty : Bool := false
  /-- The elements written to spilled tensors, in order: the row sends them once it has run (R246). -/
  away  : List (Tensor × OutCell) := []

/-- What a program's row runs with: its work, its arguments with their tensors, its size, its row, its errors. -/
structure VCtx where
  w    : Work
  args : List (VArg × Option Tensor)
  cols : Nat
  row  : Nat
  core : Nat
  errs : List SilentErr
  /-- The mean gradients that an optimizer reads as argument 1 (R353). -/
  mean : Option (List Nat) := none

/-- A numeric event at column `c` of the row. -/
def VCtx.ev (x : VCtx) (c : Nat) (k : EvKind) : NumEv := { kind := k, vector := true, row := x.row, col := c }

/-- A temporary's lane, as one number. -/
def tempKey (t lane : Nat) : Nat := (t - 0x800) * 128 + lane

/-- Read a source operand at column `c`, as FP32 bits; a temporary not written in this slice reads +0 (R131). -/
def VRow.source (v : VRow) (x : VCtx) (imm o c : Nat) : Nat × VRow :=
  if o = 0xFFF then (imm, v)
  else if isTempNo o then ((kvGet v.temps (tempKey o (c % 128))).getD 0, v)
  else match lget x.args o ({ handle := 0, stride := 0, fmt := 2 }, none) with
    | (_, none) => ((x.mean.map fun g => lget g (x.row * 128 + c) 0).getD 0, v)
    | (a, some t) =>
      let (es, r) := v.r.elems t (fmtBytes a.fmt) (a.base + x.row * a.stride + c) 1
      let e := lget es 0 (0, false)
      ((if e.2 then nan32 else toFp32 a.fmt e.1), { v with r := r })

/-- An element is written: in this module's memory, or held until the row has run, its own later reads finding it (R130, R246). -/
def VRow.place (v : VRow) (x : VCtx) (t : Tensor) (c : OutCell) : VRow :=
  match t.spill with
  | none => { v with r := { v.r with st := v.r.st.putResult x.w t c } }
  | some b =>
    { v with
      r := { v.r with st := v.r.st.keepWritten x.w.pid (b.toNat + c.off) (c.bytes.map fun y => some (y, c.bad)) }
      away := v.away ++ [(t, c)] }

/-- A result enters its destination at column `c`: a temporary, or an argument's element in its format (R126). -/
def VRow.store (v : VRow) (x : VCtx) (d c bits : Nat) : VRow :=
  if isTempNo d then { v with temps := kvPut v.temps (tempKey d (c % 128)) (some bits) }
  else match lget x.args d ({ handle := 0, stride := 0, fmt := 2 }, none) with
    | (_, none) => v
    | (a, some t) =>
      let q := if a.fmt = 2 then { bits := bits } else convertBits 2 a.fmt bits
      let k := fmtBytes a.fmt
      let cell : OutCell := { off := (a.base + x.row * a.stride + c) * k, bytes := natBytes k q.bits, bad := v.dirty, core := x.core }
      { v.place x t cell with
        evs := v.evs ++ (if q.ovf then [x.ev c (.range 1)] else []) ++ (if q.tiny then [x.ev c .tiny] else []) }

/-- The elementwise operations of R129 over FP32 bits; SELECT and the reductions stand apart. -/
def vecOp (op a b cc : Nat) : VRes :=
  match op with
  | 0x01 => vAdd a b | 0x02 => vSub a b | 0x03 => vMul a b | 0x04 => vFma a b cc | 0x05 => vMax a b | 0x06 => vMin a b
  | 0x07 => vAbs a | 0x08 => vNeg a | 0x09 => vRecip a | 0x0A => vRsqrt a | 0x0B => vSqrt a | 0x0C => vExp2 a
  | 0x0D => vLog2 a | 0x0E => vGt a b | _ => vMov a

/-- The difference a silent error makes to an FP32 result: `row` names the instruction, `col` the column. -/
def bumpBits (errs : List SilentErr) (i c bits : Nat) : Nat := (((bits : Int) + errAt errs i c 0) % 2 ^ 32).toNat

/-- The events of one operation at a column: operands that were NaN, and what the result made (R104, R111). -/
def opEvents (x : VCtx) (c : Nat) (srcs : List (Nat × Nat)) (q : VRes) : List NumEv :=
  ((srcs.filter fun s => isNan32 s.2).map fun s => x.ev c (.nan s.1)) ++ (vresEvents [q]).map (x.ev c)

/-- One elementwise instruction at one column. -/
def VRow.lane (v : VRow) (x : VCtx) (i : Nat) (n : VIns) (c : Nat) : VRow :=
  let (a, v1) := v.source x n.imm n.a c
  if n.op = 0x0F then
    let sel := isNan32 a || !(d32 a).isZero
    let (b, v2) := if sel then v1.source x n.imm n.b c else v1.source x n.imm n.cc c
    let q := vMov b
    let v3 := { v2 with evs := v2.evs ++ opEvents x c [(1, a), (if sel then 2 else 4, b)] q }
    v3.store x n.d c (bumpBits x.errs i c q.bits)
  else
    let ar := (vopArity n.op).getD 1
    let (b, v2) := if 2 ≤ ar then v1.source x n.imm n.b c else (0, v1)
    let (cc, v3) := if 3 ≤ ar then v2.source x n.imm n.cc c else (0, v2)
    let q := vecOp n.op a b cc
    let srcs := [(1, a)] ++ (if 2 ≤ ar then [(2, b)] else []) ++ (if 3 ≤ ar then [(4, cc)] else [])
    let v4 := { v3 with evs := v3.evs ++ opEvents x c srcs q }
    v4.store x n.d c (bumpBits x.errs i c q.bits)

/-- The pairwise tree over one slice of 128 lanes, padded with +0 (R130). -/
def sliceSum (xs : List Nat) : Nat × List VRes := pairTree vSum 7 (xs ++ List.replicate (128 - xs.length) 0)

/-- The sum of R130: slice sums added from left to right. -/
def rowSumAux : Nat → Option Nat → List Nat → Nat × List VRes
  | 0, acc, _ => (acc.getD 0, [])
  | f + 1, acc, xs =>
    match xs with
    | [] => (acc.getD 0, [])
    | _ =>
      let (s, es) := sliceSum (xs.take 128)
      match acc with
      | none =>
        let (r, es') := rowSumAux f (some s) (xs.drop 128)
        (r, es ++ es')
      | some a =>
        let q := vSum a s
        let (r, es') := rowSumAux f (some q.bits) (xs.drop 128)
        (r, es ++ [q] ++ es')

/-- The sum of a row of any length (R130). -/
def rowSum (xs : List Nat) : Nat × List VRes := rowSumAux (xs.length / 128 + 1) none xs

/-- Read a source over the columns of a slice. -/
def VRow.sources (v : VRow) (x : VCtx) (imm o : Nat) : List Nat → List Nat × VRow
  | [] => ([], v)
  | c :: cs =>
    let (a, v1) := v.source x imm o c
    let (as, v2) := v1.sources x imm o cs
    (a :: as, v2)

/-- One row reduction over one slice (R129, R130). -/
def VRow.reduceSlice (v : VRow) (x : VCtx) (i : Nat) (n : VIns) (cs : List Nat) : VRow :=
  let (xs, v1) := v.sources x n.imm n.a cs
  let nans := (xs.filter isNan32).map fun _ => x.ev 0 (.nan 1)
  let old := kvGet v1.sums i
  let (q, es) : Nat × List VRes :=
    if n.op = 0x20 then
      let (s, es) := sliceSum xs
      match old with
      | none => (s, es)
      | some a =>
        let q := vSum a s
        (q.bits, es ++ [q])
    else
      let f := fun a b => (if n.op = 0x21 then vMax a b else vMin a b).bits
      match old, xs with
      | none, [] => (0, [])
      | none, a :: t => (t.foldl f (vMov a).bits, [])
      | some a, t => (t.foldl f a, [])
  { v1 with sums := kvPut v1.sums i (some q), evs := v1.evs ++ nans ++ (vresEvents es).map (x.ev 0) }

/-- One instruction over one slice. -/
def VRow.instr (v : VRow) (x : VCtx) (i : Nat) (n : VIns) (cs : List Nat) : VRow :=
  if isRowOp n.op then v.reduceSlice x i n cs else cs.foldl (fun v c => v.lane x i n c) v

/-- The reductions of a row are written once its last slice is done (R131). -/
def VRow.writeSums (v : VRow) (x : VCtx) (is : List VIns) : VRow :=
  (is.mapIdx fun i n => (i, n)).foldl (fun v (i, n) =>
    if isRowOp n.op then v.store x n.d 0 (bumpBits x.errs i 0 ((kvGet v.sums i).getD 0)) else v) v

/-- One slice: every instruction in program order, on fresh temporaries (R130, R131). -/
def VRow.slice (v : VRow) (x : VCtx) (is : List VIns) (k : Nat) : VRow :=
  let cs := (List.range (min 128 (x.cols - 128 * k))).map fun i => 128 * k + i
  (is.mapIdx fun i n => (i, n)).foldl (fun v p => v.instr x p.1 p.2 cs) { v with temps := [] }

/-- One row of the index space. -/
def runProgramRow (s : State) (x : VCtx) (o : OpCtx) (is : List VIns) (dirty : Bool) : VRow :=
  ((List.range (ceilDiv x.cols 128)).foldl (fun (v : VRow) k => v.slice x is k)
    { r := { st := s, core := x.core, x := o }, dirty := dirty }).writeSums x is

/-- A row that has run sends what it wrote to spilled tensors (R246). -/
def VRow.send (v : VRow) (w : Work) : VRow :=
  { v with r := { v.r with st := v.away.foldl (fun s (t, c) => s.putResult w t c) v.r.st }, away := [] }

/-- The context of a row of a VECTOR_PROGRAM packet. -/
def State.vctx (s : State) (w : Work) (row core : Nat) (errs : List SilentErr) : VCtx :=
  let j := w.slot.getD 0
  { w := w, cols := fld (w.pkt.pay 0) 32 32, row := row, core := core, errs := errs
    args := (List.range (min (w.pkt.par 1).toNat 1021)).map fun i =>
      let a := w.pkt.varg i
      (a, if i = 0 then none else s.tensorKept j a.handle) }

/-- The argument tensors that a program writes, with the elements and sizes of a row's part in each. -/
def VCtx.outputs (x : VCtx) (is : List VIns) : List (VArg × Tensor × Nat) :=
  ((is.map fun n => n.d).eraseDups.filter fun d => !isTempNo d).filterMap fun d =>
    match lget x.args d ({ handle := 0, stride := 0, fmt := 2 }, none) with
    | (a, some t) => some (a, t, argCols is d x.cols)
    | _ => none

/-- The word keys of a row's part of the argument tensors it writes. -/
def State.rowKeys (s : State) (x : VCtx) (is : List VIns) : List (Nat × Nat) :=
  ((x.outputs is).flatMap fun (a, t, n) =>
    let k := fmtBytes a.fmt
    (List.range (n * k)).filterMap fun i => (s.outKey x.w.pid t ((a.base + x.row * a.stride) * k + i)).map fun p => (p, p + 1)).eraseDups

end Sys2Proof.Machine
end

