-- ==== Sys2Proof/Machine/Kernels.lean ====
section
/-! DEFINITION. The fused normalisation and soft-maximum kernels (07_backward_pass.md R180 to R186), and REDUCE_MAXMIN
(06_accumulation.md R164 to R167). -/

namespace Sys2Proof.Machine

/-- The tensors of a fused kernel as dispatched. -/
structure KernTensors where
  k     : Kern
  dy    : Tensor
  x     : Tensor
  dx    : Tensor
  stats : Option Tensor
  gamma : Option Tensor
  dgam  : Option Tensor
  dbet  : Option Tensor

/-- The tensors of a fused kernel's work. -/
def State.kernTensors (s : State) (w : Work) : Option KernTensors := do
  let j ← w.slot
  let k := w.pkt.kern
  let dy ← s.tensorKept j k.dy
  let x ← s.tensorKept j k.x
  let dx ← s.tensorKept j k.dx
  some { k := k, dy := dy, x := x, dx := dx, stats := s.tensorKept j k.stats, gamma := s.tensorKept j k.gamma
         dgam := s.tensorKept j k.dgam, dbet := s.tensorKept j k.dbet }

/-- Read `n` elements of a format from element `i` as FP32 bits; a poisoned element reads as NaN (R101, R229). -/
def Rdr.fp32s (r : Rdr) (t : Tensor) (f i n : Nat) : List Nat × Rdr :=
  let (es, r1) := r.elems t (fmtBytes f) i n
  (es.map fun e => if e.2 then nan32 else toFp32 f e.1, r1)

/-- The values of one row of a kernel: dX before its conversion, the products pg, the row of dY, and the events. -/
structure KernRow where
  dx  : List Nat
  pg  : List Nat := []
  dy  : List Nat
  evs : List NumEv
  deriving Repr, Inhabited

/-- Events of results by column. -/
def colEvents (row : Nat) (qs : List VRes) : List NumEv :=
  (qs.mapIdx fun c q => (c, q)).flatMap fun p =>
    (vresEvents [p.2]).map fun k => { kind := k, vector := true, row := row, col := p.1 }

/-- Events of a row sum, at the row's first element. [Log entry 45: DEDUCED] -/
def rowEvents (row : Nat) (qs : List VRes) : List NumEv :=
  (vresEvents qs).map fun k => { kind := k, vector := true, row := row, col := 0 }

/-- An input's NaN elements, consumed by the row's first element (R105, R111). -/
def inputNans (row src : Nat) (xs : List Nat) : List NumEv :=
  (xs.filter isNan32).map fun _ => { kind := .nan src, vector := true, row := row, col := 0 }

/-- The correctly rounded 1 / C (R181). -/
def invCount (c : Nat) : Nat := (vRecip (roundVal 2 (.fin false c 0)).bits).bits

def bitsOf (qs : List VRes) : List Nat := qs.map fun q => q.bits

/-- A row of FUSED_NORM_BWD (R181). -/
def normRow (rms : Bool) (row : Nat) (dy x gamma : List Nat) (mean rstd : Nat) : KernRow :=
  let inv := invCount x.length
  let mu := if rms then 0 else mean
  let d := x.map fun a => vSub a mu
  let xh := (bitsOf d).map fun a => vMul a rstd
  let g := List.zipWith vMul dy gamma
  let gx := List.zipWith vMul (bitsOf g) (bitsOf xh)
  let pg := List.zipWith vMul dy (bitsOf xh)
  let (b, be) := rowSum (bitsOf gx)
  let (a, ae) := if rms then (0, []) else rowSum (bitsOf g)
  let ma := vMul a inv
  let mb := vMul b inv
  let u := (bitsOf g).map fun v => vSub v ma.bits
  let v := (bitsOf xh).map fun h => vMul h mb.bits
  let z := List.zipWith vSub (bitsOf u) (bitsOf v)
  let dx := (bitsOf z).map fun y => vMul y rstd
  { dx := bitsOf dx, pg := bitsOf pg, dy := dy
    evs := inputNans row 1 dy ++ inputNans row 2 x ++ inputNans row 4 (gamma ++ (if rms then [] else [mean]) ++ [rstd])
      ++ colEvents row d ++ colEvents row xh ++ colEvents row g ++ colEvents row gx ++ colEvents row pg ++ rowEvents row be
      ++ rowEvents row ae ++ rowEvents row [ma, mb] ++ colEvents row u ++ colEvents row v ++ colEvents row z
      ++ colEvents row dx }

/-- A row of FUSED_SOFTMAX_BWD (R184). -/
def softRow (row tau : Nat) (dy y : List Nat) : KernRow :=
  let p := List.zipWith vMul dy y
  let (sm, se) := rowSum (bitsOf p)
  let u := dy.map fun v => vSub v sm
  let v := List.zipWith vMul y (bitsOf u)
  let dx := (bitsOf v).map fun a => vMul tau a
  { dx := bitsOf dx, dy := dy
    evs := inputNans row 1 dy ++ inputNans row 2 y ++ colEvents row p ++ rowEvents row se ++ colEvents row u
      ++ colEvents row v ++ colEvents row dx }

/-- Read and compute a row of a kernel. -/
def Rdr.kernRow (r : Rdr) (t : KernTensors) (row : Nat) : KernRow × Rdr :=
  let n := t.k.cols
  let (dy, r1) := r.fp32s t.dy t.k.fdy (row * n) n
  let (x, r2) := r1.fp32s t.x t.k.fx (row * n) n
  if t.k.norm then
    let (st, r3) := match t.stats with | some u => r2.fp32s u 2 (2 * row) 2 | none => ([], r2)
    let (ga, r4) := match t.gamma with | some u => r3.fp32s u 2 0 n | none => ([], r3)
    (normRow t.k.rms row dy x ga (lget st 0 0) (lget st 1 0), r4)
  else (softRow row t.k.tau dy x, r2)

/-- A kernel's row as dX receives it, with the events of its conversion (R181, R184). -/
def kernCells (t : KernTensors) (row core : Nat) (q : KernRow) (errs : List SilentErr) (dirty : Bool) : OutCell × List NumEv :=
  let f := t.k.fdx
  let rs := (q.dx.mapIdx fun c b => bumpBits errs 0 c b).map fun b => if f = 2 then { bits := b } else convertBits 2 f b
  let ev := (rs.mapIdx fun c a => (c, a)).flatMap fun p =>
    ((if p.2.ovf then [EvKind.range 1] else []) ++ (if p.2.tiny then [EvKind.tiny] else [])).map fun k =>
      ({ kind := k, vector := true, row := row, col := p.1 } : NumEv)
  ({ off := row * t.k.cols * fmtBytes f, bytes := rs.flatMap fun a => natBytes (fmtBytes f) a.bits, bad := dirty, core := core },
   ev)

/-- Sum a block of rows one after another from +0 (R182). -/
def blockSum (vs : List Nat) : Nat × List VRes :=
  vs.foldl (fun (a, es) v => let q := vSum a v; (q.bits, es ++ [q])) (0, [])

/-- The sums of all blocks. -/
def blockSums : Nat → List Nat → List (Nat × List VRes)
  | 0, _ => []
  | f + 1, vs =>
    match vs with
    | [] => []
    | _ => blockSum (vs.take 256) :: blockSums f (vs.drop 256)

/-- The least power of two that is at least `n`, from `p`. -/
def powAtLeast : Nat → Nat → Nat → Nat
  | 0, p, _ => p
  | f + 1, p, n => if n ≤ p then p else powAtLeast f (2 * p) n

/-- A parameter's sum over the rows (R182). -/
def columnSum (vs : List Nat) : Nat × List VRes :=
  let bs := blockSums (vs.length / 256 + 1) vs
  let n := powAtLeast 32 1 bs.length
  let (r, es) := pairTree vSum 32 (bs.map Prod.fst ++ List.replicate (n - bs.length) 0)
  (r, bs.flatMap Prod.snd ++ es)

/-- One of dγ and dβ: its sums, with the old values added under ACC_PARAM (R182). -/
def Rdr.paramSums (r : Rdr) (t : KernTensors) (u : Tensor) (cols : List (List Nat)) (sel core : Nat) (errs : List SilentErr) :
    OutCell × List NumEv × Rdr :=
  let sums := cols.map columnSum
  let evs := (sums.mapIdx fun c q => (c, q.2)).flatMap fun p =>
    (vresEvents p.2).map fun k => ({ kind := k, vector := true, row := 0, col := p.1 } : NumEv)
  let (old, r1) := if t.k.accP then r.fp32s u 2 0 t.k.cols else ([], r)
  let added := if t.k.accP then List.zipWith vSum old (sums.map Prod.fst) else sums.map fun q => { bits := q.1 }
  let oldNans := (old.mapIdx fun c b => (c, b)).filterMap fun p =>
    if isNan32 p.2 then some ({ kind := .nan 4, vector := true, row := 0, col := p.1 } : NumEv) else none
  let bytes := ((bitsOf added).mapIdx fun c b => bumpBits errs sel c b).flatMap fun b => natBytes 4 b
  ({ off := 0, bytes := bytes, bad := false, core := core }, evs ++ oldNans ++ colEvents 0 added, r1)

/-- The transpose of rows. -/
def columnsOf (n : Nat) (rows : List (List Nat)) : List (List Nat) := (List.range n).map fun c => rows.map fun r => lget r c 0

/-- Read every row of a kernel. -/
def Rdr.kernRows (r : Rdr) (t : KernTensors) : List Nat → List KernRow × Rdr
  | [] => ([], r)
  | i :: is =>
    let (q, r1) := r.kernRow t i
    let (qs, r2) := r1.kernRows t is
    (q :: qs, r2)

/-- dγ and dβ as the packet writes them when its rows have run. -/
def Rdr.kernParams (r : Rdr) (t : KernTensors) (core : Nat) (errs : List SilentErr) : List (Tensor × OutCell) × List NumEv × Rdr :=
  match t.dgam, t.dbet with
  | none, none => ([], [], r)
  | dg, db =>
    let (rows, r1) := r.kernRows t (List.range t.k.rows)
    let one (o : Option Tensor) (cols : List (List Nat)) (sel : Nat) (r : Rdr) : List (Tensor × OutCell) × List NumEv × Rdr :=
      match o with
      | none => ([], [], r)
      | some u => let (c, e, r') := r.paramSums t u cols sel core errs; ([(u, c)], e, r')
    let (a, ea, r2) := one dg (columnsOf t.k.cols (rows.map fun q => q.pg)) 1 r1
    let (b, eb, r3) := one db (columnsOf t.k.cols (rows.map fun q => q.dy)) 2 r2
    (a ++ b, ea ++ eb, r3)

/-! ## REDUCE_MAXMIN (R164 to R167) -/

/-- The order of R165 between stored elements that are not NaN. -/
def elemBelow (f a b : Nat) : Bool :=
  let c := (decodeVal f a).cmp (decodeVal f b)
  c < 0 || (c = 0 && (decodeVal f a).sign && !(decodeVal f b).sign)

/-- The winner of a list: index and bits (R165). -/
def winner (f : Nat) (isMax : Bool) (es : List Nat) : Nat × Nat :=
  let ix := es.mapIdx fun i e => (i, e)
  match ix.find? fun p => (decodeVal f p.2).isNan with
  | some p => (p.1, nanBits f)
  | none =>
    match ix with
    | [] => (0, 0)
    | p :: t => t.foldl (fun b q => if (if isMax then elemBelow f b.2 q.2 else elemBelow f q.2 b.2) then q else b) p

/-- Run REDUCE_MAXMIN over its source, on the core's vector engine: the result words, and the events of its NaN elements.
[Log entry 130: DESIGN CHOICE] -/
def Rdr.reduceAll (r : Rdr) (w : Work) (t : Tensor) (errs : List SilentErr) : List Word × List NumEv × Rdr :=
  let k := fmtBytes t.fmt
  let (es, r1) := r.elems t k 0 (t.bytes / k)
  let bits := es.map fun e => if e.2 then nanBits t.fmt else e.1
  let (i, v) := winner t.fmt (!bitOf (w.pkt.par 2) 0) bits
  let evs := (bits.filter fun b => (decodeVal t.fmt b).isNan).map fun _ =>
    ({ kind := .nan 1, vector := true, row := 0, col := 0 } : NumEv)
  ([wd (((v : Int) + errAt errs 0 0 0) % 2 ^ 32).toNat, wd (((i : Int) + errAt errs 1 0 0) % 2 ^ 64).toNat], evs, r1)

end Sys2Proof.Machine
end

