-- ==== Sys2Proof/Machine/Compute.lean ====
section
/-! DEFINITION. The running of products, vector programs, kernels and REDUCE_MAXMIN on cores: the handing out of items, what
a core does with one, and the end of their packets (05, 06, 07, 09 R249 to R252, 14 R392, R393). -/

namespace Sys2Proof.Machine

/-- The context of one of this module's masters working for a packet (R485). -/
def Work.by_ (w : Work) (master : Nat) : OpCtx :=
  { master := master, slot := w.slot.getD 15, fjob := w.fjob, seq := w.pkt.seq, pid := w.pid }

/-- The context of a core's staging engine working for a packet. -/
def Work.ctx (w : Work) (g : Nat) : OpCtx := w.by_ (mStaging g)

/-- The tile of a packet's window (R18). -/
def Work.tile (w : Work) : Nat := w.pkt.window % 32

/-- The tile whose control processor serves window `w` (R18, R19). [Log entry 107: DEDUCED] -/
def State.serverTile (s : State) (w : Nat) : Nat := if w % 32 = 0 && s.boot.rolesOn16 then 16 else w % 32

/-- The context of the control processor that serves a packet's window. -/
def State.ctl (s : State) (w : Work) : OpCtx := w.by_ (mControl (s.serverTile w.pkt.window))

/-- Write a result to a packet's result address: host memory under RES_HOST, otherwise the global address (R67, R71). -/
def State.writeResult (s : State) (w : Work) (x : OpCtx) (a : Word) (bytes : List Byte) (poison : Bool) : State :=
  if w.pkt.resHost then s.post a.toNat bytes poison
  else s.finishMoves.globalWrite x (some w.pid) a (bytes.map fun b => some (b, poison)) (bytes.length / 4096 + 2)

/-! ## What a packet reads and writes -/

/-- The tensors a compute packet reads and those it writes, each with its bytes. -/
def State.footprint (s : State) (w : Work) : List (Tensor × Nat) × List (Tensor × Nat) :=
  let j := w.slot.getD 0
  if isProduct w.pkt.opcode then
    match s.prodTensors w with
    | none => ([], [])
    | some t =>
      let d := t.d
      let nC := matBytes (ffFormat d.fc) (d.m * d.n) d.cplx
      let sc := (t.sc.map fun u => (u, d.gridC.1 * d.gridC.2)).toList
      ([(t.a, matBytes (ffFormat d.fa) (d.m * d.k) d.cplx), (t.b, matBytes (ffFormat d.fb) (d.k * d.n) d.cplx)]
        ++ (t.sa.map fun u => (u, d.gridA.1 * d.gridA.2)).toList ++ (t.sb.map fun u => (u, d.gridB.1 * d.gridB.2)).toList
        ++ (if d.accC then [(t.c, nC)] ++ sc else if ffDir d.fc ≠ 0 && !ffDerive d.fc then sc else []),
       [(t.c, nC)] ++ (if ffDir d.fc ≠ 0 && ffDerive d.fc then sc else []))
  else if w.pkt.opcode = 0x35 then
    let is := vprogram w.mask
    let r := fld (w.pkt.pay 0) 0 32
    let c := fld (w.pkt.pay 0) 32 32
    let arg (i : Nat) : List (Tensor × Nat) :=
      let a := w.pkt.varg i
      ((s.tensorKept j a.handle).map fun t => (t, argExtent a r (argCols is i c) * fmtBytes a.fmt)).toList
    let p1 := (w.pkt.par 1).toNat
    let srcs := ((is.flatMap fun n => [n.a, n.b, n.cc]).filter (isArgNo p1)).eraseDups
    let dsts := ((is.map fun n => n.d).filter (isArgNo p1)).eraseDups
    (srcs.flatMap arg, dsts.flatMap arg)
  else if w.pkt.opcode = 0x33 || w.pkt.opcode = 0x34 then
    let k := w.pkt.kern
    let get (h : Word × Nat) : List (Tensor × Nat) := ((s.tensorKept j h.1).map fun t => (t, h.2)).toList
    (k.inputs.flatMap get ++ (if k.accP then (k.outputs.drop 1).flatMap get else []), k.outputs.flatMap get)
  else if w.pkt.opcode = 0x36 then
    (((s.tensorKept j (w.pkt.par 0)).map fun t => (t, t.bytes)).toList, [])
  else ([], [])

/-- Two lists of ranges meet. -/
def rangesMeet (a b : List (Nat × Nat)) : Bool := a.any fun x => b.any fun y => x.1 < y.2 && y.1 < x.2

/-- Note what a packet of the job's current step reads and writes, with the inputs it overwrites (R393, R396). -/
def State.beginWrote (s : State) (w : Work) (reads writes : List (Nat × Nat)) : State :=
  let both := writes.filter fun r => rangesMeet [r] reads
  let e : Wrote := { slot := w.slot.getD 0, work := w, reads := reads, writes := writes, before := s.captureKeys both }
  { s with rel := { s.rel with wrote := s.rel.wrote ++ [e] } }

/-- The packet's final items, in the note of what it wrote. -/
def State.endWrote (s : State) (w : Work) : State :=
  { s with rel := { s.rel with wrote := updAll (fun e : Wrote => e.work.pid == w.pid) (fun e => { e with work := w }) s.rel.wrote } }

/-! ## Handing out items -/

/-- Every word of `n` bytes from byte `off` of a tensor has been read over the fabric, where it lies elsewhere (R246). -/
def State.rangeFetched (s : State) (pid : Nat) (t : Tensor) (off n : Nat) : Bool :=
  match t.spill with
  | none => true
  | some a =>
    let lo := (a.toNat + off) / 8
    (List.range ((a.toNat + off + n + 7) / 8 - lo)).all fun i => (kvGet s.fetched (fetchKey pid (8 * (lo + i)))).isSome

/-- Every word of a packet's spilled inputs has been read over the fabric (R246). -/
def State.allFetched (s : State) (pid : Nat) (ts : List (Tensor × Nat)) : Bool := ts.all fun (t, n) => s.rangeFetched pid t 0 n

/-- Start the work of a compute packet: its spilled inputs are read over the fabric first; then its items go to cores (R246,
R250). -/
def State.startCompute (s : State) (w : Work) (items : List Item) : State :=
  let (ins, outs) := s.footprint w
  if !s.allFetched w.pid ins then
    if !w.tags.isEmpty then s
    else if w.failed then s.completeOuts w.pid
    else ins.foldl (fun s (t, n) => s.fetchTensor (w.ctx 0) w.pid t 0 n) s
  else
    let s1 := s.beginWrote w (ins.flatMap fun (t, n) => s.tensorKeys t n) (outs.flatMap fun (t, n) => s.tensorKeys t n)
    if items.all fun i => i.finished then (s1.modWork w.pid fun v => { v with items := items, stage := .running })
    else s1.launch w.pid items

/-! ## Sampling (R392, R393) -/

/-- Keep a sampled unit: its words as stored and as a sound core stores them (R393). [Log entry 93: DEDUCED] -/
def State.capture (s : State) (w : Work) (u : SampleUnit) (core : Nat) (vector : Bool) (orig sound : List OutWord) : State :=
  let e : Sample := { id := s.rel.nextSample, pid := w.pid, slot := w.slot.getD 0, unit := u, core := core, vector := vector
                      orig := orig, sound := sound }
  { s with rel := { s.rel with samples := s.rel.samples ++ [e], nextSample := s.rel.nextSample + 1
                               sampled := satInc 32 s.rel.sampled } }

/-! ## Staged copies (R247, R256) -/

/-- The job hints that a tensor stays staged in shared memory, and no forbid excludes that on a tile. -/
def Job.stagesShared (j : Job) (num tile : Nat) : Bool :=
  j.rules.any (fun r => r.action == 0 && r.kind == 0x00 && r.handle == num)
    && !j.rules.any fun r => r.action == 1 && r.handle == num && (r.kind == 0x13 || (r.kind == 0x10 && r.target == tile))

/-- No forbid excludes the tensor's staged copies from a tile. -/
def Job.stagesOn (j : Job) (num tile : Nat) : Bool :=
  !j.rules.any fun r => r.action == 1 && r.handle == num && r.kind == 0x10 && r.target == tile

/-- A tensor of this module holds a home page. -/
def Tensor.holds (t : Tensor) (p : Nat × Nat) : Bool := t.spill.isNone && t.tile == p.1 && t.page ≤ p.2 && p.2 < t.page + t.pages

/-- A core keeps staged copies of the pages of its packet's operands that it read for an item, in place of those it kept before, as
many as its memory holds; those that STAGE_SHARED names are staged in its tile's shared memory too. A page with a poisoned home
word, and one that the packet writes, is not staged. [Log entry 136: DESIGN CHOICE] -/
def State.stageItem (s : State) (w : Work) (g : Nat) (r : Rdr) : State :=
  let j := s.job (w.slot.getD 0)
  let (ins, outs) := s.footprint w
  let ps := (r.intactPages.filter fun p => !outs.any fun o => o.1.holds p).reverse
  let mine := (ps.filter fun p => ins.any fun i => i.1.holds p && j.stagesOn i.1.num (g / 16)).take 192
  let shared := ps.filter fun p => ins.any fun i => i.1.holds p && j.stagesShared i.1.num (g / 16)
  let old := s.staged.filter fun c => c.core != some g || mine.contains (c.homeTile, c.page)
  let fresh (core : Option Nat) (l : List (Nat × Nat)) : List (Nat × Nat) :=
    l.filter fun p => !old.any fun c => c.tile == g / 16 && c.core == core && c.homeTile == p.1 && c.page == p.2
  { s with staged := old
      ++ (fresh (some g) mine).map (fun p => { tile := g / 16, core := some g, homeTile := p.1, page := p.2 })
      ++ (fresh none shared).map (fun p => { tile := g / 16, core := none, homeTile := p.1, page := p.2, keep := true }) }

/-! ## Products -/

/-- Failed checks of a verified item: recorded against the arrays that ran it, and suspect generations updated (R162, R401,
R404). A tile's lane is localised when its wrong elements lie in one column. -/
def State.noteMismatch (s : State) (w : Work) (i : Item) (g : Nat) (errs : List SilentErr) (tiles : List Nat) : State :=
  let lane (a : Nat) : Nat :=
    match ((errs.filter fun e => e.row / 64 == 4 * i.g + a && e.col / 64 == i.n).map fun e => e.col % 64).eraseDups with
    | [c] => c
    | _ => 64
  (tiles.foldl (fun s a => s.recordEvent (.array g a) 4 (w.slot.getD 15) (2 + at_ (lane a) 7 4) w.pkt.seq) s).suspectUpdate g true

/-- An item that could not make an access: its log record, its packet's note, and its results undefined (R74, R209). -/
def State.failItem (s : State) (w : Work) (i : Item) (f : OpRes × Nat × Nat) (g : Nat) : State :=
  let s1 := (s.logRes (w.ctx g) f.1 f.2.1 f.2.2 (s.globalAddr f.2.1 f.2.2)).noteFail w.pid f.1.status.1 f.1.status.2
  s1.modItem w.pid i.num fun i => { i with finished := true, lost := [0, 1, 2, 3] }

/-- A core finishes a product item: poisoned operands are replayed from intact copies, a verified tile that fails its check
goes to a core of another tile, and a sound item keeps its running sums and records its events (R162, R229 to R231). -/
def State.productItem (s : State) (w : Work) (i : Item) (g : Nat) (errs : List SilentErr) : State :=
  match s.prodTensors w with
  | none => s
  | some t =>
    let x := w.ctx g
    let (_, _, r0) := ({ st := s, core := g, x := x } : Rdr).runItem t w i errs
    match r0.fail with
    | some f => r0.st.failItem w i f g
    | none =>
      let s1 := r0.st.logConsumed r0.bad x
      let intact := !r0.bad.isEmpty && s1.allIntact r0.bad
      let s2 := if intact then (r0.bad.foldl State.restage s1).noteReplay w.pid else s1
      let poisoned := !r0.bad.isEmpty && !intact
      let s3 := if poisoned then s2.noteFail w.pid .checkMismatch 0x0140 else s2
      let (cells, evs, r) := ({ st := if r0.bad.isEmpty then s else s3, core := g, x := x } : Rdr).runItem t w i errs
      let s4 := (r.st.loadTiles t w i g r).stageItem w g r
      let bad := if t.d.verify then r.failedTiles t w i cells else []
      let done (s : State) (lost : List Nat) : State :=
        let keep (a : Nat) : Bool := !lost.contains (a / 64 % 4)
        (s.numEvents w (w.slot.getD 0) g (ffRangeTrap t.d.fc) (evs.filter fun e => keep e.row)).modItem w.pid i.num
          fun i => { i with finished := true, poisoned := poisoned, acc := cells, lost := lost }
      if bad.isEmpty then
        let s5 := done s4 []
        if 1 < i.attempts then s5.noteReplay w.pid else s5
      else
        let s5 := s4.noteMismatch w i g errs bad
        if i.attempts < 3 then
          (s5.modItem w.pid i.num fun i => { i with
            core := none, started := false, attempts := i.attempts + 1, tried := i.tried ++ [g / 16] }).assignItems w.pid
        else (done s5 bad).noteFail w.pid .checkMismatch 0

/-- A product's end: results are written, sampled tiles captured, and the packet completes (R63, R137, R393). [Log entry 47: DEDUCED] -/
def State.endProduct (s : State) (w : Work) : State :=
  match s.prodTensors w with
  | none => s.finishRemote w.pid
  | some t =>
    let s1 := s.writeProduct t w false
    let s2 := w.sampled.foldl (fun a u => match u with
      | .tile row col =>
        let mine (i : Item) : Bool := i.g == row / 4 && i.n == col
        let ran := ((w.items.find? fun i => mine i).map fun i => i.ran).getD 0
        if (w.items.filter fun i => mine i).any (fun i => i.skipped || i.lost.contains (row % 4)) then a
        else
          let keys := s.tileKeys t w.pid row col
          let sound := s.writeProduct t (s.recompute t w mine) true
          a.capture w u ran false (s1.captureKeys keys) (sound.captureKeys keys)
      | _ => a) s1
    (s2.endWrote w).finishRemote w.pid

/-! ## Rows of programs and kernels -/

/-- A row of a vector program: run once, and again from intact copies when it read poison, or with its words poisoned when
there is no intact copy (R230, R231). The first attempt's outputs are discarded; the last one's go to spilled tensors too. -/
def State.runRow (s : State) (x : VCtx) (o : OpCtx) (is : List VIns) : VRow × Bool × Bool :=
  let v := runProgramRow s x o is false
  if v.r.fail.isSome then (v, false, false)
  else if v.r.bad.isEmpty then (v.send x.w, false, false)
  else
    let s1 := ({ v.r.st.restoreWords (s.captureKeys (s.rowKeys x is)) with fetched := s.fetched } : State).logConsumed v.r.bad o
    if s1.allIntact v.r.bad then ((runProgramRow (v.r.bad.foldl State.restage s1) x o is false).send x.w, true, false)
    else ((runProgramRow s1 x o is true).send x.w, false, true)

/-- A core finishes a row of a VECTOR_PROGRAM. -/
def State.programItem (s : State) (w : Work) (i : Item) (g : Nat) (errs : List SilentErr) : State :=
  let x := s.vctx w i.num g errs
  let is := vprogram w.mask
  let (v, replayed, poisoned) := s.runRow x (w.ctx g) is
  match v.r.fail with
  | some f => v.r.st.failItem w i f g
  | none =>
    let s1 := v.r.st.numEvents w (w.slot.getD 0) g false v.evs
    let s2 := if replayed then s1.noteReplay w.pid else if poisoned then s1.noteFail w.pid .checkMismatch 0x0140 else s1
    let s3 := ((s2.modItem w.pid i.num fun i => { i with finished := true, poisoned := poisoned }).endThread g i.num is.length).stageItem w g v.r
    if w.sampled.contains (.row i.num) then
      let keys := s.rowKeys x is
      let sound := (s.runRow { x with errs := [] } (w.ctx g) is).1.r.st
      s3.capture w (.row i.num) g true (s3.captureKeys keys) (sound.captureKeys keys)
    else s3

/-- Write a kernel's row. -/
def Rdr.kernWrite (r : Rdr) (w : Work) (t : KernTensors) (row g : Nat) (errs : List SilentErr) (dirty : Bool) :
    List NumEv × Rdr :=
  let (q, r1) := r.kernRow t row
  let (c, es) := kernCells t row g q errs dirty
  (q.evs ++ es, if r1.fail.isSome then r1 else { r1 with st := r1.st.putResult w t.dx c })

/-- The word keys of a row of dX. -/
def State.dxKeys (s : State) (t : KernTensors) (pid row : Nat) : List (Nat × Nat) :=
  let n := t.k.cols * fmtBytes t.k.fdx
  ((List.range n).filterMap fun i => (s.outKey pid t.dx (row * n + i)).map fun k => (k, k + 1)).eraseDups

/-- The word keys of a tensor's first `n` bytes as a packet wrote them. -/
def State.outKeys (s : State) (pid : Nat) (t : Tensor) (n : Nat) : List (Nat × Nat) :=
  ((List.range n).filterMap fun i => (s.outKey pid t i).map fun k => (k, k + 1)).eraseDups

/-- A core finishes a row of a fused kernel. -/
def State.kernItem (s : State) (w : Work) (i : Item) (g : Nat) (errs : List SilentErr) : State :=
  match s.kernTensors w with
  | none => s
  | some t =>
    let x := w.ctx g
    let r0 := (({ st := s, core := g, x := x } : Rdr).kernRow t i.num).2
    match r0.fail with
    | some f => r0.st.failItem w i f g
    | none =>
      let s1 := if r0.bad.isEmpty then s else r0.st.logConsumed r0.bad x
      let intact := !r0.bad.isEmpty && s1.allIntact r0.bad
      let poisoned := !r0.bad.isEmpty && !intact
      let s2 := if intact then (r0.bad.foldl State.restage s1).noteReplay w.pid
        else if poisoned then s1.noteFail w.pid .checkMismatch 0x0140 else s1
      let (evs, r) := ({ st := s2, core := g, x := x } : Rdr).kernWrite w t i.num g errs poisoned
      let s3 := ((r.st.numEvents w (w.slot.getD 0) g false evs).modItem w.pid i.num
        fun i => { i with finished := true, poisoned := poisoned }).stageItem w g r
      if w.sampled.contains (.row i.num) then
        let keys := s.dxKeys t w.pid i.num
        let sound := (({ st := s2, core := g, x := x } : Rdr).kernWrite w t i.num g [] poisoned).2.st
        s3.capture w (.row i.num) g true (s3.captureKeys keys) (sound.captureKeys keys)
      else s3

/-- Write dγ and dβ; both are poisoned when a row read poison, or when an old value under ACC_PARAM is poisoned and has no
intact copy (R182, R230, R231). -/
def State.writeParams (s : State) (w : Work) (t : KernTensors) (g : Nat) (errs : List SilentErr) : State :=
  let x := w.ctx g
  let fed := w.items.any fun i => i.poisoned
  let (_, _, r0) := ({ st := s, core := g, x := x } : Rdr).kernParams t g errs
  let fresh := if fed then [] else r0.bad
  let s1 := if fresh.isEmpty then s else r0.st.logConsumed fresh x
  let intact := !fresh.isEmpty && s1.allIntact fresh
  let dirty := fed || (!fresh.isEmpty && !intact)
  let s2 := if intact then (fresh.foldl State.restage s1).noteReplay w.pid
    else if fresh.isEmpty then s1 else s1.noteFail w.pid .checkMismatch 0x0140
  let (cs, evs, r) := ({ st := s2, core := g, x := x } : Rdr).kernParams t g errs
  (cs.foldl (fun s (u, c) => s.putResult w u { c with bad := dirty }) r.st).numEvents w (w.slot.getD 0) g false evs

/-- A kernel's end: its parameter sums are written, and the packet completes. [Log entry 47: DEDUCED] -/
def State.endKernel (s : State) (w : Work) (g : Nat) (errs : List SilentErr) : State :=
  match s.kernTensors w with
  | none => s.finishRemote w.pid
  | some t =>
    let s1 := s.writeParams w t g errs
    let keys := (t.dgam.toList ++ t.dbet.toList).flatMap fun u => s.outKeys w.pid u (4 * t.k.cols)
    let s2 := if w.sampled.contains .params then
        s1.capture w .params g true (s1.captureKeys keys) ((s.writeParams w t g []).captureKeys keys) else s1
    (s2.endWrote w).finishRemote w.pid

/-- A core finishes REDUCE_MAXMIN: its result is written and the packet completes (R166, R167). [Log entry 46: DEDUCED] -/
def State.reduceItem (s : State) (w : Work) (i : Item) (g : Nat) (errs : List SilentErr) : State :=
  match s.tensorKept (w.slot.getD 0) (w.pkt.par 0) with
  | none => s
  | some t =>
    let x := w.ctx g
    let (_, _, r0) := ({ st := s, core := g, x := x } : Rdr).reduceAll w t errs
    match r0.fail with
    | some f => (r0.st.failItem w i f g).finishRemote w.pid
    | none =>
      let s1 := if r0.bad.isEmpty then s else r0.st.logConsumed r0.bad x
      let intact := !r0.bad.isEmpty && s1.allIntact r0.bad
      let poisoned := !r0.bad.isEmpty && !intact
      let s2 := if intact then (r0.bad.foldl State.restage s1).noteReplay w.pid
        else if poisoned then s1.noteFail w.pid .checkMismatch 0x0140 else s1
      let (ws, evs, r) := ({ st := s2, core := g, x := x } : Rdr).reduceAll w t errs
      let s3 := ((r.st.numEvents w (w.slot.getD 0) g false evs).modItem w.pid i.num fun i => { i with finished := true }).stageItem w g r
      let s4 := s3.writeResult w x (w.pkt.par 1) (ws.flatMap wordBytes) poisoned
      let s5 := s4.modWork w.pid fun w => { w with result := (lget ws 1 0).toNat % 2 ^ 32 }
      let word (ws : List Word) : List OutWord := ws.mapIdx fun i v => { addr := i, bits := v.toNat, poison := poisoned }
      let sound := (({ st := s2, core := g, x := x } : Rdr).reduceAll w t []).1
      let s6 := if w.sampled.contains .result then s5.capture w .result g true (word ws) (word sound) else s5
      s6.finishRemote w.pid

/-! ## WORK_ITEM_DONE (R251) -/

/-- The item a core is running, with its packet's work. -/
def State.runningItem (s : State) (g : Nat) : Option (Work × Item) :=
  s.works.findSome? fun w => (w.items.find? fun i => i.core == some g && i.started && !i.finished).map fun i => (w, i)

/-- The end of a packet whose items have all finished. -/
def State.endItems (s : State) (pid g : Nat) (errs : List SilentErr) : State :=
  match s.work pid with
  | none => s
  | some w =>
    if w.stage ≠ .running || !w.items.all (fun i => i.finished) then s
    else if isProduct w.pkt.opcode then s.endProduct w
    else if w.pkt.opcode = 0x35 then (s.endWrote w).finishRemote pid
    else if w.pkt.opcode = 0x33 || w.pkt.opcode = 0x34 then s.endKernel w g errs
    else s

/-- A core finishes the item it runs and takes its next one (R251). [Log entry 48: DEDUCED] -/
def State.itemDone (s : State) (w : Work) (i : Item) (g : Nat) (errs : List SilentErr) : State :=
  let s1 := if isProduct w.pkt.opcode then s.productItem w i g errs
    else if w.pkt.opcode = 0x35 then s.programItem w i g errs
    else if w.pkt.opcode = 0x36 then s.reduceItem w i g errs
    else s.kernItem w i g errs
  (s1.endItems w.pid g errs).startCore g

/-- A core that has started its item finishes it, once no page moves. -/
def opWorkItemDone (g : Nat) (errs : List SilentErr) (s : State) : State :=
  match s.runningItem g with
  | none => s
  | some (w, i) => if s.startWaits g then s else afterMoves (fun s => s.itemDone w i g errs) s

def execWorkItemDone (dt core : Nat) (errs : List SilentErr) (s : State) : Host.Outcome State Fault Refusal :=
  runPart "core" core 512 dt (opWorkItemDone core errs) s

/-- Items that waited with no available core are spread, and idle cores take items (R250, R251). -/
def execItemsAssign (dt : Nat) (s : State) : Host.Outcome State Fault Refusal := run dt opItemsAssign s

/-! ## The packets -/

/-- A product's items go to the cores; one whose every item is masked completes at once (R138, R175). -/
def State.startProduct (w : Work) (s : State) : State :=
  let s1 := s.startCompute w (w.pkt.prod.items w.mask)
  s1.endItems w.pid 0 []

/-- One item for each row. -/
def rowItems (n : Nat) : List Item := (List.range n).map fun r => { num := r }

def execMatmul (dt pid : Nat) (s : State) : Host.Outcome State Fault Refusal := run dt (onHandedMem pid [0x30] State.startProduct) s

def execMatmulBwdData (dt pid : Nat) (s : State) : Host.Outcome State Fault Refusal :=
  run dt (onHandedMem pid [0x31] State.startProduct) s

def execMatmulBwdWeight (dt pid : Nat) (s : State) : Host.Outcome State Fault Refusal :=
  run dt (onHandedMem pid [0x32] State.startProduct) s

def execFusedNormBwd (dt pid : Nat) (s : State) : Host.Outcome State Fault Refusal :=
  run dt (onHandedMem pid [0x33] fun w s => s.startCompute w (rowItems w.pkt.kern.rows)) s

def execFusedSoftmaxBwd (dt pid : Nat) (s : State) : Host.Outcome State Fault Refusal :=
  run dt (onHandedMem pid [0x34] fun w s => s.startCompute w (rowItems w.pkt.kern.rows)) s

def execVectorProgram (dt pid : Nat) (s : State) : Host.Outcome State Fault Refusal :=
  run dt (onHandedMem pid [0x35] fun w s => s.startCompute w (rowItems (fld (w.pkt.pay 0) 0 32))) s

def execReduceMaxmin (dt pid : Nat) (s : State) : Host.Outcome State Fault Refusal :=
  run dt (onHandedMem pid [0x36] fun w s => s.startCompute w [{ num := 0 }]) s

end Sys2Proof.Machine
end

