-- ==== Sys2Proof/Machine/Tensors.lean ====
section
/-! DEFINITION. Tensors, COPY, FILL, TRANSPOSE_COPY and FENCE (08_memory.md R210 to R222, 09_placement.md R244 to R246), and
the sampling gate (14_reliability.md R399). -/

namespace Sys2Proof.Machine

/-! ## The sampling gate (R399) -/

/-- The packets of a job's step on which ranges of word keys depend, through other packets of the step. -/
def State.dependsOn (s : State) (slot : Nat) : Nat → List (Nat × Nat) → List Wrote
  | 0, _ => []
  | fuel + 1, rs =>
    let hit := s.rel.wrote.filter fun e => e.slot == slot && rangesMeet e.writes rs
    if hit.isEmpty then [] else hit ++ s.dependsOn slot fuel (hit.flatMap fun e => e.reads)

/-- Data of these ranges must not leave the module yet. -/
def State.gated (s : State) (slot : Nat) (rs : List (Nat × Nat)) : Bool :=
  s.rel.gate && (s.dependsOn slot (s.rel.wrote.length + 1) rs).any fun e =>
    s.rel.samples.any (fun x => x.pid == e.work.pid) || s.works.any fun w => w.pid == e.work.pid && !w.sampled.isEmpty

/-- Data of these ranges has left the module (R397). -/
def State.markSent (s : State) (slot : Nat) (rs : List (Nat × Nat)) : State :=
  { s with rel := { s.rel with
      wrote := updAll (fun e : Wrote => e.slot == slot && rangesMeet e.writes rs) (fun e => { e with sent := e.sent ++ rs }) s.rel.wrote } }

/-! ## Placing a tensor (R212, R244, R245) -/

/-- The job forbids its new tensors' pages on a tile (R256 NO_TILE). -/
def Job.forbidsTile (j : Job) (t : Nat) : Bool := j.rules.any fun r => r.action == 1 && r.kind == 0x10 && r.handle == 0 && r.target == t

/-- The lowest run of `n` free logical pages of a tile (R212). -/
def State.freeRun (s : State) (t n : Nat) : Option Nat :=
  let rs := (s.usedRanges.filter fun r => r.1 == t).map fun r => (r.2.1, r.2.1 + r.2.2)
  let fits (l : Nat) : Bool := l + n ≤ 393216 && rs.all fun r => l + n ≤ r.1 || r.2 ≤ l
  argMin id ((0 :: rs.map Prod.snd).filter fits)

/-- The tiles whose stacks a job's new tensor may use. -/
def State.allowedTiles (s : State) (slot : Nat) : List Nat := (List.range 32).filter fun t => !(s.job slot).forbidsTile t

/-- The home tile of a new tensor of `n` pages: the most free pages, then the lowest number (R244). -/
def State.homeTile (s : State) (slot n : Nat) : Option (Nat × Nat) :=
  let ts := (s.allowedTiles slot).filterMap fun t => (s.freeRun t n).map fun l => (t, l)
  if ((s.allowedTiles slot).map s.freeOn).foldl (· + ·) 0 < n then none
  else argMin (fun x : Nat × Nat => 393216 - s.freeOn x.1) ts

/-- The free physical page of a tile with the lowest channel and page number, but for those of `taken`. -/
def State.firstFree (s : State) (taken : List PageEntry) (t : Nat) : Option PageEntry :=
  (List.range 32).findSome? fun c =>
    ((List.range 12288).map fun p => ({ tile := t, channel := c, page := p, backed := true } : PageEntry)).find? fun e =>
      !taken.contains e && s.physFree t c e.page

/-- The free physical page for logical page `l` of a home tile (R245): its default page, then the nearest tile's first. -/
def State.choosePhys (s : State) (taken : List PageEntry) (allowed : List Nat) (t l : Nat) : Option PageEntry :=
  let d := defaultEntry t l
  if allowed.contains t && !taken.contains d && s.physFree d.tile d.channel d.page then some d
  else
    let near := allowed.mergeSort fun a b => hops t a * 64 + a ≤ hops t b * 64 + b
    near.findSome? (s.firstFree taken)

/-- Back `n` logical pages of a tile from `l` on; `taken` are the physical pages given to those before them. -/
def State.backRun (s : State) (taken : List PageEntry) (allowed : List Nat) (t : Nat) : Nat → Nat → State
  | _, 0 => s
  | l, n + 1 =>
    match s.choosePhys taken allowed t l with
    | none => s
    | some e => (s.backPage t l e).backRun (e :: taken) allowed t (l + 1) n

/-- Put every word of a tensor's bytes to 0 (R212). -/
def State.zeroRun (s : State) (t l bytes : Nat) : State :=
  (List.range ((bytes + 65535) / 65536)).foldl (fun s i =>
    match s.resolve t ((l + i) * 65536) with
    | none => s
    | some p =>
      let lo := placeKey p
      let hi := lo + ceilDiv (min 65536 (bytes - 65536 * i)) 8
      { (s.eraseKeys lo hi) with gathered := s.gathered.filter fun g => g.key < lo || hi ≤ g.key }) s

/-- A tensor from its descriptor (R211). -/
def descTensor (num slot tile page : Nat) (d : List Word) : Tensor :=
  { num := num, slot := slot, tile := tile, page := page, bytes := (lget d 0 0).toNat, fmt := fld (lget d 1 0) 0 2
    cplx := bitOf (lget d 1 0) 2, life := fld (lget d 1 0) 4 2, rows := fld (lget d 2 0) 0 32, cols := fld (lget d 2 0) 32 32
    epoch := (lget d 3 0).toNat }

/-- The descriptor of a tensor is invalid (R241 0x0144). -/
def descBad (d : List Word) : Bool :=
  let b := (lget d 0 0).toNat
  let f := fld (lget d 1 0) 0 2
  let c := bitOf (lget d 1 0) 2
  let e := fmtBytes f * (if c then 2 else 1)
  let r := fld (lget d 2 0) 0 32
  let k := fld (lget d 2 0) 32 32
  b = 0 || 2 ^ 34 < b || b % e ≠ 0 || (c && f = 3) || fld (lget d 1 0) 4 2 = 3 || fld (lget d 1 0) 6 58 ≠ 0
    || ((r = 0) != (k = 0)) || b < r * k * e || (List.range 4).any fun i => lget d (4 + i) 0 ≠ 0

/-- Create a tensor on this module: placed, backed, and zeroed unless NO_ZERO is 1; none while a page's move is deferred (R240). -/
def State.createHere (s : State) (num slot : Nat) (d : List Word) : Option (Tensor × State) :=
  let bytes := (lget d 0 0).toNat
  let n := (bytes + 65535) / 65536
  if !s.deferred.isEmpty then none
  else match s.homeTile slot n with
    | none => none
    | some (t, l) =>
      let s1 := s.backRun [] (s.allowedTiles slot) t l n
      let s2 := if bitOf (lget d 1 0) 3 then s1 else s1.zeroRun t l bytes
      let x := descTensor num slot t l d
      some (x, ({ s2 with tensors := s2.tensors ++ [x] } : State).settleDeferred)

/-- Give a job's next handle number. [Log entry 63: DESIGN CHOICE] -/
def State.nextHandle (s : State) (slot : Nat) : Nat × State :=
  ((s.job slot).nextHandle, s.modJob slot fun j => { j with nextHandle := j.nextHandle + 1 })

/-- A tensor is ready: its handle goes to the result address and the packet replies (R212). -/
def State.tensorReady (s : State) (w : Work) (t : Tensor) : State :=
  let s1 := s.writeResult w (s.ctl w) (w.pkt.par 0) (wordBytes t.handle) false
  (s1.modWork w.pid fun v => { v with result := t.num }).finishRemote w.pid

/-! ## Spill modules (R246) -/

/-- The hops between two modules of the torus (R290). -/
def torusHops (a b : Nat) : Nat :=
  let d (x y : Nat) : Nat := min ((x + 16 - y) % 16) ((y + 16 - x) % 16)
  d (a % 16) (b % 16) + d (a / 16 % 16) (b / 16 % 16) + d (a / 256) (b / 256)

/-- The job's spill modules in the order they are asked. -/
def State.spillModules (s : State) (slot : Nat) : List Nat :=
  let ms := ((s.job slot).rules.filter fun r => r.kind == 0x08).map fun r => r.target
  ms.mergeSort fun a b => torusHops s.fabric.mod a * 4096 + a ≤ torusHops s.fabric.mod b * 4096 + b

/-- Ask the next spill module for a tensor, or end the packet when there is none. [Log entry 62: DEDUCED] -/
def State.askSpill (s : State) (w : Work) : State :=
  let j := w.slot.getD 0
  match (s.spillModules j).find? fun m => !w.asked.contains m with
  | none => s.complete w.pid .noResource 0x0004 0
  | some m =>
    let s1 := s.modWork w.pid fun v => { v with stage := .waiting, asked := v.asked ++ [m] }
    s1.control m w.fjob (.spill w.fjob ([0, wd w.pid] ++ w.pkt.payload.take 4))

/-- Free the storage of a tensor that another module placed here. -/
def State.freeSpilled (s : State) (slot : Nat) (base : Word) : State :=
  { s with tensors := dropFirst (fun t => t.num == 0 && t.slot == slot && t.tile == addrTile base && t.off == addrOff base) s.tensors }

/-- The numbers of a shard's tensors: PARAM, MASTER, PROGRAM, the HYPER tensors and STATE (R334, R336). -/
def Shard.parts (h : Shard) : List Nat := [h.param, h.master, h.prog] ++ h.hyper ++ (if h.states = 0 then [] else [h.state])

/-- Release a tensor: its pages, its staged copies, its rules and the shards it belongs to; one that lies on a spill module is
freed there (R214, R246, R247, R258, R336). -/
def State.releaseTensor (s : State) (t : Tensor) : State :=
  let s1 := { s with
    tensors := dropFirst (fun u => u.num == t.num && u.slot == t.slot && u.page == t.page && u.tile == t.tile) s.tensors
    shards := s.shards.filter fun h => !(h.slot == t.slot && h.parts.contains t.num)
    staged := match t.spill with
      | some _ => s.staged
      | none => s.staged.filter fun c => !(c.homeTile == t.tile && t.page ≤ c.page && c.page < t.page + t.pages) }
  let s2 := s1.modJob t.slot fun j => { j with rules := j.rules.filter fun r => r.handle == 0 || r.handle != t.num }
  match t.spill with
  | none => s2.settleDeferred
  | some a => s2.control (addrModule a) (s2.job t.slot).fjob (.spill (s2.job t.slot).fjob [2, a])

/-- A message about spilled tensors arrives: a request, its answer, or a release. [Log entry 62: DEDUCED] -/
def State.spillMessage (s : State) (src fjob : Nat) (ws : List Word) : State :=
  match ws with
  | 0 :: pid :: d =>
    let s := s.finishMoves
    let made := match (List.range 4).find? fun j => s.jobOpen j && (s.job j).fjob == fjob with
      | none => none
      | some j => s.createHere 0 j d
    match made with
    | none => s.control src fjob (.spill fjob [1, pid, 0])
    | some (t, s1) => s1.control src fjob (.spill fjob [1, pid, mkAddr 1 s.fabric.mod t.tile t.off])
  | [1, pid, base] =>
    match s.work pid.toNat with
    | none => if base = 0 then s else s.control src fjob (.spill fjob [2, base])
    | some w =>
      if w.stage ≠ .waiting || w.pkt.opcode ≠ 0x10 then s
      else if base = 0 then s.askSpill w
      else
        let j := w.slot.getD 0
        let (n, s1) := s.nextHandle j
        let t := { descTensor n j (addrTile base) (addrOff base / 65536) w.pkt.payload with spill := some base }
        ({ s1 with tensors := s1.tensors ++ [t] }).tensorReady w t
  | [2, base] =>
    match (List.range 4).find? fun j => (s.job j).opened && (s.job j).fjob == fjob with
    | none => s
    | some j => (s.freeSpilled j base).settleDeferred
  | _ => s

/-! ## TENSOR_CREATE and TENSOR_FREE -/

/-- TENSOR_CREATE (R212, R240, R244 to R246). -/
def State.tensorCreate (w : Work) (s : State) : State :=
  let j := w.slot.getD 0
  if !s.deferred.isEmpty then s.complete w.pid .noResource 0x0004 0
  else
  let (n, s1) := s.nextHandle j
  match s1.createHere n j (w.pkt.payload.take 8) with
  | some (t, s2) => s2.tensorReady w t
  | none => s.askSpill w

def execTensorCreate (dt pid : Nat) (s : State) : Host.Outcome State Fault Refusal := run dt (onHandedMem pid [0x10] State.tensorCreate) s

/-- A packet's parameters or payload carry a handle (R79). -/
def Packet.names (p : Packet) (h : Word) : Bool := (p.hdr.drop 2).contains h || p.payload.contains h

/-- TENSOR_FREE completes once every packet dispatched before it that names the tensor has completed (R79, R214). -/
def State.tensorFree (w : Work) (s : State) : State :=
  let h := w.pkt.par 0
  if s.works.any fun v => v.pid < w.pid && v.pkt.names h then s
  else
    let s1 := match s.tensorKept (w.slot.getD 0) h with
      | some t => s.releaseTensor t
      | none => s
    s1.complete w.pid .done 0 0

def execTensorFree (dt pid : Nat) (s : State) : Host.Outcome State Fault Refusal := run dt (onHanded pid [0x11] State.tensorFree) s

/-! ## COPY, FILL and TRANSPOSE_COPY -/

/-- The word keys of `n` bytes at a global address, where they lie on this module. -/
def State.addrKeys (s : State) (a : Word) (n : Nat) : List (Nat × Nat) :=
  match s.addrKind a with
  | .here t o =>
    (List.range ((o % 65536 + n + 65535) / 65536)).filterMap fun i =>
      let lo := max o (o / 65536 * 65536 + 65536 * i)
      let hi := min (o + n) (o / 65536 * 65536 + 65536 * (i + 1))
      (s.resolve t (lo / 8 * 8)).map fun p => (placeKey p, placeKey p + (hi + 7) / 8 - lo / 8)
  | _ => []

/-- The context of a tile DMA engine working for a packet (R485). [Log entry 79: DEDUCED] -/
def Work.dma (w : Work) : OpCtx := w.by_ (mDma w.tile)

/-- Bytes of host memory; a line whose read returned poisoned data poisons every byte of it (R215). -/
def State.hostBytes (s : State) (a n : Nat) (poisoned : List Nat) : List (Byte × Bool) :=
  (List.range n).map fun i => (cellGet s.hostMem (a + i), poisoned.contains ((a + i) / 64))

/-- Copy between global addresses, or from one to the host, piece by piece within the source's 4 KiB pages. -/
def State.copyFrom (s : State) (x : OpCtx) (pid : Nat) (src : Word) (dst : Word) (toHost : Bool) (n : Nat) : Nat → State
  | 0 => s
  | fuel + 1 =>
    if n = 0 then s
    else
      let k := pieceLen src.toNat n
      let s1 := match s.addrKind src with
        | .here t o =>
          match s.opCheck x .read t o with
          | .ok =>
            let (bs, s1) := (s.countAccess t o x.master).readBytes t o k x
            if toHost then s1.postLines dst.toNat bs (k / 64 + 2) else s1.globalWrite x (some pid) dst (bs.map some) 4
          | r => (s.logRes x r t o src).noteFail pid r.status.1 r.status.2
        | .remote _ _ _ =>
          if toHost then s.issueRead x (some pid) src k none (some dst.toNat) else s.issueRead x (some pid) src k (some dst) none
        | _ => s
      s1.copyFrom x pid (src + wd k) (dst + wd k) toHost (n - k) fuel

/-- COPY's length. -/
def Packet.copyLen (p : Packet) : Nat := fld (p.par 2) 0 35
/-- COPY's destination, or source, is in host memory. -/
def Packet.copyToHost (p : Packet) : Bool := p.resHost && bitOf (p.par 2) 48
def Packet.copyFromHost (p : Packet) : Bool := p.resHost && !bitOf (p.par 2) 48

/-- The copying itself. -/
def State.doCopy (s : State) (w : Work) (poisoned : List Nat) : State :=
  let p := w.pkt
  let n := p.copyLen
  if p.copyFromHost then
    s.globalWrite w.dma (some w.pid) (p.par 1) ((s.hostBytes (p.par 0).toNat n poisoned).map some) (n / 4096 + 2)
  else s.copyFrom w.dma w.pid (p.par 0) (p.par 1) p.copyToHost n (n / 4096 + 2)

/-- An address names another module. -/
def State.isRemote (s : State) (a : Word) : Bool := match s.addrKind a with | .remote _ _ _ => true | _ => false

/-- COPY (R215); one to another module waits for the sampling gate (R399). -/
def State.copyPacket (poisoned : List Nat) (w : Work) (s : State) : State :=
  let p := w.pkt
  let j := w.slot.getD 0
  let out := !p.resHost && s.isRemote (p.par 1)
  let reads := if p.copyFromHost then [] else s.addrKeys (p.par 0) p.copyLen
  let writes := if p.copyToHost then [] else s.addrKeys (p.par 1) p.copyLen
  if out && s.gated j reads then s
  else
    let s1 := s.beginWrote w reads writes
    let s2 := if out then s1.markSent j reads else s1
    (s2.doCopy w poisoned).finishRemote w.pid

def execCopy (dt pid : Nat) (hs : List (Nat × Byte)) (poisoned : List Nat) (s : State) : Host.Outcome State Fault Refusal :=
  runHs dt hs (onHandedMem pid [0x12] (State.copyPacket poisoned)) s

/-- FILL (R216). -/
def State.fillPacket (w : Work) (s : State) : State :=
  let p := w.pkt
  let n := fld (p.par 2) 0 35
  let bs := (List.replicate (n / 8) (wordBytes (p.par 1))).flatten
  let s1 := if p.resHost then s.post (p.par 0).toNat bs
    else (s.beginWrote w [] (s.addrKeys (p.par 0) n)).globalWrite w.dma (some w.pid) (p.par 0) (bs.map fun b => some (b, false))
      (n / 4096 + 2)
  s1.finishRemote w.pid

def execFill (dt pid : Nat) (s : State) : Host.Outcome State Fault Refusal := run dt (onHandedMem pid [0x13] State.fillPacket) s

/-- `n` bytes of a tensor from byte `off`, each with its word's poison flag. -/
def State.tensorBytes (s : State) (x : OpCtx) (t : Tensor) (off n : Nat) : List (Byte × Bool) × State :=
  match t.spill with
  | none => (s.finishMoves.countRange t.tile (t.off + off) n x.master).readBytes t.tile (t.off + off) n x
  | some a => ((List.range n).map fun i =>
      let w := s.fetchedWord x.pid (a.toNat + off + i)
      (lget (wordBytes w.1) ((a.toNat + off + i) % 8) 0, w.2), s)

/-- The transpose of a matrix of elements of `k` bytes. -/
def transposeBytes (bs : List (Byte × Bool)) (k rows cols : Nat) : List (Byte × Bool) :=
  (List.range cols).flatMap fun c => (List.range rows).flatMap fun r => (bs.drop ((r * cols + c) * k)).take k

/-- Transpose one tensor's 2D view into another (R217). -/
def State.doTranspose (s : State) (w : Work) (a b : Tensor) : State :=
  let x := w.by_ (mTranspose a.tile)
  let n := a.rows * a.cols * a.elemBytes
  match s.tensorCheck x .read a n, s.tensorCheck x .write b n with
  | none, none =>
    let (bs, s1) := s.tensorBytes x a 0 n
    s1.writeTensor x w.pid b 0 ((transposeBytes bs a.elemBytes a.rows a.cols).map some)
  | some (r, o), _ => (s.logRes x r a.tile o (s.globalAddr a.tile o)).noteFail w.pid r.status.1 r.status.2
  | none, some (r, o) => (s.logRes x r b.tile o (s.globalAddr b.tile o)).noteFail w.pid r.status.1 r.status.2

/-- TRANSPOSE_COPY: a spilled source is read over the fabric first (R217, R246). -/
def State.transposePacket (w : Work) (s : State) : State :=
  let j := w.slot.getD 0
  match s.tensorKept j (w.pkt.par 0), s.tensorKept j (w.pkt.par 1) with
  | some a, some b =>
    let n := a.rows * a.cols * a.elemBytes
    if !s.allFetched w.pid [(a, n)] then
      if !w.tags.isEmpty then s
      else if w.failed then s.completeOuts w.pid
      else s.fetchTensor (w.by_ (mTranspose a.tile)) w.pid a 0 n
    else ((s.beginWrote w (s.tensorKeys a n) (s.tensorKeys b n)).doTranspose w a b).finishRemote w.pid
  | _, _ => s

def execTransposeCopy (dt pid : Nat) (s : State) : Host.Outcome State Fault Refusal :=
  run dt (onHandedMem pid [0x14] State.transposePacket) s

/-- FENCE: done once every packet of its job dispatched earlier from its window has replied; their operations are then
performed (R222). -/
def State.fencePacket (w : Work) (s : State) : State :=
  if s.works.any fun v => v.pid < w.pid && v.pkt.window == w.pkt.window && v.slot == w.slot then s
  else s.complete w.pid .done 0 0

def execFence (dt pid : Nat) (s : State) : Host.Outcome State Fault Refusal := run dt (onHanded pid [0x15] State.fencePacket) s

end Sys2Proof.Machine
end

