-- ==== Sys2Proof/Machine/Placement.lean ====
section
/-! DEFINITION. Placement rules and queries, and the start of page moves (09_placement.md R253 to R263). -/

namespace Sys2Proof.Machine

/-! ## PLACEMENT_HINT's parameters (R255, R256) -/

def Packet.plAction (p : Packet) : Nat := fld (p.par 0) 0 4
def Packet.plKind (p : Packet) : Nat := fld (p.par 0) 4 8
def Packet.plTarget (p : Packet) : Nat := (p.par 2).toNat

/-- The action a rule kind belongs to. -/
def kindAction (k : Nat) : Option Nat :=
  if k ≤ 3 || (8 ≤ k && k ≤ 0x0A) then some 0 else if 0x10 ≤ k && k ≤ 0x13 then some 1
  else if 0x20 ≤ k && k ≤ 0x23 then some 3 else none

/-- A kind needs a tensor handle, forbids one, or takes either. -/
def kindNeedsTensor (k : Nat) : Bool := k ≤ 3 || k = 0x12 || k = 0x13 || k = 0x20
def kindNeedsNone (k : Nat) : Bool := (8 ≤ k && k ≤ 0x0A) || k = 0x11 || k = 0x21 || k = 0x22

/-- The rule a hint or forbid names. -/
def Packet.rule (p : Packet) : Rule :=
  { action := p.plAction, kind := p.plKind, handle := handleNum (p.par 1), target := p.plTarget }

/-- The rules a withdraw removes (R257). -/
def Packet.withdraws (p : Packet) (r : Rule) : Bool :=
  if p.plKind = 0xFF then handleNum (p.par 1) = 0 || r.handle == handleNum (p.par 1)
  else r.kind == p.plKind && r.handle == handleNum (p.par 1) && r.target == p.plTarget

/-- The items of a packet that is running, or whose map is kept (R262). -/
def State.itemsOf (s : State) (slot : Nat) (h : Word) : Option (List Item) :=
  match s.works.find? fun w => w.pkt.window == fld h 32 6 && w.pkt.seq == fld h 0 32 && w.slot == some slot && !w.items.isEmpty with
  | some w => some w.items
  | none => (s.itemMaps.find? fun m => m.window == fld h 32 6 && m.seq == fld h 0 32 && m.slot == slot).map fun m => m.items

/-- The pages of a tensor that lie on a tile. -/
def State.pagesOn (s : State) (t : Tensor) (tile : Nat) : List Nat :=
  ((List.range t.pages).map fun i => t.page + i).filter fun l => let e := s.pageEntry t.tile l; e.backed && e.tile == tile

/-- A forbid of the job excludes a tile from backing a tensor: one of the tensor, or one of the job that is older than it (R256
NO_TILE). -/
def Job.tensorForbids (j : Job) (num tile : Nat) : Bool :=
  j.rules.any fun r => r.action == 1 && r.kind == 0x10 && r.target == tile && (r.handle == num || (r.handle == 0 && r.since ≤ num))

/-- The forbid would leave the job no available core, or the tensor no tile that can back it (R266 0x0152). -/
def State.forbidFatal (s : State) (slot : Nat) (r : Rule) : Bool :=
  let j := { s.job slot with rules := (s.job slot).rules ++ [r] }
  if r.handle = 0 then !(List.range 512).any fun g => s.coreFree slot g false && !j.forbidsCore g
  else if r.kind ≠ 0x10 then false
  else match s.tensors.find? fun t => t.num == r.handle && t.slot == slot with
    | none => false
    | some t =>
      let left := ((List.range 32).filter fun u => !j.tensorForbids r.handle u).map s.freeOn
      t.spill.isNone && left.foldl (· + ·) 0 < (s.pagesOn t r.target).length

/-- The query kinds' total. -/
def State.queryTotal (s : State) (slot : Nat) (p : Packet) : Nat :=
  if p.plKind = 0x20 then ((s.tensor slot (p.par 1)).map fun t => t.pages).getD 0
  else ((s.itemsOf slot (p.par 1)).map List.length).getD 0

/-- TARGET is out of range for its kind (R256, R266 0x0151). -/
def State.targetBad (s : State) (slot : Nat) (p : Packet) : Bool :=
  let k := p.plKind
  let t := p.plTarget
  if p.plAction = 2 then false
  else if k = 0x20 || k = 0x23 then
    fld (p.par 2) 32 16 = 0 || ((k = 0x20 || (s.itemsOf slot (p.par 1)).isSome) && s.queryTotal slot p ≤ fld (p.par 2) 0 32)
  else if k = 0x01 || k = 0x10 then 31 < t
  else if k = 0x03 || k = 0x0A then 3 < t
  else if k = 0x08 then 4095 < t
  else if k = 0x09 then 512 < t
  else if k = 0x11 then 511 < t
  else if k = 0x02 then false
  else t ≠ 0

/-- The BAD_PARAM detail of a PLACEMENT_HINT (R266). -/
def State.placeDetail (s : State) (slot : Nat) (p : Packet) : Option Nat :=
  let a := p.plAction
  let k := p.plKind
  let h := p.par 1
  let form := fld (p.par 0) 12 52 ≠ 0 || 3 < a || (p.par 3 ≠ 0 && a ≠ 3)
    || (if a = 2 then k ≠ 0xFF && (kindAction k = none || kindAction k = some 3) else kindAction k ≠ some a)
    || (kindNeedsTensor k && h = 0) || (kindNeedsNone k && h ≠ 0)
    || ((k = 0x20 || k = 0x23) && fld (p.par 2) 48 16 ≠ 0) || (k = 0x23 && fld h 38 26 ≠ 0)
  let isHandle := k ≠ 0x23 || a ≠ 3
  minDetail
    [failIf ((isHandle && h ≠ 0 && (s.tensor slot h).isNone) || (a = 0 && k = 0x02 && (s.tensor slot (p.par 2)).isNone)) 0x0005,
     failIf form 0x0150,
     failIf (!form && s.targetBad slot p) 0x0151,
     failIf (!form && a = 1 && s.forbidFatal slot p.rule) 0x0152,
     failIf (!form && a = 2 && !(s.job slot).rules.any p.withdraws) 0x0153,
     failIf (!form && a = 3 && k = 0x23 && (s.itemsOf slot h).isNone) 0x0154]

/-- A hint takes the place of an earlier rule (R257). -/
def Job.replaces (j : Job) (r : Rule) : Bool :=
  r.action == 0 && r.kind != 0x08 && j.rules.any fun q => q.action == 0 && q.kind == r.kind && q.handle == r.handle

/-- The quota of a job that counts against the others': the largest of the one recorded and those handed and not yet recorded. -/
def State.quotaClaim (s : State) (slot : Nat) : Nat :=
  ((s.works.filter fun w => w.slot == some slot && w.stage == .handed && w.pkt.opcode == 0x73 && w.pkt.plAction == 0 && w.pkt.plKind == 0x09).map
    fun w => w.pkt.plTarget).foldl max (s.job slot).quota

/-- The NO_RESOURCE detail of a PLACEMENT_HINT (R259, R266); requests handed and not yet recorded count. -/
def State.placeNoRes (s : State) (slot : Nat) (p : Packet) : Option Nat :=
  let j := s.job slot
  let r := p.rule
  let others := ((List.range 4).filter fun k => k ≠ slot && (s.job k).opened).map s.quotaClaim
  let waiting := (s.works.filter fun w => w.slot == some slot && w.stage == .handed && w.pkt.opcode == 0x73 && w.pkt.plAction ≤ 1)
  let n := j.rules.length + waiting.length
  let spills := (j.rules.filter fun q => q.kind == 0x08).length + (waiting.filter fun w => w.pkt.plKind == 0x08).length
  if 1 < p.plAction then none
  else minDetail
    [failIf ((!j.replaces r && 256 ≤ n) || (r.kind = 0x08 && 8 ≤ spills)) 0x0150,
     failIf (r.action = 0 && r.kind = 0x09 && s.coresInService < r.target + others.foldl (· + ·) 0) 0x0151]

/-! ## The packets -/

/-- Record a rule (R257). -/
def Job.addRule (j : Job) (r0 : Rule) : Job :=
  let r := { r0 with since := j.nextHandle }
  if j.replaces r then
    { j with rules := updFirst (fun q => q.action == 0 && q.kind == r.kind && q.handle == r.handle) (fun _ => r) j.rules }
  else { j with rules := j.rules ++ [r] }

/-- A packet of opcode 0x73 handed to the placer with this action. -/
def onPlacement (action pid : Nat) (f : Work → State → State) (s : State) : State :=
  onHanded pid [0x73] (fun w s => if w.pkt.plAction = action then f w s else s) s

/-- A hint is recorded (R257, R258). -/
def State.placeHint (w : Work) (s : State) : State :=
  (s.modJob (w.slot.getD 0) fun j => j.addRule w.pkt.rule).complete w.pid .done 0 0

def execPlacementHint (dt pid : Nat) (s : State) : Host.Outcome State Fault Refusal := run dt (onPlacement 0 pid State.placeHint) s

/-- Discard the staged copies that a forbid excludes: of a tensor on a tile, or in every tile's shared memory (R256). -/
def State.discardStaged (s : State) (slot : Nat) (r : Rule) : State :=
  match s.tensors.find? fun t => t.num == r.handle && t.slot == slot with
  | none => s
  | some t =>
    let mine (c : Staged) : Bool := c.homeTile == t.tile && t.page ≤ c.page && c.page < t.page + t.pages
    let out (c : Staged) : Bool := mine c && ((r.kind == 0x10 && c.tile == r.target) || (r.kind == 0x13 && c.core.isNone))
    { s with staged := s.staged.filter fun c => !out c }

/-- A forbid is added: excluded copies are discarded, and unstarted items leave excluded cores (R250, R258). -/
def State.placeForbid (w : Work) (s : State) : State :=
  let j := w.slot.getD 0
  let r := w.pkt.rule
  let s1 := (s.modJob j fun b => b.addRule r).discardStaged j r
  let s2 := if r.handle = 0 && (r.kind = 0x10 || r.kind = 0x11) && s1.forbidsHold j then
      let leave (v : Work) (i : Item) : Item :=
        match i.core with
        | some g => if v.slot == some j && !i.started && !i.finished && (s1.job j).forbidsCore g then { i with core := none } else i
        | none => i
      opItemsAssign { s1 with works := s1.works.map fun v => { v with items := v.items.map (leave v) } }
    else s1
  s2.modWork w.pid fun v => { v with stage := .waiting }

def execPlacementForbid (dt pid : Nat) (s : State) : Host.Outcome State Fault Refusal := run dt (onPlacement 1 pid State.placeForbid) s

/-- The tensor or job complies with a forbid (R258). -/
def State.complies (s : State) (slot : Nat) (r : Rule) : Bool :=
  if r.handle ≠ 0 then
    match s.tensors.find? fun t => t.num == r.handle && t.slot == slot with
    | none => true
    | some t => r.kind ≠ 0x10 || t.spill.isSome
        || ((s.pagesOn t r.target).isEmpty && !s.moves.any fun m => m.toTile == r.target && t.holds (m.tile, m.page))
  else
    let g (c : Nat) : Bool := (r.kind == 0x10 && c / 16 == r.target) || (r.kind == 0x11 && c == r.target)
    !(s.runningCores slot).any g

/-- A forbid that waits replies DONE once its tensor or job complies (R258). -/
def opForbidComplied (pid : Nat) (s : State) : State :=
  match s.work pid with
  | none => s
  | some w =>
    if w.stage = .waiting && w.pkt.opcode = 0x73 && w.pkt.plAction = 1 && s.complies (w.slot.getD 0) w.pkt.rule then
      s.complete pid .done 0 0
    else s

def execForbidComplied (dt pid : Nat) (s : State) : Host.Outcome State Fault Refusal := run dt (opForbidComplied pid) s

/-- A withdraw removes its rules; cores it frees take waiting items (R257). -/
def State.placeWithdraw (w : Work) (s : State) : State :=
  opItemsAssign ((s.modJob (w.slot.getD 0) fun j => { j with rules := j.rules.filter fun r => !w.pkt.withdraws r }).complete
    w.pid .done 0 0)

def execPlacementWithdraw (dt pid : Nat) (s : State) : Host.Outcome State Fault Refusal :=
  run dt (onPlacement 2 pid State.placeWithdraw) s

/-! ## Queries (R260, R261) -/

/-- The header of a query's record. -/
def State.queryHeader (s : State) (slot kind entries : Nat) (info : Word) (w3 : Nat) : List Word :=
  [wd (at_ kind 8 0 + at_ slot 2 8 + at_ entries 32 32), info, wd s.ftNow, wd w3]

/-- STATE of a core for a job in the CORES query (R261). No code names a core in a core-scope or tile-scope reset: it reads 1.
[Log entry 132: DESIGN CHOICE] -/
def State.coreState (s : State) (slot g : Nat) : Nat :=
  if s.retired (.core g) then 2
  else if !s.coreInService g || s.tested slot g || s.rel.suspects.contains g then 1
  else if !s.coreWhole g then 3 else 0

/-- A core's entry of the CORES query. -/
def State.coreEntry (s : State) (slot g : Nat) : Nat :=
  let on (p : Work → Bool) : Bool :=
    s.works.any fun w => p w && w.items.any fun i => i.core == some g && i.started && !i.finished
  s.coreState slot g + flag (s.forbidsHold slot && (s.job slot).forbidsCore g) 2 + flag (on fun w => w.slot == some slot) 3
    + flag (on fun w => w.slot != some slot) 4

/-- An entry of the ITEMS query. -/
def Item.entry (i : Item) : Nat :=
  let plain := if i.skipped || !i.finished then 0 else at_ i.ran 9 0 + at_ i.attempts 2 9
  plain + flag i.skipped 11 + flag (!i.finished) 12

/-- A rule's two words in the RULES query. -/
def Rule.words (r : Rule) : List Word := [wd (at_ r.action 4 0 + at_ r.kind 8 4 + at_ r.handle 32 32), wd r.target]

/-- The tiles whose shared memory holds a staged copy of a tensor's page, as a mask (R260). -/
def State.stagedMask (s : State) (t : Tensor) : Nat :=
  ((List.range 32).map fun u => flag (s.staged.any fun c => c.tile == u && c.core.isNone && c.homeTile == t.tile
    && t.page ≤ c.page && c.page < t.page + t.pages) u).foldl (· + ·) 0

/-- A query's record and its length: header and entries. -/
def State.queryAnswer (s : State) (w : Work) (head : List Word) (entries : List Byte) : State :=
  let bs := head.flatMap wordBytes ++ entries
  let s1 := s.writeResult w (s.ctl w) (w.pkt.par 3) bs false
  (s1.modWork w.pid fun v => { v with result := bs.length }).finishRemote w.pid

/-- A TENSOR query of a tensor that lies here, or the request to its spill module. -/
def State.queryTensor (s : State) (w : Work) (t : Tensor) (first count : Nat) : State :=
  let j := w.slot.getD 0
  let n := min count (t.pages - first)
  match t.spill with
  | some a =>
    (s.modWork w.pid fun v => { v with stage := .waiting }).control (addrModule a) w.fjob
      (.spill w.fjob [3, wd w.pid, a, wd first, wd n])
  | none =>
    let es := (List.range n).map fun i => s.pageEntry t.tile (t.page + first + i)
    let yielded := (List.range t.pages).any fun i =>
      let e := s.pageEntry t.tile (t.page + i)
      e.backed && (s.job j).tensorForbids t.num e.tile
    s.queryAnswer w (s.queryHeader j 0x20 n t.base (s.stagedMask t + flag yielded 32)) (es.flatMap fun e => natBytes 4 e.bits)

/-- PLACEMENT_HINT with action 3. -/
def State.placeQuery (w : Work) (s : State) : State :=
  let j := w.slot.getD 0
  let p := w.pkt
  let first := fld (p.par 2) 0 32
  let count := fld (p.par 2) 32 16
  match p.plKind with
  | 0x20 => match s.tensorKept j (p.par 1) with
    | none => s
    | some t => s.queryTensor w t first count
  | 0x21 =>
    s.queryAnswer w (s.queryHeader j 0x21 512 (wd (s.available j false).length) 0)
      ((List.range 512).map fun g => BitVec.ofNat 8 (s.coreEntry j g))
  | 0x22 =>
    let rs := (s.job j).rules
    s.queryAnswer w (s.queryHeader j 0x22 rs.length (wd rs.length) 0) ((rs.flatMap Rule.words).flatMap wordBytes)
  | _ =>
    let is := (s.itemsOf j (p.par 1)).getD []
    let es := (is.drop first).take count
    s.queryAnswer w (s.queryHeader j 0x23 es.length (wd is.length) 0) (es.flatMap fun i => natBytes 4 i.entry)

def execPlacementQuery (dt pid : Nat) (s : State) : Host.Outcome State Fault Refusal := run dt (onPlacement 3 pid State.placeQuery) s

/-- A spill module's part in a TENSOR query: the request's page-map entries, and their arrival (R261). -/
def State.spillQuery (s : State) (src fjob : Nat) (ws : List Word) : State :=
  match ws with
  | [3, pid, base, first, n] =>
    let es := (List.range n.toNat).map fun i => wd (s.pageEntry (addrTile base) (addrOff base / 65536 + first.toNat + i)).bits
    s.control src fjob (.spill fjob ([4, pid] ++ es))
  | 4 :: pid :: es =>
    match s.work pid.toNat with
    | none => s
    | some w =>
      if w.stage ≠ .waiting || w.pkt.opcode ≠ 0x73 then s
      else
        let j := w.slot.getD 0
        let base := ((s.tensorKept j (w.pkt.par 1)).map fun t => t.base).getD 0
        s.queryAnswer w (s.queryHeader j 0x20 es.length base 0) (es.flatMap fun e => natBytes 4 e.toNat)
  | _ => s.spillMessage src fjob ws

/-! ## Page moves (R202, R239, R253, R254, R257, R258) -/

/-- The tensor of this module that a logical page belongs to. -/
def State.pageTensor (s : State) (t l : Nat) : Option Tensor :=
  s.tensors.find? fun u => u.spill.isNone && u.tile == t && u.page ≤ l && l < u.page + u.pages

/-- The bucket whose accumulation buffer holds a logical page. -/
def State.pageBucket (s : State) (t l : Nat) : Option (Bucket × OwnerSide) :=
  s.buckets.findSome? fun b => b.owner.bind fun o =>
    if o.bufTile = t && o.bufPage ≤ l && l < o.bufPage + o.bufPages then some (b, o) else none

/-- Placement of a logical page on a tile is forbidden: by its tensor's forbids, or by the job's for its buffers. -/
def State.pageForbidden (s : State) (t l tile : Nat) : Bool :=
  match s.pageTensor t l with
  | some u => (s.job u.slot).tensorForbids u.num tile
  | none => match s.pageBucket t l with
    | some (b, _) => (s.job b.slot).forbidsTile tile
    | none => false

/-- A waiting forbid that a page breaks. -/
def State.brokenForbid (s : State) (t l : Nat) : Option Nat :=
  let e := s.pageEntry t l
  (s.works.find? fun w => w.stage == .waiting && w.pkt.opcode == 0x73 && w.pkt.plAction == 1 && w.pkt.plKind == 0x10
    && w.pkt.plTarget == e.tile && match s.pageTensor t l with
      | some u => w.slot == some u.slot && handleNum (w.pkt.par 1) == u.num
      | none => false).map fun w => w.pid

/-- A move of a tensor's page to a tile serves a rebalancing move's purpose: the page comes nearer its readers and writers of the step
just ended, free pages even out, or a hint asks for the tile (R243, R253, R256, R263). [Log entry 65: DESIGN CHOICE] -/
def State.favours (s : State) (u : Tensor) (l fromTile toTile : Nat) : Bool :=
  let cost (x : Nat) : Nat := ((s.access.filter fun a => a.tile == u.tile && a.page == l).map fun a => a.last * hops a.by_ x).foldl (· + ·) 0
  let hint (r : Rule) : Bool := r.action == 0 && r.handle == u.num && ((r.kind == 0x01 && r.target == toTile)
    || (r.kind == 0x02 && match s.tensorKept u.slot (wd r.target) with | some v => !(s.pagesOn v toTile).isEmpty | none => false))
  cost toTile < cost fromTile || s.freeOn fromTile < s.freeOn toTile || (s.job u.slot).rules.any hint

/-- The placer may rebalance a page to a tile (R253, R254): chosen at its job's last step boundary, of no tensor that LIFETIME 0 or
NO_MOVE holds, off every tile that a forbid of the job excludes, one at a time for each home tile. A buffer lasts no longer than its
bucket and is never rebalanced. [Log entry 65: DESIGN CHOICE] -/
def State.mayRebalance (s : State) (t l toTile : Nat) : Bool :=
  match s.pageTensor t l with
  | none => false
  | some u =>
    let j := s.job u.slot
    j.movable.contains u.num && u.life ≠ 0 && !j.rules.any (fun r => r.kind == 0x12 && r.handle == u.num)
      && !j.forbidsTile toTile && !s.moves.any (fun m => m.tile == t && m.cause == .rebalance)
      && s.favours u l (s.pageEntry t l).tile toTile

/-- Why a page may move to a tile now: its physical page has reached permanent class, a forbid excludes it,
or the placer rebalances it. [Log entry 65: DESIGN CHOICE] -/
def State.moveCause (s : State) (t l toTile : Nat) : Option MoveCause :=
  let e := s.pageEntry t l
  if s.physRetired e.tile e.channel e.page then some .retire
  else match s.brokenForbid t l with
    | some pid => some (.forbid pid)
    | none => if s.mayRebalance t l toTile then some .rebalance else none

/-- The placer starts a page move to a free physical page (R202). A retirement move may use a forbidden tile only when no
other page is free (R257). [Log entry 65: DESIGN CHOICE] -/
def opPageMove (t l toTile toChan toPage : Nat) (s : State) : State :=
  if !(s.pageEntry t l).backed || s.moving t l || !s.physFree toTile toChan toPage then s
  else match s.moveCause t l toTile with
    | none => s
    | some c =>
      let forced := c = .retire && !((List.range 32).any fun u => !s.pageForbidden t l u && s.freeOn u ≠ 0)
      if s.pageForbidden t l toTile && !forced then s
      else ({ s with moves := s.moves ++ [{ tile := t, page := l, toTile := toTile, toChan := toChan, toPage := toPage, cause := c }] } : State).settleDeferred

def execPageMove (dt tile page toTile toChannel toPage : Nat) (s : State) : Host.Outcome State Fault Refusal :=
  runPart "tile" tile 32 dt (opPageMove tile page toTile toChannel toPage) s

end Sys2Proof.Machine
end

