-- ==== Sys2Proof/Machine/Groups.lean ====
section
/-! DEFINITION. Groups, their binding and unbinding, group virtual channels, and communication queues (11_collectives.md R303
to R312, 10_links.md R289). -/

namespace Sys2Proof.Machine

/-! ## Groups (R303, R304) -/

/-- The group number that a packet of opcode 0x50 to 0x5A names. -/
def Packet.group (p : Packet) : Nat := if p.opcode = 0x5A then fld (p.par 0) 8 6 else fld (p.par 0) 0 6

/-- The group of a job slot. -/
def State.group (s : State) (slot g : Nat) : Option Group := (s.job slot).groups.find? fun x => x.num == g

/-- Change a group. -/
def State.modGroup (s : State) (slot g : Nat) (f : Group → Group) : State :=
  s.modJob slot fun j => { j with groups := updFirst (fun x => x.num == g) f j.groups }

/-- The number of members. -/
def Group.size (g : Group) : Nat := g.members.length

/-- The rank of a module. -/
def Group.rank (g : Group) (m : Nat) : Nat := g.members.findIdx fun x => x == m

/-- The module of a rank. -/
def Group.memberOf (g : Group) (r : Nat) : Nat := lget g.members r 0

/-- The module at torus coordinates (R290). -/
def torusModule (x y z : Nat) : Nat := x % 16 + 16 * (y % 16) + 256 * (z % 16)

/-- The members of a block group in rank order (R303). -/
def blockMembers (origin x y z : Nat) : List Nat :=
  (List.range z).flatMap fun k => (List.range y).flatMap fun j => (List.range x).map fun i =>
    torusModule (origin % 16 + i) (origin / 16 % 16 + j) (origin / 256 + k)

def Packet.bindVc (p : Packet) : Bool := bitOf (p.par 0) 8
def Packet.bindList (p : Packet) : Bool := bitOf (p.par 0) 9
def Packet.bindWeight (p : Packet) : Nat := fld (p.par 0) 16 8
def Packet.bindN (p : Packet) : Nat := fld (p.par 2) 0 13
def Packet.bindP (p : Packet) : Nat := fld (p.par 3) 0 6
def Packet.bindExt (p : Packet) : Nat × Nat × Nat := (fld (p.par 1) 16 8, fld (p.par 1) 24 8, fld (p.par 1) 32 8)

/-- The 16-bit entries of a list group's payload. -/
def Packet.listEntries (p : Packet) : List Nat :=
  p.payload.flatMap fun w => (List.range 4).map fun i => fld w (16 * i) 16

/-- The members that a GROUP_BIND names. -/
def Packet.bindMembers (p : Packet) : List Nat :=
  if p.bindList then p.listEntries.take p.bindN
  else blockMembers (fld (p.par 1) 0 12) p.bindExt.1 p.bindExt.2.1 p.bindExt.2.2

/-- The slots of payload that a GROUP_BIND must have. -/
def Packet.bindSlots (p : Packet) : Nat := if p.bindList then ceilDiv p.bindN 32 else 0

/-- The group a GROUP_BIND names is the one defined: same membership and P (R307). -/
def Group.same (g : Group) (p : Packet) : Bool :=
  g.block == !p.bindList && g.members == p.bindMembers && g.prec == p.bindP && (p.bindList || g.ext == p.bindExt)

/-- GROUP_BIND's membership is invalid (R332 0x0161). -/
def State.memberBad (s : State) (p : Packet) : Bool :=
  let n := p.bindN
  let (x, y, z) := p.bindExt
  let ms := p.bindMembers
  n = 0 || 4096 < n
    || (if p.bindList then p.par 1 ≠ 0 || p.listEntries.any (fun e => 4095 < e) || (p.listEntries.drop n).any (fun e => e ≠ 0)
          || ms.eraseDups.length ≠ ms.length
        else x = 0 || 16 < x || y = 0 || 16 < y || z = 0 || 16 < z || n ≠ x * y * z)
    || !ms.contains s.fabric.mod

/-- The BAD_PARAM detail of a GROUP_BIND (R75, R304, R332). -/
def State.bindDetail (s : State) (slot : Nat) (p : Packet) : Option Nat :=
  let prec := p.bindP
  minDetail
    [failIf (fld (p.par 0) 6 2 ≠ 0 || fld (p.par 0) 10 6 ≠ 0 || fld (p.par 0) 24 40 ≠ 0 || fld (p.par 1) 12 4 ≠ 0
        || fld (p.par 1) 40 24 ≠ 0 || fld (p.par 2) 13 51 ≠ 0 || fld (p.par 3) 6 58 ≠ 0) 0x0002,
     failIf (prec ≠ 0 && 2 ^ (63 - prec) < p.bindN) 0x0008,
     failIf (match s.group slot p.group with | none => false | some g => !g.same p) 0x0160,
     failIf (s.memberBad p) 0x0161,
     failIf ((prec ≠ 0 && (prec < 24 || 52 < prec)) || (if p.bindVc then p.bindWeight = 0 else p.bindWeight ≠ 0)) 0x0162]

/-- The NO_RESOURCE detail of a GROUP_BIND at its dispatch (R289, R309). -/
def State.bindNoRes (s : State) (slot : Nat) (p : Packet) : Option Nat :=
  let holds := match s.group slot p.group with | some g => g.vc.isSome | none => false
  minDetail
    [failIf (p.bindVc && !holds && 20 ≤ s.vcMarks.length) 0x0001,
     failIf ((s.group slot p.group).isNone && 64 ≤ (s.job slot).groups.length) 0x0005]

/-! ## Messages that are acknowledged and resent (R319) -/

/-- The next message tag. -/
def State.takeTag (s : State) : Nat × State := (s.nextTag, { s with nextTag := (s.nextTag + 1) % 2 ^ 28 })

/-- Send a binding message, kept until it is acknowledged (R305). -/
def State.sendBind (s : State) (dest job : Nat) (c : Ctl) : State :=
  let (t, s1) := s.takeTag
  let m : Msg := { s1.blank .control dest with job := job, ctl := c, tag := t }
  let e : Sent := { tag := t, msg := m, at_ := s1.ftNow, resent := false }
  ({ s1 with bindSent := s1.bindSent ++ [e] } : State).send m

/-- The job slot open under a fabric job number. -/
def State.slotOf (s : State) (fjob : Nat) : Option Nat :=
  (List.range 4).find? fun j => (s.job j).opened && (s.job j).fjob == fjob

/-! ## Group VC numbers (R306) -/

/-- The numbers free on this module; a module without the job has nothing to mark. -/
def State.freeVcs (s : State) (fjob : Nat) : List Nat :=
  let all := (List.range 20).map fun v => v + 4
  if (s.slotOf fjob).isNone then all else all.filter fun v => !s.vcMarks.any fun m => m.vc == v

/-- Take a mark as one indivisible act, or refuse it. -/
def State.takeMark (s : State) (fjob group vc weight : Nat) : Bool × State :=
  if (s.slotOf fjob).isNone || s.vcMarks.any fun m => m.vc == vc && m.fjob == fjob && m.group == group then (true, s)
  else if s.vcMarks.any fun m => m.vc == vc then (false, s)
  else (true, { s with vcMarks := s.vcMarks ++ [{ vc := vc, fjob := fjob, group := group, weight := weight }] })

/-- Free the mark of a group on this module; with `vc` 0 whatever number it marks. -/
def State.dropMark (s : State) (fjob group vc : Nat) : State :=
  { s with vcMarks := s.vcMarks.filter fun m => !(m.fjob == fjob && m.group == group && (vc == 0 || m.vc == vc)) }

/-- One coordinate's positions on the way from `a` to `b` by the shorter direction, ties to + (R292). -/
def axisWay (a b : Nat) : List Nat :=
  let up := (b + 16 - a) % 16
  if up ≤ 8 then (List.range (up + 1)).map fun i => (a + i) % 16
  else (List.range (16 - up + 1)).map fun i => (a + 16 - i) % 16

/-- The modules on the default route between two modules: X, then Y, then Z (R292). -/
def routeWay (a b : Nat) : List Nat :=
  let (ax, ay, az) := (a % 16, a / 16 % 16, a / 256)
  let (bx, by_, bz) := (b % 16, b / 16 % 16, b / 256)
  (axisWay ax bx).map (fun x => torusModule x ay az) ++ (axisWay ay by_).map (fun y => torusModule bx y az)
    ++ (axisWay az bz).map fun z => torusModule bx by_ z

/-- The modules on the route between two members: from this module its own table gives the first hop, to the port's peer; the
coordinator knows no other module's table and takes the default ones beyond it (R291, R306; log entry 74). [Log entry 74: DEDUCED] -/
def State.wayBetween (s : State) (a b : Nat) : List Nat :=
  let e := (kvGet s.fabric.routes b).getD 0x1F % 32
  match if a = s.fabric.mod && a ≠ b && e < 18 then (vget s.ports e).peer else none with
  | some p => a :: routeWay p b
  | none => routeWay a b

/-- The modules that a binding marks: the members, and those on routes between them, which mark nothing where the job is not open. -/
def State.marksOf (s : State) (members : List Nat) : List Nat :=
  (members ++ members.flatMap fun a => members.flatMap fun b => s.wayBetween a b).eraseDups

/-! ## The member's side (R305, R307) -/

/-- A member's pending binding of a group. -/
def State.pendingBind (s : State) (slot g : Nat) : Option Work :=
  s.works.find? fun w => w.slot == some slot && w.pkt.opcode == 0x50 && w.pkt.group == g && w.stage == .waiting

/-- The group that a GROUP_BIND defines. -/
def Packet.newGroup (p : Packet) (vc : Option Nat) : Group :=
  { num := p.group, block := !p.bindList, members := p.bindMembers, ext := if p.bindList then (0, 0, 0) else p.bindExt
    prec := p.bindP, vc := vc, weight := p.bindWeight }

/-- A member has unbound the group: once every member has, the crossed modules free their marks (R308). -/
def State.memberGone (s : State) (fjob g m : Nat) : State :=
  match s.binds.find? fun b => b.fjob == fjob && b.group == g && b.done with
  | none => s
  | some b =>
    let c := { b with gone := b.gone ++ [m] }
    let members := b.reqs.map Prod.fst
    let others := s.binds.filter fun x => !(x.fjob == fjob && x.group == g && x.done)
    if members.all fun x => c.gone.contains x then
      (b.toMark.filter fun x => !members.contains x).foldl
        (fun s x => if x = s.fabric.mod then s.dropMark fjob g b.vc else s.sendBind x fjob (.vcRelease fjob g b.vc))
        { s with binds := others }
    else { s with binds := others ++ [c] }

/-- A member learns the outcome from the coordinator and replies; one that no longer waits keeps no mark, and is no member of the
binding any more (R305, R308). -/
def State.bindOutcome (s : State) (src fjob g code detail vc : Nat) : State :=
  match s.slotOf fjob with
  | none => s
  | some j =>
    match s.pendingBind j g with
    | none =>
      if code = 0 && vc ≠ 0 && ((s.group j g).bind fun x => x.vc) ≠ some vc then
        let s1 := s.dropMark fjob g vc
        if src = s.fabric.mod then s1.memberGone fjob g src else s1.sendBind src fjob (.vcRelease fjob g vc)
      else s
    | some w =>
      if code = 0 then
        let v := if vc = 0 then none else some vc
        let s1 := match s.group j g with
          | none => s.modJob j fun b => { b with groups := b.groups ++ [w.pkt.newGroup v] }
          | some _ => s.modGroup j g fun x => { x with vc := v, weight := w.pkt.bindWeight }
        s1.complete w.pid .done 0 vc
      else s.complete w.pid (if code = 0x11 then .badParam else .noResource) detail 0

/-- Tell a module the outcome; this module itself at once. -/
def State.tellOutcome (s : State) (b : BindCo) (code detail vc m : Nat) : State :=
  if m = s.fabric.mod then s.bindOutcome m b.fjob b.group code detail vc
  else s.sendBind m b.fjob (.bindOut b.fjob b.group code detail vc)

/-! ## The coordinator's side (R305, R306) -/

/-- The binding in progress for a group. -/
def State.binding (s : State) (fjob g : Nat) : Option BindCo :=
  s.binds.find? fun b => b.fjob == fjob && b.group == g && !b.done

/-- Change the binding in progress. -/
def State.modBinding (s : State) (fjob g : Nat) (f : BindCo → BindCo) : State :=
  { s with binds := updFirst (fun b => b.fjob == fjob && b.group == g && !b.done) f s.binds }

/-- The binding ends without effect: every member that sent a request learns the status. -/
def State.endBinding (s : State) (b : BindCo) (code detail : Nat) : State :=
  (b.reqs.map Prod.fst).foldl (fun s m => s.tellOutcome b code detail 0 m)
    { s with binds := dropFirst (fun c => c.fjob == b.fjob && c.group == b.group && !c.done) s.binds }

/-- Every member learns the group's VC, 0 for none; the binding is kept so that its marks can be freed (R308). -/
def State.finishBinding (s : State) (b : BindCo) (vc : Nat) : State :=
  let rest := s.binds.filter fun c => !(c.fjob == b.fjob && c.group == b.group)
  (b.reqs.map Prod.fst).foldl (fun s m => s.tellOutcome b 0 0 vc m)
    { s with binds := rest ++ [{ b with done := true, vc := vc }] }

/-- The weight that the requests name. -/
def BindCo.weight (b : BindCo) : Nat := match b.reqs with | [] => 0 | r :: _ => fld r.2.p0 16 8

/-- This module takes or refuses the number being marked, where it marks for the binding itself. -/
def State.markSelf (s : State) (b : BindCo) (vc : Nat) : State :=
  if b.toMark.contains s.fabric.mod then
    let (ok, s1) := s.takeMark b.fjob b.group vc b.weight
    s1.modBinding b.fjob b.group fun c =>
      if ok then { c with marked := c.marked ++ [s.fabric.mod] } else { c with tried := c.tried ++ [vc] }
  else s

/-- The lowest number that every query found free and that has not been refused. -/
def BindCo.candidate (b : BindCo) : Option Nat :=
  ((List.range 20).map fun v => v + 4).find? fun v => !b.tried.contains v && b.frees.all fun f => f.2.contains v

/-- Withdraw the marks obtained for a number. -/
def State.withdrawMarks (s : State) (b : BindCo) (vc : Nat) : State :=
  b.marked.foldl (fun s m => if m = s.fabric.mod then s.dropMark b.fjob b.group vc
    else s.sendBind m b.fjob (.vcWithdraw b.fjob b.group vc)) s

/-- Go on with a binding whose queries are answered: mark the next number, or end it (R306). `fuel` bounds the numbers. -/
def State.tryMarks (s : State) (fjob g : Nat) : Nat → State
  | 0 => s
  | fuel + 1 =>
    match s.binding fjob g with
    | none => s
    | some b =>
      match b.trying with
      | some vc =>
        if b.tried.contains vc then
          ((s.withdrawMarks b vc).modBinding fjob g fun c => { c with trying := none, marked := [] }).tryMarks fjob g fuel
        else if b.toMark.all fun m => b.marked.contains m then s.finishBinding b vc
        else s
      | none =>
        match b.candidate with
        | none => s.endBinding b 0x12 0x0001
        | some vc =>
          let s1 := (s.modBinding fjob g fun c => { c with trying := some vc }).markSelf b vc
          let s2 := (b.toMark.filter fun m => m ≠ s.fabric.mod).foldl
            (fun s m => s.sendBind m fjob (.vcMark fjob g vc b.weight)) s1
          s2.tryMarks fjob g fuel

/-- Every query is answered: the numbers are tried from the lowest. -/
def State.queried (s : State) (fjob g : Nat) : State :=
  match s.binding fjob g with
  | none => s
  | some b =>
    if b.trying.isNone && !b.toMark.isEmpty && b.toMark.all fun m => b.frees.any fun f => f.1 == m then s.tryMarks fjob g 42
    else s

/-- Every member's request has arrived: without a VC the group is bound; otherwise the free numbers are asked for. -/
def State.allRequested (s : State) (b : BindCo) (r : BindReq) : State :=
  if !bitOf r.p0 8 then s.finishBinding b 0
  else
    let ms := s.marksOf r.members
    let mine := if ms.contains s.fabric.mod then [(s.fabric.mod, s.freeVcs b.fjob)] else []
    let s1 := s.modBinding b.fjob b.group fun c => { c with toMark := ms, frees := mine }
    ((ms.filter fun m => m ≠ s.fabric.mod).foldl (fun s m => s.sendBind m b.fjob (.vcQuery b.fjob b.group)) s1).queried
      b.fjob b.group

/-- A member's request reaches the coordinator (R305). [Log entry 74: DEDUCED] -/
def State.bindRequest (s : State) (src stamp : Nat) (r : BindReq) : State :=
  let b0 := match s.binding r.fjob r.group with
    | some b => b
    | none => { fjob := r.fjob, slot := (s.slotOf r.fjob).getD 4, group := r.group, reqs := [], firstAt := stamp }
  let b := { b0 with reqs := b0.reqs.filter (fun q => q.1 != src) ++ [(src, r)] }
  let s1 := if (s.binding r.fjob r.group).isSome then s.modBinding r.fjob r.group fun _ => b
    else { s with binds := s.binds ++ [b] }
  if b.reqs.any fun q => q.2 != r then s1.endBinding b 0x11 0x0167
  else if r.members.all fun m => b.reqs.any fun q => q.1 == m then s1.allRequested b r
  else s1

/-- A module answers a mark. -/
def State.markAnswer (s : State) (src fjob g vc : Nat) (taken : Bool) : State :=
  match s.binding fjob g with
  | none => if taken then s.sendBind src fjob (.vcWithdraw fjob g vc) else s
  | some b =>
    if b.trying ≠ some vc then (if taken then s.sendBind src fjob (.vcWithdraw fjob g vc) else s)
    else
      (s.modBinding fjob g fun c => if taken then { c with marked := c.marked ++ [src] } else { c with tried := c.tried ++ [vc] }).tryMarks
        fjob g 42

/-! ## GROUP_BIND -/

/-- A GROUP_BIND's request to the coordinator. -/
def Work.bindReq (w : Work) : BindReq :=
  let p := w.pkt
  { fjob := w.fjob, group := p.group, p0 := p.par 0, p1 := p.par 1, p2 := p.par 2, p3 := p.par 3, members := p.bindMembers }

/-- The member sends its request to the member of rank 0. -/
def State.askCoordinator (s : State) (w : Work) : State :=
  let s1 := s.modWork w.pid fun v => { v with stage := .waiting, due := s.ftNow }
  let c := lget w.pkt.bindMembers 0 0
  if c = s.fabric.mod then s1.bindRequest c s.ftNow w.bindReq else s1.sendBind c w.fjob (.bindReq w.bindReq)

/-- GROUP_BIND: a group already defined is dealt with here, save where a VC must be bound (R305, R307). -/
def State.groupBind (w : Work) (s : State) : State :=
  match s.group (w.slot.getD 0) w.pkt.group with
  | none => s.askCoordinator w
  | some g =>
    if !g.same w.pkt then s.complete w.pid .badParam 0x0160 0
    else if !w.pkt.bindVc then s.complete w.pid .done 0 0
    else match g.vc with
      | none => s.askCoordinator w
      | some v =>
        let s1 := s.modGroup (w.slot.getD 0) g.num fun x => { x with weight := w.pkt.bindWeight }
        let re (m : VcMark) : VcMark := if m.vc == v && m.fjob == w.fjob && m.group == g.num then { m with weight := w.pkt.bindWeight } else m
        ({ s1 with vcMarks := s1.vcMarks.map re }).complete w.pid .done 0 v

def execGroupBind (dt pid : Nat) (s : State) : Host.Outcome State Fault Refusal := run dt (onHanded pid [0x50] State.groupBind) s

/-! ## The binding's messages -/

/-- The first delivered message that meets `p` is taken, and acted on. -/
def State.takeDelivered (s : State) (p : Msg → Bool) (f : Delivered → State → State) : State :=
  match s.delivered.find? fun d => p d.msg with
  | none => s
  | some d => f d { s with delivered := dropFirst (fun e => p e.msg) s.delivered }

def isBindRequest (m : Msg) : Bool := match m.ctl with | .bindReq _ => true | _ => false

/-- The coordinator receives a member's request (R305). -/
def opBindRequest (s : State) : State :=
  s.takeDelivered isBindRequest fun d s =>
    match d.msg.ctl with
    | .bindReq r => s.bindRequest d.msg.src d.stamp r
    | _ => s

def execBindRequest (dt : Nat) (s : State) : Host.Outcome State Fault Refusal := run dt opBindRequest s

/-- An answer to the coordinator's query or mark. -/
def isMarkReply (m : Msg) : Bool :=
  match m.ctl with
  | .vcFree _ _ _ => true
  | .vcMarked _ _ _ _ => true
  | _ => false

/-- The coordinator receives a module's answer to its query or its mark (R306). -/
def opMarkReply (s : State) : State :=
  s.takeDelivered isMarkReply fun d s =>
    match d.msg.ctl with
    | .vcFree fjob g free =>
      (s.modBinding fjob g fun b => { b with frees := b.frees.filter (fun f => f.1 != d.msg.src) ++ [(d.msg.src, free)] }).queried fjob g
    | .vcMarked fjob g vc taken => s.markAnswer d.msg.src fjob g vc taken
    | _ => s

def execMarkReply (dt : Nat) (s : State) : Host.Outcome State Fault Refusal := run dt opMarkReply s

/-- A message for a module that a binding marks. -/
def forMarked (m : Msg) : Bool :=
  match m.ctl with
  | .vcQuery _ _ => true
  | .vcMark _ _ _ _ => true
  | .vcWithdraw _ _ _ => true
  | .vcRelease _ _ _ => true
  | _ => false

/-- A module that the binding marks takes the next message (R306, R308). -/
def opBindMark (s : State) : State :=
  s.takeDelivered forMarked fun d s =>
    match d.msg.ctl with
    | .vcQuery fjob g => s.sendBind d.msg.src fjob (.vcFree fjob g (s.freeVcs fjob))
    | .vcMark fjob g vc weight =>
      let (ok, s1) := s.takeMark fjob g vc weight
      s1.sendBind d.msg.src fjob (.vcMarked fjob g vc ok)
    | .vcWithdraw fjob g vc => s.dropMark fjob g vc
    | .vcRelease fjob g vc =>
      if s.binds.any fun b => b.fjob == fjob && b.group == g && b.done then s.memberGone fjob g d.msg.src else s.dropMark fjob g vc
    | _ => s

def execBindMark (dt : Nat) (s : State) : Host.Outcome State Fault Refusal := run dt opBindMark s

def isOutcome (m : Msg) : Bool := match m.ctl with | .bindOut _ _ _ _ _ => true | _ => false

/-- A member receives the outcome and replies (R305). -/
def opBindOutcome (s : State) : State :=
  s.takeDelivered isOutcome fun d s =>
    match d.msg.ctl with
    | .bindOut fjob g code detail vc => s.bindOutcome d.msg.src fjob g code detail vc
    | _ => s

def execBindOutcome (dt : Nat) (s : State) : Host.Outcome State Fault Refusal := run dt opBindOutcome s

/-- Requests are missing 10 ms after the first (R305). [Log entry 74: DEDUCED] -/
def opBindTimeout (slot g : Nat) (s : State) : State :=
  match s.binding (s.job slot).fjob g with
  | none => s
  | some b =>
    let all := match b.reqs with | [] => false | r :: _ => r.2.members.all fun m => b.reqs.any fun q => q.1 == m
    if !(s.job slot).opened || all || s.ftNow < b.firstAt + 10000000 then s else s.endBinding b 0x12 0x0161

def execBindTimeout (dt slot group : Nat) (s : State) : Host.Outcome State Fault Refusal :=
  runPart "slot" slot 4 dt (opBindTimeout slot group) s

/-- No outcome 12 ms after the member's request (R305): the group stays undefined on it, and it keeps no mark. -/
def opBindMemberTimeout (pid : Nat) (s : State) : State :=
  match s.work pid with
  | none => s
  | some w =>
    if w.pkt.opcode ≠ 0x50 || w.stage ≠ .waiting || s.ftNow < w.due + 12000000 then s
    else
      let s1 := if (s.group (w.slot.getD 0) w.pkt.group).isNone then s.dropMark w.fjob w.pkt.group 0 else s
      s1.complete pid .noResource 0x0161 0

def execBindMemberTimeout (dt pid : Nat) (s : State) : Host.Outcome State Fault Refusal := run dt (opBindMemberTimeout pid) s

/-! ## Communication queues (R309 to R311) -/

/-- An opcode that takes a place in a communication queue. -/
def isCollective (op : Nat) : Bool := 0x52 ≤ op && op ≤ 0x5A

/-- The collectives of a queue dispatched and not completed. -/
def State.queueLoad (s : State) (slot g : Nat) : Nat :=
  (s.works.filter fun w => w.slot == some slot && isCollective w.pkt.opcode && w.pkt.group == g
    && !(w.pkt.opcode == 0x59 && bitOf (w.pkt.par 0) 8)).length

/-- A collective takes its place in its group's queue and its sequence number, at dispatch (R310). -/
def State.enqueue (s : State) (slot g pid : Nat) : State :=
  match s.group slot g with
  | none => s
  | some x =>
    (s.modGroup slot g fun y => { y with queue := y.queue ++ [pid], cseq := (y.cseq + 1) % 2 ^ 24 }).modWork pid
      fun w => { w with cseq := x.cseq }

/-- A collective leaves the head of its queue: it has started, or it has ended. -/
def State.dequeue (s : State) (slot g pid : Nat) : State :=
  s.modGroup slot g fun x => { x with queue := x.queue.filter fun q => q != pid }

end Sys2Proof.Machine
end

