-- ==== Sys2Proof/Machine/Rowan.lean ====
section
/-! DEFINITION. The Rowan path: flits, ring passes and recovery (11_collectives.md R325 to R330, 10_links.md R273, R294). -/

namespace Sys2Proof.Machine

/-! ## Operations (R326) -/

/-- The identity of an operation over 64-bit lanes. -/
def rowanIdentity : Nat → Nat
  | 1 => 2 ^ 63 | 2 => 2 ^ 63 - 1 | 4 => 2 ^ 64 - 1 | 5 => 2 ^ 64 - 1 | _ => 0

/-- One lane of an operation. -/
def rowanOp (op a b : Nat) : Nat :=
  match op with
  | 0 => (a + b) % 2 ^ 64
  | 1 => if fromTwos 64 a < fromTwos 64 b then b else a
  | 2 => if fromTwos 64 b < fromTwos 64 a then b else a
  | 3 => max a b
  | 4 => min a b
  | 5 => a &&& b
  | 6 => a ||| b
  | _ => a ^^^ b

/-- An operation over lanes. -/
def rowanOps (op : Nat) (a b : List Nat) : List Nat := a.zipWith (rowanOp op) b

/-! ## Flits (R328) -/

/-- The four words of a flit. -/
def Flit.words (f : Flit) : List Word :=
  wd (at_ f.tag 6 0 + at_ f.kind 2 6 + at_ f.op 4 8 + at_ f.axis 2 12 + at_ f.inst 8 14 + at_ f.step 4 22 + at_ f.part 2 26
      + at_ f.dest 12 30 + at_ f.group 6 42 + at_ f.jobLo 16 48)
    :: (List.range 3).map fun i => wd (lget f.lanes i 0)

/-- The flit that four words spell. -/
def flitOf (ws : List Word) : Flit :=
  let h := lget ws 0 0
  { tag := fld h 0 6, kind := fld h 6 2, op := fld h 8 4, axis := fld h 12 2, inst := fld h 14 8, step := fld h 22 4
    part := fld h 26 2, dest := fld h 30 12, group := fld h 42 6, jobLo := fld h 48 16
    lanes := (List.range 3).map fun i => (lget ws (i + 1) 0).toNat }

/-- The flits of an operand: three lanes in each. -/
def operandFlits (f : Flit) (lanes : Nat) (v : List Nat) : List Flit :=
  (List.range (ceilDiv lanes 3)).map fun k => { f with part := k, lanes := (v.drop (3 * k)).take 3 }

/-! ## Sending (R329, R298, R330) -/

/-- A frame handed to a link at an instant: MORE of a frame handed to it at that same instant says that another follows (R273). -/
def pushFrame (now : Nat) (cs : List Codeword) (tx : List RowanFrame) : List RowanFrame :=
  { words := cs, at_ := now } :: match tx with
    | [] => []
    | f :: fs => (if f.at_ = now then { f with more := true } else f) :: fs

/-- Hand a frame for a module to the member link that its port gives it (R273, R329). -/
def State.sendFrame (s : State) (dest tag : Nat) (cs : List Codeword) : State :=
  match s.outPort dest with
  | none => s
  | some p => match memberOf (s.slots p) tag with
    | none => s
    | some l => s.modLink l fun k => { k with rowanTx := pushFrame s.uptime cs k.rowanTx }

/-- Send a flit as a Rowan frame, or in legacy mode as a COLLECTIVE message on VC1 (R298). -/
def State.sendFlit (s : State) (f : Flit) : State :=
  let cs := f.words.map fun w => encodeWord w false
  if s.fabric.legacy then s.send { s.blank .collective f.dest with vc := 1, data := cs, len := 31, tag := f.tag }
  else s.sendFrame f.dest f.tag cs

/-! ## Ring passes (R327) -/

/-- The rings of a group through one module, with their axes: block axes of extent above 1 in the order X, Y, Z, or the
list. -/
def Group.rings (g : Group) (m : Nat) : List (Nat × List Nat) :=
  if !g.block then (if g.size ≤ 1 then [] else [(3, g.members)])
  else
    let (x, y, z) := g.ext
    let r := g.rank m
    let (i, j, k) := (r % x, r / x % y, r / (x * y))
    let at3 (i j k : Nat) : Nat := g.memberOf (i + x * (j + y * k))
    [(0, (List.range x).map fun a => at3 a j k), (1, (List.range y).map fun a => at3 i a k),
     (2, (List.range z).map fun a => at3 i j a)].filter fun r => 1 < r.2.length

/-- The ring now run, its axis and its members. -/
def RowanRun.ring (u : RowanRun) : Nat × List Nat := lget u.rings 0 (3, [])

/-- a and b of R327. -/
def RowanRun.a (u : RowanRun) : Nat := u.ring.2.length / 2
def RowanRun.b (u : RowanRun) : Nat := u.ring.2.length - 1 - u.a

/-- The STEP field of step `k`: on a list ring the count restarts after 15 (R328). -/
def stepField (axis k : Nat) : Nat := if axis = 3 then (k - 1) % 15 + 1 else k

/-- The next and the previous member of a ring after a module. -/
def ringNext (ms : List Nat) (m : Nat) : Nat := lget ms ((ms.findIdx (fun x => x == m) + 1) % ms.length) 0
def ringPrev (ms : List Nat) (m : Nat) : Nat := lget ms ((ms.findIdx (fun x => x == m) + ms.length - 1) % ms.length) 0

/-- The header of a run's flits at its present step. -/
def RowanRun.header (u : RowanRun) (tag kind dest : Nat) : Flit :=
  { tag := tag, kind := kind, op := u.op, axis := u.ring.1, inst := u.inst % 256, step := stepField u.ring.1 u.step, part := 0
    dest := dest, group := u.group, jobLo := u.fjob % 65536, lanes := [] }

/-- The flits that a run sends at its present step. -/
def RowanRun.stepFlits (u : RowanRun) (tag me : Nat) : List Flit :=
  operandFlits (u.header tag 0 (ringNext u.ring.2 me)) u.lanes u.up
    ++ (if u.step ≤ u.b then operandFlits (u.header tag 1 (ringPrev u.ring.2 me)) u.lanes u.dn else [])

/-- Begin the present ring: every partial result starts at v or the identity. -/
def RowanRun.beginRing (u : RowanRun) : RowanRun :=
  let id := List.replicate u.lanes (rowanIdentity u.op)
  { u with step := 1, up := u.v, dn := u.v, x := id, y := id }

/-- A wave's flits of the present step, when all have come. -/
def RowanRun.wave (u : RowanRun) (kind : Nat) : Option (List Nat) :=
  let mine (k : Nat) : Option Flit :=
    u.got.find? fun f => f.kind == kind && f.axis == u.ring.1 && f.step == stepField u.ring.1 u.step && f.part == k
  let parts := (List.range (ceilDiv u.lanes 3)).map mine
  if parts.all Option.isSome then some ((parts.flatMap fun p => (p.map fun f => f.lanes).getD []).take u.lanes) else none

/-- The present step's flits are used up. -/
def RowanRun.usedUp (u : RowanRun) : List Flit :=
  u.got.filter fun f => !(f.axis == u.ring.1 && f.step == stepField u.ring.1 u.step)

/-- A step completed: the run after it, and whether the reduction is complete on this module. -/
def RowanRun.stepOnce (u : RowanRun) : Option (RowanRun × Bool) :=
  match u.wave 0, (if u.step ≤ u.b then u.wave 1 else some []) with
  | some x, some y =>
    let u1 := { u with x := x, up := rowanOps u.op u.v x, got := u.usedUp }
    let u2 := if u.step ≤ u.b then { u1 with y := y, dn := rowanOps u.op u.v y } else u1
    if u.step < u.a then some ({ u2 with step := u.step + 1 }, false)
    else
      let v := rowanOps u.op (rowanOps u.op u.v u2.x) u2.y
      let u3 := { u2 with v := v, rings := u.rings.drop 1 }
      if u3.rings.isEmpty then some (u3, true) else some (u3.beginRing, false)
  | _, _ => none

/-- A reduction that has completed on this module, with its result in `v`. -/
abbrev RowanEnd := Option RowanRun

/-- The run of a tag. -/
def State.run (s : State) (tag : Nat) : Option RowanRun := vget s.rowan tag

/-- Put a run, or none, in a tag. -/
def State.setRun (s : State) (tag : Nat) (u : Option RowanRun) : State := { s with rowan := vset s.rowan tag u }

/-- The run sends the flits of its present step, and keeps them (R330). -/
def State.sendStep (s : State) (tag : Nat) (u : RowanRun) : State :=
  let fs := u.stepFlits tag s.fabric.mod
  (fs.foldl State.sendFlit s).setRun tag (some { u with sent := u.sent ++ fs, sentAt := s.ftNow, asked := 0 })

/-- The tag is free again; the flits sent stay for neighbours that still miss one. -/
def State.endRun (s : State) (tag : Nat) (u : RowanRun) : State :=
  let same (t : TagUse) : Bool := t.tag == tag && t.fjob == u.fjob && t.group == u.group
  { s.setRun tag none with tagUses := updAll same (fun t => { t with sent := u.sent }) s.tagUses }

/-- Go through the steps whose flits have all come. -/
def State.advanceRun (s : State) (tag : Nat) : Nat → RowanEnd × State
  | 0 => (none, s)
  | fuel + 1 =>
    match s.run tag with
    | none => (none, s)
    | some u =>
      match u.stepOnce with
      | none => (none, s)
      | some (u1, true) => (some u1, s.endRun tag u1)
      | some (u1, false) => (s.sendStep tag u1).advanceRun tag fuel

/-- A flit belongs to a reduction a run performs: group, job and instance (R328). -/
def RowanRun.owns (u : RowanRun) (f : Flit) : Bool :=
  f.group == u.group && f.jobLo == u.fjob % 65536 && f.inst == u.inst % 256

/-- A flit that the run has not had and may still need: of a later ring, or at most two steps ahead on this one. -/
def RowanRun.wants (u : RowanRun) (f : Flit) : Bool :=
  f.kind ≤ 1 && !(u.got.any fun g => g.kind == f.kind && g.axis == f.axis && g.step == f.step && g.part == f.part)
    && ((u.rings.drop 1).any (fun r => r.1 == f.axis)
      || (f.axis == u.ring.1 && (List.range 3).any fun k => u.step + k ≤ u.a && f.step == stepField f.axis (u.step + k)))

/-- Count of a group's uses of a tag. [Log entry 71: DEDUCED] -/
def State.tagCount (s : State) (tag fjob group : Nat) : Nat :=
  ((s.tagUses.find? fun t => t.tag == tag && t.fjob == fjob && t.group == group).map fun t => t.count).getD 0

/-- Start a reduction on a free tag, with the flits that came early (R325, R327, R328). A group of one member completes at
once (R333). -/
def State.startRun (s : State) (tag slot : Nat) (g : Group) (serves : RowanUse) (op : Nat) (v : List Nat) : RowanEnd × State :=
  let fjob := (s.job slot).fjob
  let n := s.tagCount tag fjob g.num
  let rest := s.tagUses.filter fun t => !(t.tag == tag && t.fjob == fjob && t.group == g.num)
  let s1 := { s with tagUses := rest ++ [{ tag := tag, fjob := fjob, group := g.num, count := n + 1 }] }
  let u0 : RowanRun := { serves := serves, fjob := fjob, slot := slot, group := g.num, inst := n, op := op, lanes := v.length
                         rings := g.rings s.fabric.mod, step := 0, sentAt := s.ftNow, v := v, up := v, dn := v, x := [], y := [] }
  if u0.rings.isEmpty then (some u0, s1)
  else
    let mine := s.rowanEarly.filter fun f => f.tag == tag && u0.owns f
    let u1 := { u0.beginRing with got := mine }
    let s2 := { s1 with rowanEarly := s.rowanEarly.filter fun f => !(f.tag == tag && u0.owns f) }
    (s2.sendStep tag u1).advanceRun tag (mine.length + 1)

/-- The group of an open job that a flit names. -/
def State.flitGroup (s : State) (f : Flit) : Option (Nat × Group) :=
  (List.range 4).findSome? fun j =>
    if (s.job j).opened && (s.job j).fjob % 65536 == f.jobLo then (s.group j f.group).map fun g => (j, g) else none

/-- Count a discarded Rowan frame on the link it came on (R274, R328). -/
def State.discardFlit (s : State) (link : Option Nat) : State :=
  match link with
  | none => s
  | some l => s.modLink l fun k => { k with rowanDiscard := satInc 16 k.rowanDiscard }

/-- A flit of the next use of its tag waits for that use to start; another flit is discarded (R328). [Log entry 71: DEDUCED] -/
def State.earlyFlit (s : State) (link : Option Nat) (f : Flit) : State :=
  let held := match s.run f.tag with
    | none => true
    | some u => u.group == f.group && u.fjob % 65536 == f.jobLo
  match s.flitGroup f with
  | some (j, g) =>
    if held && f.kind ≤ 1 && f.inst = s.tagCount f.tag (s.job j).fjob g.num % 256 then
      if s.rowanEarly.contains f then s else { s with rowanEarly := s.rowanEarly ++ [f] }
    else s.discardFlit link
  | none => s.discardFlit link

/-- A flit for this module arrives: it is matched to its reduction, and advances the ring pass (R327, R328). A flit that
the run has had already is dropped. -/
def State.takeFlit (s : State) (link : Option Nat) (f : Flit) : RowanEnd × State :=
  match s.run f.tag with
  | none => (none, s.earlyFlit link f)
  | some u =>
    if !u.owns f then (none, s.earlyFlit link f)
    else if !u.wants f then (none, s)
    else (s.setRun f.tag (some { u with got := u.got ++ [f] })).advanceRun f.tag (u.got.length + 2)

/-- The flit of a frame's codewords; none where a word is not correct or correctable, or is poisoned. -/
def frameFlit (cs : List Codeword) : Option Flit :=
  let fs := cs.map eccFix
  if cs.length = 4 && cs.all (fun c => eccCheck c != .uncorrectable) && fs.all (fun f => !cwPoison f.1) then
    some (flitOf (fs.map fun f => cwData f.1)) else none

/-- A transit frame is forwarded as R294 says, its words unchecked. -/
def State.frameTransit (s : State) (l : Nat) (f : Flit) (cs : List Codeword) : State :=
  let drop := s.modLink l fun k => { k with transitDrop := satInc 16 k.transitDrop }
  if !s.fabric.modValid || s.fabric.legacy then drop
  else match s.outPort f.dest with
    | none => s.modLink l fun k => { k with unreachDrop := satInc 16 k.unreachDrop }
    | some p =>
      if s.fabric.transitEn && s.fabric.res.toList.any fun r =>
          r.valid && r.job % 65536 == f.jobLo && r.outPort == p && (r.inPort == (s.link l).port || r.inPort == 0x1F) then
        s.sendFrame f.dest f.tag cs
      else drop

/-- A Rowan frame is received on a link (R274, R328): the flit of this module that it carries. A module without a number, and a
link whose port is not formed, take none (R278, R301). -/
def State.frameIn (s : State) (l : Nat) (intact : Bool) (cs : List Codeword) : Option Flit × State :=
  if (s.link l).st ≠ .up then (none, s)
  else if !intact || !s.formed (s.link l).port || !s.fabric.modValid then (none, s.discardFlit (some l))
  else
    let raw := flitOf (cs.map cwData)
    if raw.dest ≠ s.fabric.mod && (frameFlit cs).all (fun f => f.dest ≠ s.fabric.mod) then (none, s.frameTransit l raw cs)
    else match frameFlit cs with
      | none => (none, s.discardFlit (some l))
      | some f => (some f, s)

/-! ## Recovery (R330) -/

/-- Send resend requests for the present step, by frames or after four by CONTROL messages. -/
def State.askAgain (s : State) (tag : Nat) (u : RowanRun) : State :=
  let me := s.fabric.mod
  let missing := (if (u.wave 0).isNone then [ringPrev u.ring.2 me] else [])
    ++ (if u.step ≤ u.b && (u.wave 1).isNone then [ringNext u.ring.2 me] else [])
  let ask (s : State) (m : Nat) : State :=
    let f := u.header tag 2 m
    if u.asked < 4 then s.sendFlit f else s.control m u.fjob (.rowan (f.words.map fun w => encodeWord w false))
  (missing.eraseDups.foldl ask s).setRun tag (some { u with asked := u.asked + 1, sentAt := s.ftNow })

/-- 1 µs passes without a step's flit (R330). -/
def opRowanResendTimer (tag : Nat) (s : State) : State :=
  match s.run tag with
  | none => s
  | some u => if s.ftNow < u.sentAt + 1000 then s else s.askAgain tag u

def execRowanResendTimer (dt tag : Nat) (s : State) : Host.Outcome State Fault Refusal :=
  runPart "tag" tag 64 dt (opRowanResendTimer tag) s

/-- Of the flits sent on an axis, in their order, those of the last four steps: a neighbour is never further behind, and on a list ring
of more than 31 members an earlier STEP comes again (R328). -/
def recentFlits (fs : List Flit) : List Flit := fs.drop (fs.length - 8 * ((fs.map fun f => f.part).foldl max 0 + 1))

/-- The flits that this member sent in the step that a request names. -/
def State.sentFlits (s : State) (f : Flit) : List Flit :=
  let running := match s.run f.tag with | some u => if u.owns f then u.sent else [] | none => []
  let past := (s.tagUses.filter fun t => t.tag == f.tag && t.fjob % 65536 == f.jobLo && t.group == f.group).flatMap fun t => t.sent
  (recentFlits ((past ++ running).filter fun g => g.axis == f.axis && g.inst == f.inst)).filter fun g => g.step == f.step

/-- Send the flits of a step again: as frames, or to a member that asked by CONTROL messages. -/
def State.resendFlits (s : State) (f : Flit) (byControl : Option Nat) : State :=
  (s.sentFlits f).foldl (fun s g => match byControl with
    | none => s.sendFlit g
    | some m => if g.dest = m then s.control m f.jobLo (.rowan (g.words.map fun w => encodeWord w false)) else s) s

/-- A resend request arrives as a frame (R330). -/
def opRowanResendRequest (l : Nat) (cs : List Codeword) (s : State) : State :=
  match s.frameIn l true cs with
  | (none, s1) => s1
  | (some f, s1) => if f.kind = 2 then s1.resendFlits f none else s1

def execRowanResendRequest (dt link : Nat) (words : List Codeword) (s : State) : Host.Outcome State Fault Refusal :=
  runPart "link" link 18 dt (opRowanResendRequest link words) s

/-! ## Ends of reductions that serve packets of this module -/

/-- The length of a job's ramp in ns (R47). -/
def Job.rampNs (j : Job) : Nat := 2000 * 2 ^ j.ramp

/-- A ROWAN_REDUCE's reduction completes: its lanes are written, and it replies (R326). -/
def State.reduceDone (s : State) (pid : Nat) (v : List Nat) : State :=
  match s.work pid with
  | none => s
  | some w => (s.writeResult w (s.ctl w) (w.pkt.par 2) (v.flatMap fun x => wordBytes (wd x)) false).finishRemote pid

/-- The cores that hold unstarted items of a job (R50). -/
def State.waitingCores (s : State) (slot : Nat) : List Nat :=
  ((s.works.filter fun w => w.slot == some slot).flatMap fun w =>
    (w.items.filter fun i => !i.started && !i.finished).filterMap fun i => i.core).eraseDups

/-- A barrier completes (R48, R324): every member computes the release from the agreed values, and replies; cores whose slot
has passed start at once, each counted (R46). -/
def State.barrierDone (s : State) (pid : Nat) (v : List Nat) : State :=
  match s.work pid with
  | none => s
  | some w =>
    let j := w.slot.getD 0
    let ramp := max 1 (lget v 1 0)
    let release := ceilDiv (lget v 0 0 + lget v 2 0) ramp * ramp
    let mine : Ramp := { slot := j, release := release, width := ramp / 16 }
    let s1 : State := { s with ramps := s.ramps.filter (fun r => r.slot != j) ++ [mine] }
    let s2 := s1.complete pid .done 0 (release % 2 ^ 32)
    let late := (s2.waitingCores j).filter fun g => release + rampSlot g * (ramp / 16) < s2.ftNow
    ({ s2 with ft := { s2.ft with lateRelease := satAdd 32 s2.ft.lateRelease late.length } }).startAll late

/-- A slot of a barrier's ramp begins: its cores start their released work (R49, R50). [Log entry 12: DEDUCED] -/
def opBarrierSlot (slot k : Nat) (s : State) : State :=
  match s.ramps.find? fun r => r.slot == slot with
  | none => s
  | some r => if s.ftNow < r.release + k * r.width then s else s.startSlots ((List.range 512).filter fun g => rampSlot g == k)

end Sys2Proof.Machine
end

