-- ==== Sys2Proof/Machine/Shadow.lean ====
section
/-! DEFINITION. Shards and their copies (12_gradient_reduction.md R335 to R338), and the shadow stream (13_mapping_jobs.md R375
to R380). -/

namespace Sys2Proof.Machine

/-! ## Shards (R335, R336, R338) -/

/-- The shard whose PARAM tensor has this number. -/
def State.shardOf (s : State) (slot num : Nat) : Option Shard := s.shards.find? fun h => h.slot == slot && h.param == num

/-- The shard that a tensor belongs to. -/
def State.shardWith (s : State) (slot num : Nat) : Option Shard := s.shards.find? fun h => h.slot == slot && h.parts.contains num

/-- The byte where the PARAM copy of a generation starts. -/
def Shard.paramAt (h : Shard) (r g : Nat) : Nat := g % (r + 1) * h.elems * fmtBytes h.pfmt
/-- The byte where the MASTER copy of a generation starts. -/
def Shard.masterAt (h : Shard) (g : Nat) : Nat := g % 2 * h.elems * 4
/-- The byte where word `k` of the STATE copy of a generation starts. -/
def Shard.stateAt (h : Shard) (g k : Nat) : Nat := (g % 2 * h.states + k) * h.elems * 4

/-! ## The shadow stream (R375 to R380) -/

/-- The master that streams a shadow copy: the control processor that serves window 0, on VC3 (R378). -/
def State.shadowCtx (s : State) (slot : Nat) : OpCtx :=
  { master := mControl (s.serverTile 0), slot := slot, fjob := (s.job slot).fjob, pid := shadowPid slot, vc := 3 }

/-- Write bytes of the shadow area at an offset (R376, R378). -/
def State.shadowWrite (s : State) (slot off : Nat) (bs : List (Byte × Bool)) : State :=
  let h := (s.job slot).shadow
  if h.fabric then s.finishMoves.globalWrite (s.shadowCtx slot) (some (shadowPid slot)) (h.base + wd off) (bs.map some) (bs.length / 4096 + 2)
  else s.postLines (h.base.toNat + off) bs (bs.length / 64 + 2)

/-- The shards of a job, in declaration order. -/
def State.shardsOf (s : State) (slot : Nat) : List Shard := s.shards.filter fun h => h.slot == slot

/-- The header of a section (R378). -/
def State.sectionHeader (s : State) (slot i : Nat) (h : Shard) (bytes : Nat) : List Word :=
  let content := (s.job slot).shadow.content
  let epoch := ((s.tensors.find? fun t => t.num == h.param && t.slot == slot).map fun t => t.epoch).getD 0
  [wd (at_ i 16 0 + at_ s.fabric.mod 12 16 + at_ h.pfmt 2 28 + at_ h.states 3 30 + at_ content 2 33), wd h.elems, wd epoch, wd bytes,
   0, 0, 0, 0]

/-- The bytes of one tensor of a shard, by its number. -/
def State.shardBytes (s : State) (slot num off n : Nat) : List (Byte × Bool) × State :=
  match s.tensors.find? fun t => t.num == num && t.slot == slot with
  | none => ([], s)
  | some t => s.tensorBytes (s.shadowCtx slot) t off n

/-- The data of a section of generation `g` (R378). -/
def State.sectionData (s : State) (slot g : Nat) (h : Shard) : List (Byte × Bool) × State :=
  let j := s.job slot
  if j.shadow.content = 2 then s.shardBytes slot h.param (h.paramAt j.retain g) (h.elems * fmtBytes h.pfmt)
  else
    let (a, s1) := s.shardBytes slot h.master (h.masterAt g) (4 * h.elems)
    if j.shadow.content = 0 then (a, s1)
    else
      let (b, s2) := s1.shardBytes slot h.state (h.stateAt g 0) (4 * h.states * h.elems)
      (a ++ b, s2)

/-- The data bytes of a shard's section, without header and padding. -/
def Shard.sectionBytes (h : Shard) (content : Nat) : Nat :=
  if content = 2 then h.elems * fmtBytes h.pfmt else 4 * h.elems * (if content = 0 then 1 else 1 + h.states)

/-- The bytes that one generation takes in the data part (R375, R378). -/
def State.shadowBytes (s : State) (slot content : Nat) : Nat :=
  ((s.shardsOf slot).map fun h => 64 + ceilDiv (h.sectionBytes content) 64 * 64).foldl (· + ·) 0

/-- Write the sections of shards, and give the bytes written. -/
def State.writeSections (s : State) (slot g : Nat) : Nat → Nat → List Shard → Nat × State
  | _, off, [] => (off, s)
  | i, off, h :: t =>
    let (bs, s1) := s.sectionData slot g h
    let head := ((s1.sectionHeader slot i h bs.length).flatMap wordBytes).map fun b => (b, false)
    let pad := List.replicate ((64 - bs.length % 64) % 64) ((0 : Byte), false)
    let all := head ++ bs ++ pad
    (s1.shadowWrite slot (0x10000 + off) all).writeSections slot g (i + 1) (off + all.length) t

/-- Write a copy's record (R380). -/
def State.shadowRecord (s : State) (slot : Nat) (c : ShadowCopy) (bytes shards ft : Nat) (complete : Bool) : State :=
  let h := (s.job slot).shadow
  let i := h.records
  let ws := [wd c.gen, wd c.commitFt, wd ft, wd bytes,
    wd (at_ shards 16 0 + flag complete 16 + flag (i / 64 % 2 = 0) 17 + at_ h.content 2 18), 0, 0, 0]
  (s.shadowWrite slot (0x40 + i % 64 * 0x40) ((ws.flatMap wordBytes).map fun b => (b, false))).modJob slot fun j =>
    { j with shadow := { j.shadow with copy := none, records := i + 1, lastRec := some c.gen
                                       lastGen := if complete then c.gen else j.shadow.lastGen } }

/-- A copy that ends early has streamed some of its sections: all that were issued, otherwise a free number of them (R379, R389).
[Log entry 92: DEDUCED] -/
def State.partCopy (s : State) (slot : Nat) (c : ShadowCopy) : (Nat × Nat × Nat) × State :=
  match c.issued with
  | some n => (n, s)
  | none =>
    let hs := s.shardsOf slot
    let (r, s1) := s.free
    let k := r % max 1 hs.length
    let (n, s2) := s1.finishMoves.writeSections slot c.gen 0 0 (hs.take k)
    ((n, k, s.ftNow), s2)

/-- A copy in progress ends before it is complete: its record has COMPLETE 0 (R379). -/
def State.endCopy (s : State) (slot : Nat) : State :=
  match (s.job slot).shadow.copy with
  | none => s
  | some c =>
    let ((n, k, ft), s1) := s.partCopy slot c
    s1.shadowRecord slot c n k ft false

/-- JOB_CLOSE, and a write of ENABLE 0, end a copy without a record: its area holds partial data (R389). [Log entry 92: DEDUCED] -/
def State.dropCopy (s : State) (slot : Nat) : State :=
  (match (s.job slot).shadow.copy with
    | none => s
    | some c => (s.partCopy slot c).2).modJob slot fun j => { j with shadow := { j.shadow with copy := none, asking := none } }

/-- The ranges of shard tensors that a copy of generation `g` reads. -/
def State.copyReads (s : State) (slot g : Nat) : List (Tensor × Nat × Nat) :=
  let j := s.job slot
  let tk (k off n : Nat) : List (Tensor × Nat × Nat) :=
    ((s.tensors.find? fun t => t.num == k && t.slot == slot).map fun t => (t, off, n)).toList
  (s.shardsOf slot).flatMap fun h =>
    if j.shadow.content = 2 then tk h.param (h.paramAt j.retain g) (h.elems * fmtBytes h.pfmt)
    else tk h.master (h.masterAt g) (4 * h.elems)
      ++ (if j.shadow.content = 0 then [] else tk h.state (h.stateAt g 0) (4 * h.states * h.elems))

/-- The first read of a copy that an access table denies (R487). -/
def State.copyDenied (s : State) (slot g : Nat) : Option (OpRes × Tensor × Nat) :=
  (s.copyReads slot g).findSome? fun (t, off, n) =>
    if t.spill.isSome then none
    else (s.rangeCheck (s.shadowCtx slot) .read t.tile (t.off + off) (n / 4096 + 2) n).map fun (r, o) => (r, t, o)

/-- Ranges of spilled tensors that are still to be read over the fabric for a reader are asked for once (R246): none where
everything is here. [Log entry 121: DEDUCED] -/
def State.fetchRanges (s : State) (x : OpCtx) (rs : List (Tensor × Nat × Nat)) : Option State :=
  let missing := rs.filter fun (t, off, n) => !s.rangeFetched x.pid t off n
  if missing.isEmpty then none
  else if s.remotes.any fun r => r.pid == some x.pid then some s
  else some (missing.foldl (fun s (t, off, n) => s.fetchTensor x x.pid t off n) s)

/-- Words read over the fabric for a reader that is done. -/
def State.dropFetched (s : State) (pid : Nat) : State := { s with fetched := s.fetched.filter fun e => e.1 / 2 ^ 61 != pid }

/-- A copy whose data writes are issued, with no response to come and none failed, writes its record (R380, R389). -/
def State.closeCopy (s : State) (slot : Nat) : State :=
  match (s.job slot).shadow.copy with
  | some { gen := g, commitFt := f, issued := some (n, k, ft), failed := false } =>
    if s.remotes.any fun r => r.pid == some (shadowPid slot) then s
    else (s.shadowRecord slot { gen := g, commitFt := f } n k ft true).dropFetched (shadowPid slot)
  | _ => s

/-- Issue the data writes of a copy (R378). -/
def State.issueCopy (s : State) (slot : Nat) (c : ShadowCopy) : State :=
  let hs := s.shardsOf slot
  let s0 := s.modJob slot fun j => { j with shadow := { j.shadow with copy := some { c with failed := false } } }
  let (n, s1) := s0.finishMoves.writeSections slot c.gen 0 0 hs
  s1.modJob slot fun j => { j with shadow := { j.shadow with
    copy := j.shadow.copy.map fun d => { d with issued := some (n, hs.length, s.ftNow) } } }

/-- A copy goes on: its sections are written, and once they are, its record (R378, R380). Shards that lie on a spill module are read
over the fabric first; while the host link is held (R507), an access table denies the reads, or its writes fail, the copy stalls.
[Log entry 92: DEDUCED] -/
def opShadowCopyDone (slot : Nat) (s : State) : State :=
  let h := (s.job slot).shadow
  match h.copy with
  | none => s
  | some c =>
    if (!h.fabric && !s.cxlOpen) || s.remotes.any (fun r => r.pid == some (shadowPid slot)) then s
    else if c.issued.isSome && !c.failed then s.closeCopy slot
    else match s.copyDenied slot c.gen with
      | some (r, t, o) => s.logRes (s.shadowCtx slot) r t.tile o (s.globalAddr t.tile o)
      | none => match s.fetchRanges (s.shadowCtx slot) (s.copyReads slot c.gen) with
        | some s1 => s1
        | none => (s.issueCopy slot c).closeCopy slot

def execShadowCopyDone (dt slot : Nat) (s : State) : Host.Outcome State Fault Refusal :=
  runPart "slot" slot 4 dt (opShadowCopyDone slot) s

/-- A due generation is not copied (R377). -/
def State.skipCopy (s : State) (slot : Nat) : State :=
  s.modJob slot fun j => { j with shadow := { j.shadow with skipped := satInc 16 j.shadow.skipped } }

/-- Start a due copy when ACK allows it, or skip it (R377). -/
def State.startCopy (s : State) (slot : Nat) (c : ShadowCopy) (ack : Nat) : State :=
  let h := (s.job slot).shadow
  let free := match h.lastRec with | none => true | some g => g ≤ ack
  if h.enable && h.copy.isNone && free then s.modJob slot fun j => { j with shadow := { j.shadow with copy := some c } }
  else s.skipCopy slot

/-- A generation becomes current at a step boundary: its copy is started or skipped when it is due (R377). ACK on another
module is read first (R378). -/
def State.copyDue (s : State) (slot g ft : Nat) : State :=
  let h := (s.job slot).shadow
  let c : ShadowCopy := { gen := g, commitFt := ft }
  if g % h.every ≠ 0 || (s.shardsOf slot).isEmpty then s
  else if !h.enable || h.copy.isSome || h.asking.isSome then s.skipCopy slot
  else if h.lastRec.isNone then s.startCopy slot c 0
  else if !h.fabric then s.startCopy slot c (bytesNat (cellGetAll s.hostMem h.base.toNat 8))
  else match s.addrKind h.base with
    | .here t o =>
      let (r, ws, s1) := s.finishMoves.doRead (s.shadowCtx slot) t o 8 h.base
      if r = .ok then s1.startCopy slot c (lget ws 0 (0, false)).1.toNat else s1.skipCopy slot
    | _ =>
      let tag := s.nextTag
      (s.issueRead (s.shadowCtx slot) none h.base 8 none none).modJob slot fun j =>
        { j with shadow := { j.shadow with asking := some (tag, c) } }

/-- ACK arrives from the relay module, or its READ fails: the due copy starts or is skipped (R377). -/
def State.ackArrived (s : State) (slot : Nat) (ack : Option Nat) : State :=
  match (s.job slot).shadow.asking with
  | none => s
  | some (_, c) =>
    let s1 := s.modJob slot fun j => { j with shadow := { j.shadow with asking := none } }
    match ack with
    | some a => s1.startCopy slot c a
    | none => s1.skipCopy slot

/-- A copy being streamed holds the storage that the optimizer of the present step writes (R379). -/
def State.copyInWay (s : State) (slot : Nat) : Bool :=
  let j := s.job slot
  let g := j.step
  match j.shadow.copy with
  | none => false
  | some c => if j.shadow.content = 2 then c.gen % (j.retain + 1) = g % (j.retain + 1) else c.gen % 2 = g % 2

end Sys2Proof.Machine
end

