-- ==== Sys2Proof/Machine/Collectives.lean ====
section
/-! DEFINITION. The bulk collectives: descriptors, starting,
pieces, reduction, deadlines, resends, epoch fences (11_collectives.md R310 to R323; 12 R362, R366, R367). -/

namespace Sys2Proof.Machine

/-! ## The operand descriptor (R313, R314) -/

/-- A collective's operand descriptor with its opcode, group and deadline. -/
structure CDesc where
  op     : Nat
  grp    : Nat
  dl     : Nat
  src    : Word
  srcOff : Nat
  dst    : Word
  dstOff : Nat
  count  : Nat
  fmt    : Nat
  red    : Nat
  param  : Bool
  adv    : Bool
  root   : Nat
  chunks : Nat
  gen    : Nat
  epoch  : Nat
  map    : Word
  deriving DecidableEq, Repr, Inhabited

/-- The descriptor of a packet of opcode 0x52 to 0x57. -/
def Packet.cdesc (p : Packet) : CDesc :=
  let w := p.pay 4
  { op := p.opcode, grp := p.group, dl := (p.par 1).toNat, src := p.pay 0, srcOff := (p.pay 1).toNat, dst := p.pay 2
    dstOff := (p.pay 3).toNat, count := fld w 0 32, fmt := fld w 32 2, red := fld w 34 2, param := bitOf w 36, adv := bitOf w 37
    root := fld w 40 12, chunks := fld w 52 12, gen := (p.pay 5).toNat, epoch := (p.pay 6).toNat, map := p.pay 7 }

/-- The element size (R313). -/
def cElem : Nat → Nat
  | 0 => 2 | 1 => 2 | 2 => 4 | _ => 8

/-- The elements of the source and of the destination on a member of a group of `n` (R314). -/
def CDesc.srcElems (d : CDesc) (n : Nat) (isRoot : Bool) : Nat :=
  match d.op with
  | 0x53 => n * d.count
  | 0x55 => if isRoot then d.count else 0
  | 0x56 => d.chunks * d.count
  | 0x57 => n * d.count
  | _ => d.count
def CDesc.dstElems (d : CDesc) (n : Nat) : Nat :=
  match d.op with
  | 0x54 => n * d.count
  | 0x56 => d.chunks * d.count
  | 0x57 => n * d.count
  | _ => d.count

/-- The deadline has come at an FT (R317). [Log entry 77: DEDUCED] -/
def CDesc.lateAt (d : CDesc) (ft : Nat) : Bool := d.dl ≠ 0 && d.dl ≤ ft

/-- Entry `i` of a map tensor's words: rank and chunk (R322). -/
def mapEntry (ws : List Word) (i : Nat) : Nat × Nat :=
  let e := fld (lget ws (i / 2) 0) (i % 2 * 32) 32
  (e % 65536, e / 65536)

/-- A map is a bijection of the (rank, chunk) pairs (R322). -/
def mapOk (ws : List Word) (n chunks : Nat) : Bool :=
  let es := (List.range (n * chunks)).map (mapEntry ws)
  es.all (fun e => e.1 < n && e.2 < chunks) && (es.map fun e => e.1 * chunks + e.2).eraseDups.length = n * chunks

/-! ## Checks at dispatch (R332, R188) -/

/-- The operand descriptor is invalid (R332 0x0163). -/
def CDesc.bad (d : CDesc) (w4 : Word) (n : Nat) : Bool :=
  let red := d.op = 0x52 || d.op = 0x53
  d.count = 0 || (red && d.red = 3 && d.fmt = 3) || (!red && d.red ≠ 0) || fld w4 38 2 ≠ 0
    || (d.param && d.op ≠ 0x54 && d.op ≠ 0x55) || (d.adv && d.op ≠ 0x56)
    || (if d.op = 0x55 then n ≤ d.root else d.root ≠ 0) || (if d.op = 0x56 then d.chunks = 0 else d.chunks ≠ 0)
    || (!d.param && d.gen ≠ 0) || (!d.adv && d.epoch ≠ 0) || (d.op ≠ 0x56 && d.map ≠ 0)

/-- The bytes a source or destination tensor must hold; a shard tensor of a gather or a permute is measured by one copy (R362,
R367). -/
def State.extentBad (s : State) (slot : Nat) (h : Word) (off bytes : Nat) (copy : Bool) : Bool :=
  match s.tensor slot h with
  | none => true
  | some t => match (if copy then s.shardOf slot t.num else none) with
    | some sh => sh.elems * fmtBytes sh.pfmt < off + bytes
    | none => t.bytes < off + bytes

/-- The epoch of a tensor: a shard's tensors share that of PARAM (R336). -/
def State.epochOf (s : State) (slot : Nat) (h : Word) : Nat := ((s.tensor slot h).map fun t => t.epoch).getD 0

/-- SRC and DST of a permute are both shard tensors (R367). -/
def State.shardPermute (s : State) (slot : Nat) (d : CDesc) : Option (Shard × Shard) :=
  if d.op ≠ 0x56 then none
  else
    match (s.tensorKept slot d.src).bind fun t => s.shardOf slot t.num, (s.tensorKept slot d.dst).bind fun t => s.shardOf slot t.num with
    | some a, some b => some (a, b)
    | _, _ => none

/-- An opcode is a parameter gather's (R321). -/
def CDesc.gathers (d : CDesc) : Bool := (d.op = 0x54 || d.op = 0x55) && d.param

/-- What a bulk collective's BAD_PARAM details say of its group: its extents, placement, VC and map (R313, R314, R332). -/
def State.groupDetails (s : State) (slot : Nat) (p : Packet) (mapWords : List Word) (g : Group) : List (Option Nat) :=
  let d := p.cdesc
  let e := cElem d.fmt
  let n := g.size
  let isRoot := g.rank s.fabric.mod = d.root
  let needSrc := d.op ≠ 0x55 || isRoot
  let permute := (s.shardPermute slot d).isSome
  let srcB := d.srcElems n isRoot * e
  let dstB := d.dstElems n * e
  let lap : Bool := match s.tensor slot d.src, s.tensor slot d.dst with
    | some a, some b =>
      let copy := if d.param then ((s.shardOf slot a.num).map fun h => h.paramAt (s.job slot).retain d.gen).getD 0 else 0
      let (x, y) := (a.lo + copy + d.srcOff, b.lo + d.dstOff)
      overlaps x srcB y dstB && !((d.op = 0x52 || d.op = 0x56) && x = y && srcB = dstB)
    | _, _ => false
  let mapBad := d.op = 0x56 && (!s.holds slot d.map (4 * n * d.chunks) || !mapOk mapWords n d.chunks)
  let shardBad := match s.shardPermute slot d with
    | none => false
    | some (a, b) => a.elems ≠ b.elems || a.pfmt ≠ b.pfmt || a.states ≠ b.states
  [failIf (needSrc && (s.tensor slot d.src).isNone) 0x0005,
   failIf (d.bad (p.pay 4) n || (!needSrc && d.src ≠ 0)) 0x0163,
   failIf (d.srcOff % e ≠ 0 || d.dstOff % e ≠ 0
     || (needSrc && s.extentBad slot d.src d.srcOff srcB (d.param || permute))
     || s.extentBad slot d.dst d.dstOff dstB permute || lap || shardBad) 0x0164,
   failIf g.vc.isNone 0x0165,
   failIf (d.param && needSrc && ((s.tensor slot d.src).bind fun t => s.shardOf slot t.num).isNone) 0x0166,
   failIf (mapBad || (d.adv && d.epoch ≤ s.epochOf slot d.dst)) 0x0167]

/-- The BAD_PARAM detail of a bulk collective, given its map's words (R75, R188, R332). Without a group, only what needs none is
judged beside that. -/
def State.collDetail (s : State) (slot : Nat) (p : Packet) (mapWords : List Word) : Option Nat :=
  let d := p.cdesc
  minDetail ([failIf (fld (p.par 0) 6 58 ≠ 0) 0x0002,
    failIf ((d.op ≠ 0x55 && (s.tensor slot d.src).isNone) || (d.src ≠ 0 && (s.tensor slot d.src).isNone)
      || (s.tensor slot d.dst).isNone || (d.op = 0x56 && (s.tensor slot d.map).isNone)) 0x0005,
    failIf (d.gathers && (s.job slot).tooNew d.gen) 0x0137]
    ++ match s.group slot d.grp with
      | none => [some 0x0160]
      | some g => s.groupDetails slot p mapWords g)

/-- A parameter gather names a generation that is no longer retained (R188, R336). -/
def State.gatherStale (s : State) (slot : Nat) (p : Packet) : Bool :=
  let d := p.cdesc
  let kept := (((s.tensor slot d.src).bind fun t => s.shardOf slot t.num).map fun h => h.kept).getD 3
  d.gathers && (s.job slot).stale kept d.gen

/-! ## Reduction (R315) -/

/-- Elements cut from the words of a message. -/
def wordElems (k n : Nat) (ws : List (Word × Bool)) : List Elem :=
  (cutElems k n (ws.flatMap fun w => (wordBytes w.1).map fun b => (b, w.2))).map fun e => { bits := e.1, poison := e.2 }

/-- Elements as bytes, each with its poison flag. -/
def elemBytesOf (k : Nat) (es : List Elem) : List (Byte × Bool) := es.flatMap fun e => (natBytes k e.bits).map fun b => (b, e.poison)

/-- One level of the pairwise tree padded with empty entries: a node with one child passes it (R315). -/
def pairNodes (f : Nat → Nat → Nat) : List Nat → List Nat
  | a :: b :: t => f a b :: pairNodes f t
  | l => l

/-- The tree over the counted contributions in rank order. -/
def nodeTree (f : Nat → Nat → Nat) : Nat → List Nat → Nat
  | 0, l => l.headD 0
  | k + 1, l => match l with
    | [] => 0
    | [a] => a
    | l => nodeTree f k (pairNodes f l)

/-- rn(v / n) in FP32 (R315, R352): the exact quotient rounded once. -/
def divRound (v : Val) (n : Nat) : VRes :=
  match v with
  | .fin neg sig e => if sig = 0 then (roundVal 2 v).toVRes else
      let q := sig * 2 ^ 64 / n
      stickyRound neg q (q * n = sig * 2 ^ 64) (e - 64)
  | v => (roundVal 2 v).toVRes

/-- The reduction of one element's counted contributions, in FORMAT. -/
def reduceBits (fmt red : Nat) (xs : List Nat) : Nat :=
  if fmt = 3 then
    nodeTree (fun a b => if red = 0 then (a + b) % 2 ^ 64
      else if red = 1 then (if fromTwos 64 a < fromTwos 64 b then b else a)
      else (if fromTwos 64 b < fromTwos 64 a then b else a)) 13 xs
  else
    let f (a b : Nat) : Nat := (if red = 1 then vMax a b else if red = 2 then vMin a b else vSum a b).bits
    let r := nodeTree f 13 (xs.map (toFp32 fmt))
    let q := if red = 3 then (if xs.isEmpty then nan32 else (divRound (d32 r) xs.length).bits) else r
    if isNan32 q then nanBits fmt else (convertBits 2 fmt q).bits

/-- The reduction of the counted contributions, element by element. -/
def reduceElems (fmt red len : Nat) (cs : List (List Elem)) : List Elem :=
  (List.range len).map fun i =>
    let xs := cs.map fun c => lget c i { bits := 0, poison := false }
    { bits := reduceBits fmt red (xs.map fun x => x.bits), poison := xs.any fun x => x.poison }

/-! ## The records of collectives in flight -/

/-- The record of a packet's collective. -/
def State.coll (s : State) (pid : Nat) : Option Coll := s.colls.find? fun c => c.pid == pid

/-- Change a collective's record. -/
def State.modColl (s : State) (pid : Nat) (f : Coll → Coll) : State := { s with colls := updFirst (fun c => c.pid == pid) f s.colls }

/-- A packet's collective ends on this member: its record and its place in the queue go. -/
def State.dropColl (s : State) (w : Work) : State :=
  { s.dequeue (w.slot.getD 0) w.pkt.group w.pid with colls := dropFirst (fun c => c.pid == w.pid) s.colls }

/-- A collective fails on this member. -/
def State.failColl (s : State) (w : Work) (detail : Nat) : State :=
  ((s.dropColl w).noteFail w.pid .internal detail).finishRemote w.pid

/-- Word 2 of a COLLECTIVE message (R320). -/
def collWord2 (group cseq phase rank op : Nat) : Word :=
  wd (at_ group 6 0 + at_ cseq 24 6 + at_ phase 2 30 + at_ rank 12 32 + at_ op 8 44)

/-- Send a COLLECTIVE message of this packet's collective to a rank, and give it with its tag for the record (R319). -/
def State.sendColl (s : State) (w : Work) (g : Group) (rank phase off : Nat) (op : Nat) (data : List Codeword) (bytes : Nat) :
    Sent × State :=
  let (t, s1) := s.takeTag
  let m : Msg := { s1.blank .collective (g.memberOf rank) with
    vc := g.vc.getD 0, job := w.fjob, tag := t, master := mDma w.tile, len := 8 + bytes - 1
    word2 := collWord2 g.num w.cseq phase (g.rank s1.fabric.mod) op, data := encodeWord (wd (off % 2 ^ 40)) false :: data }
  ({ tag := t, msg := m, at_ := s1.ftNow, resent := false }, s1.send m)

/-- Codewords of bytes, each with its poison flag (R277). -/
def bytesCws (bs : List (Byte × Bool)) : List Codeword := cwsOf (coverWords 0 (bs.map some))

/-- Cut elements into pieces of at most 4,088 data bytes (R320), and where poison begins or ends: no data word of a message
then spreads poison to an element that does not derive from a poisoned word (R315, R229; log entry 16). [Log entry 16: DEDUCED] -/
def cutPieces (k : Nat) : Nat → Nat → List Elem → List (Nat × List Elem)
  | 0, _, _ => []
  | f + 1, off, es =>
    match es with
    | [] => []
    | e :: _ =>
      let piece := (es.takeWhile fun x => x.poison == e.poison).take (4088 / k)
      (off, piece) :: cutPieces k f (off + piece.length) (es.drop piece.length)

/-! ## Where elements lie -/

/-- What a collective moves as one destination: a tensor's range, or the copies of a shard in a permute (R367). Each part
has its first element number, its element size, and its tensor and byte for source and destination. -/
structure CPart where
  first : Nat
  size  : Nat
  src   : Option (Tensor × Nat)
  dst   : Option (Tensor × Nat)
  deriving DecidableEq, Repr, Inhabited

/-- The parts of a collective; elements of all parts are numbered one after another. -/
def State.collParts (s : State) (slot : Nat) (d : CDesc) : List CPart :=
  let e := cElem d.fmt
  let r := (s.job slot).retain
  let gen := (s.job slot).stp.gen
  let src := s.tensorKept slot d.src
  let dst := s.tensorKept slot d.dst
  match s.shardPermute slot d with
  | some (a, b) =>
    let t := d.chunks * d.count
    let tk (k : Nat) : Option Tensor := s.tensors.find? fun u => u.num == k && u.slot == slot
    let so := d.srcOff / e
    let do_ := d.dstOff / e
    [{ first := 0, size := fmtBytes a.pfmt, src := (tk a.param).map fun u => (u, a.paramAt r gen + so * fmtBytes a.pfmt)
       dst := (tk b.param).map fun u => (u, b.paramAt r gen + do_ * fmtBytes b.pfmt) },
     { first := t, size := 4, src := (tk a.master).map fun u => (u, a.masterAt gen + 4 * so)
       dst := (tk b.master).map fun u => (u, b.masterAt gen + 4 * do_) }]
      ++ (List.range a.states).map fun k =>
        { first := (2 + k) * t, size := 4, src := (tk a.state).map fun u => (u, a.stateAt gen k + 4 * so)
          dst := (tk b.state).map fun u => (u, b.stateAt gen k + 4 * do_) }
  | none =>
    let base := if d.param then (match src.bind fun t => s.shardOf slot t.num with | some h => h.paramAt r d.gen | none => 0) else 0
    [{ first := 0, size := e, src := src.map fun t => (t, base + d.srcOff), dst := dst.map fun t => (t, d.dstOff) }]

/-- The elements of a part's source from `i` on. -/
def State.partElems (s : State) (x : OpCtx) (p : CPart) (i n : Nat) : List Elem × State :=
  match p.src with
  | none => ([], s)
  | some (t, off) =>
    let (bs, s1) := s.tensorBytes x t (off + i * p.size) (n * p.size)
    ((cutElems p.size n bs).map fun e => { bits := e.1, poison := e.2 }, s1)

/-- The word keys of a tensor's bytes on this module. -/
def State.rangeKeys (s : State) (t : Tensor) (off n : Nat) : List (Nat × Nat) :=
  match t.spill with
  | some _ => []
  | none => s.addrKeys (mkAddr 0 0 t.tile (t.off + off)) n

/-- Words that a gather delivered whole are noted, with the generation it named (R190, R231). -/
def State.noteGathered (s : State) (slot gen src : Nat) (t : Tensor) (off : Nat) (bs : List (Byte × Bool)) : State :=
  match t.spill with
  | some _ => s
  | none =>
    let o := t.off + off
    let lead := (8 - o % 8) % 8
    let new := (List.range ((bs.length - lead) / 8)).filterMap fun i =>
      let h := (bs.drop (lead + 8 * i)).take 8
      if h.any Prod.snd then none
      else (s.resolve t.tile (o + lead + 8 * i)).map fun p =>
        ({ key := placeKey p, data := wd (bytesNat (h.map Prod.fst)), slot := slot, gen := gen, src := src } : Gathered)
    { s with gathered := s.gathered ++ new }

/-- Place elements in the destination, from element number `off` of the whole. -/
def State.placeElems (s : State) (w : Work) (d : CDesc) (ps : List CPart) (off : Nat) (es : List Elem) : State :=
  match (ps.filter fun p => p.first ≤ off).getLast? with
  | none => s
  | some p => match p.dst with
    | none => s
    | some (t, b) =>
      let bs := elemBytesOf p.size es
      let o := b + (off - p.first) * p.size
      match (if t.spill.isSome then none else s.rangeCheck w.dma .write t.tile (t.off + o) (bs.length / 4096 + 2) bs.length) with
      | some (r, f) => (s.logRes w.dma r t.tile f (s.globalAddr t.tile f)).noteFail w.pid r.status.1 r.status.2
      | none =>
        let s1 := s.finishMoves.writeTensor w.dma w.pid t o (bs.map some)
        if d.param then s1.noteGathered (w.slot.getD 0) d.gen (handleNum d.src) t o bs else s1

/-! ## Sending (R314, R315, R317) -/

/-- What a member sends: to a rank, in a phase, elements of a part from a source element to an element number of the
receiver. -/
structure CSend where
  rank  : Nat
  phase : Nat
  part  : CPart
  from_ : Nat
  len   : Nat
  at_   : Nat
  deriving DecidableEq, Repr, Inhabited

/-- The first element of part `j` of an ALLREDUCE (R315). -/
def partStart (c n j : Nat) : Nat := j * c / n

/-- Everything a member of rank `r` sends in the first phase. -/
def CDesc.sends (d : CDesc) (n r : Nat) (ps : List CPart) (mapWords : List Word) : List CSend :=
  let p := lget ps 0 { first := 0, size := 1, src := none, dst := none }
  let c := d.count
  match d.op with
  | 0x52 => (List.range n).map fun j =>
      { rank := j, phase := 0, part := p, from_ := partStart c n j, len := partStart c n (j + 1) - partStart c n j, at_ := 0 }
  | 0x53 => (List.range n).map fun j => { rank := j, phase := 0, part := p, from_ := j * c, len := c, at_ := 0 }
  | 0x54 => (List.range n).map fun j => { rank := j, phase := 2, part := p, from_ := 0, len := c, at_ := r * c }
  | 0x55 => if r = d.root then (List.range n).map fun j => { rank := j, phase := 2, part := p, from_ := 0, len := c, at_ := 0 } else []
  | 0x56 => ps.flatMap fun q => (List.range d.chunks).map fun i =>
      let (rank, chunk) := mapEntry mapWords (r * d.chunks + i)
      { rank := rank, phase := 2, part := q, from_ := i * c, len := c, at_ := q.first + chunk * c }
  | _ => (List.range n).map fun j => { rank := j, phase := 2, part := p, from_ := j * c, len := c, at_ := r * c }

/-- The byte ranges of the tensors that sends read. -/
def sendRanges (xs : List CSend) : List (Tensor × Nat × Nat) :=
  xs.filterMap fun x => x.part.src.map fun (t, off) => (t, off + x.from_ * x.part.size, x.len * x.part.size)

/-- Send elements to another rank, in pieces. [Log entry 16: DEDUCED] -/
def State.sendPieces (s : State) (w : Work) (g : Group) (rank phase op k : Nat) : List (Nat × List Elem) → State
  | [] => s
  | (off, es) :: t =>
    let (e, s1) := s.sendColl w g rank phase off op (bytesCws (elemBytesOf k es)) (es.length * k)
    (s1.modColl w.pid fun c => { c with unacked := c.unacked ++ [e] }).sendPieces w g rank phase op k t

/-- A member's own piece is its own at once, and is never late (R333). -/
def State.keepOwn (s : State) (w : Work) (rank phase off : Nat) (es : List Elem) : State :=
  s.modColl w.pid fun c => { c with got := c.got ++ [{ phase := phase, rank := rank, offset := off, elems := es, late := false }] }

/-- Read everything that is to be sent, before anything is placed (R322). -/
def State.readSends (s : State) (x : OpCtx) : List CSend → List (CSend × List Elem) × State
  | [] => ([], s)
  | y :: t =>
    let (es, s1) := s.partElems x y.part y.from_ y.len
    let (r, s2) := s1.readSends x t
    ((y, es) :: r, s2)

/-- Send what was read, and place or keep the member's own share. -/
def State.sendRead (s : State) (w : Work) (g : Group) (d : CDesc) (ps : List CPart) : List (CSend × List Elem) → State
  | [] => s
  | (x, es) :: t =>
    let me := g.rank s.fabric.mod
    let s1 := if x.rank = me then
        let s1 := s.keepOwn w me x.phase x.at_ es
        if x.phase = 2 then s1.placeElems w d ps x.at_ es else s1
      else s.sendPieces w g x.rank x.phase d.op x.part.size (cutPieces x.part.size (es.length + 1) x.at_ es)
    s1.sendRead w g d ps t

/-! ## Reducing and completing -/

/-- The length of the part that a member of rank `r` reduces. -/
def CDesc.partLen (d : CDesc) (n r : Nat) : Nat :=
  if d.op = 0x52 then partStart d.count n (r + 1) - partStart d.count n r else if d.op = 0x53 then d.count else 0

/-- The elements of a rank's contribution so far, in order, and whether a piece of it was late. -/
def Coll.contribution (c : Coll) (rank : Nat) : List Elem × Bool :=
  let ps := c.got.filter fun p => p.phase == 0 && p.rank == rank
  ((ps.mergeSort fun a b => a.offset ≤ b.offset).flatMap (fun p => p.elems), ps.any fun p => p.late)

/-- The elements that have come in a phase, late or not. -/
def Coll.arrived (c : Coll) (phase : Nat) : Nat := ((c.got.filter fun p => p.phase == phase).map fun p => p.elems.length).foldl (· + ·) 0

/-- Send a reduced part to every other member (R315). -/
def State.sendResult (s : State) (w : Work) (g : Group) (d : CDesc) (start : Nat) (es : List Elem) : State :=
  let me := g.rank s.fabric.mod
  let k := cElem d.fmt
  ((List.range g.size).filter fun q => q ≠ me).foldl
    (fun s q => s.sendPieces w g q 1 d.op k (cutPieces k (es.length + 1) start es)) s

/-- The reducer closes its part when every contribution is complete or late, or at the deadline (R315, R317). -/
def State.tryReduce (s : State) (w : Work) (g : Group) (d : CDesc) (ps : List CPart) : State :=
  match s.coll w.pid with
  | none => s
  | some c =>
    let n := g.size
    let me := g.rank s.fabric.mod
    let len := d.partLen n me
    let cs := (List.range n).map fun q => c.contribution q
    let ready (x : List Elem × Bool) : Bool := x.2 || x.1.length = len
    if (d.op ≠ 0x52 && d.op ≠ 0x53) || c.reduced || !c.sentAll || !(c.expired || cs.all ready) then s
    else
      let counted := cs.filter fun x => !x.2 && x.1.length = len
      let es := reduceElems d.fmt d.red len (counted.map Prod.fst)
      let late := counted.length < n
      let s1 := s.modColl w.pid fun c => { c with reduced := true, late := c.late || late }
      if d.op = 0x53 then s1.placeElems w d ps 0 es
      else
        let start := partStart d.count n me
        ((s1.keepOwn w me 1 start es).placeElems w d ps start es).sendResult w g d start es

/-- The elements that a destination awaits in all. -/
def CDesc.awaits (d : CDesc) (n : Nat) (ps : List CPart) : Nat := if d.op = 0x56 then ps.length * d.chunks * d.count else d.dstElems n

/-- Everything a collective waits for has come: its results, its data or its deadline, and every acknowledgement (R317,
R319). -/
def Coll.complete (c : Coll) (d : CDesc) (n : Nat) (ps : List CPart) : Bool :=
  c.sentAll && c.unacked.isEmpty &&
  (if d.op = 0x52 then c.reduced && d.count ≤ c.arrived 1
   else if d.op = 0x53 then c.reduced
   else c.expired || d.awaits n ps ≤ c.arrived 2)

/-- A re-sharding permute has completed: DST carries the new epoch, and of its shard only the current generation is
retained (R323, R367). -/
def State.raiseEpoch (s : State) (slot : Nat) (d : CDesc) : State :=
  let nums := match s.tensorKept slot d.dst with
    | none => []
    | some t => match s.shardOf slot t.num with
      | some h => [h.param, h.master] ++ (if h.states = 0 then [] else [h.state])
      | none => [t.num]
  { s with tensors := s.tensors.map fun t => if t.slot == slot && nums.contains t.num then { t with epoch := d.epoch } else t }

/-- A permute of shards leaves only their current generation retained (R367). [Log entry 89: DEDUCED] -/
def State.retainCurrent (s : State) (slot : Nat) (d : CDesc) : State :=
  match s.shardPermute slot d with
  | none => s
  | some (a, b) =>
    { s with shards := updAll (fun h : Shard => h.slot == slot && (h.param == a.param || h.param == b.param)) (fun h => { h with kept := 1 }) s.shards }

/-- A collective completes on this member where it can (R317). -/
def State.tryComplete (s : State) (w : Work) (g : Group) (d : CDesc) (ps : List CPart) : State :=
  match s.coll w.pid with
  | none => s
  | some c =>
    if !c.started || !c.complete d g.size ps then s
    else
      let missed := c.late || (c.expired && 0x54 ≤ d.op && c.arrived 2 < d.awaits g.size ps)
      let s1 := s.dropColl w
      let s2 := if missed then s1.noteFail w.pid .lateExcluded 0 else s1
      let s3 := (if d.adv then s2.raiseEpoch (w.slot.getD 0) d else s2).retainCurrent (w.slot.getD 0) d
      s3.finishRemote w.pid

/-- Reduce and complete what can be. [Log entry 78: DEDUCED] -/
def State.settleColl (s : State) (pid : Nat) : State :=
  match s.work pid with
  | none => s
  | some w =>
    match s.group (w.slot.getD 0) w.pkt.group with
    | none => s
    | some g =>
      let d := w.pkt.cdesc
      let ps := s.collParts (w.slot.getD 0) d
      (s.tryReduce w g d ps).tryComplete w g d ps

/-! ## Starting (R311, R322, R323, R399) -/

/-- Byte ranges of one tensor number meet. -/
def sameRange (num off n num' off' n' : Nat) : Bool := num == num' && overlaps off n off' n'

/-- The byte ranges that `n` elements of a shard from `o` on take in its tensors' copies, by tensor number (R335). -/
def Shard.ranges (h : Shard) (r o n : Nat) : List (Nat × Nat × Nat) :=
  let k := fmtBytes h.pfmt
  (List.range (r + 1)).map (fun c => (h.param, (c * h.elems + o) * k, n * k))
    ++ (List.range 2).map (fun c => (h.master, (c * h.elems + o) * 4, n * 4))
    ++ (List.range (2 * h.states)).map fun c => (h.state, (c * h.elems + o) * 4, n * 4)

/-- The ranges that a permute names: its SRC and DST by tensor number, offset and bytes; of shard tensors, those elements of every
copy of the shards (R366, R367). [Log entry 79: DEDUCED] -/
def State.permuteRanges (s : State) (slot : Nat) (d : CDesc) : List (Nat × Nat × Nat) :=
  let n := d.chunks * d.count
  let e := cElem d.fmt
  let r := (s.job slot).retain
  match s.shardPermute slot d with
  | some (a, b) => a.ranges r (d.srcOff / e) n ++ b.ranges r (d.dstOff / e) n
  | none => [(handleNum d.src, d.srcOff, n * e), (handleNum d.dst, d.dstOff, n * e)]

/-- Two lists of tensor ranges meet. -/
def tensorRangesMeet (xs ys : List (Nat × Nat × Nat)) : Bool := xs.any fun x => ys.any fun y => sameRange x.1 x.2.1 x.2.2 y.1 y.2.1 y.2.2

/-- The ranges of a bucket of the current step: of its gradient tensor, and on its owner of the shard (R340, R366). -/
def State.bucketRanges (s : State) (slot : Nat) (b : StepBucket) : List (Nat × Nat × Nat) :=
  (b.grad, b.gradOff, b.gradLen) :: match b.shard with
    | none => []
    | some (num, o, n) => match s.shardOf slot num with
      | some h => h.ranges (s.job slot).retain o n
      | none => []

/-- A permute's fence waits for a bucket of the current step (R366). -/
def State.fenceOnBucket (s : State) (w : Work) (d : CDesc) : Bool :=
  let j := w.slot.getD 0
  (s.job j).buckets.any fun b => b.epoch < d.epoch && tensorRangesMeet (s.permuteRanges j d) (s.bucketRanges j b)

/-- The ranges that a reduction, or a parameter gather on this member, names. -/
def State.collRanges (s : State) (slot : Nat) (e : CDesc) : List (Nat × Nat × Nat) :=
  let k := cElem e.fmt
  if e.gathers then
    match (s.tensorKept slot e.src).bind fun t => s.shardOf slot t.num with
    | none => []
    | some h => [(h.param, h.paramAt (s.job slot).retain e.gen + e.srcOff, e.count * k)]
  else if e.op = 0x52 || e.op = 0x53 then
    let n := if e.op = 0x53 then ((s.group slot e.grp).map Group.size).getD 1 else 1
    [(handleNum e.src, e.srcOff, n * e.count * k), (handleNum e.dst, e.dstOff, e.count * k)]
  else []

/-- A permute's fence waits for another collective: an ALLREDUCE or REDUCE_SCATTER of an older epoch, or an admitted parameter
gather that reads the range (R366). -/
def State.fenceOnColl (s : State) (w : Work) (d : CDesc) : Bool :=
  let j := w.slot.getD 0
  s.works.any fun v =>
    let e := v.pkt.cdesc
    v.slot == some j && v.pid != w.pid && (e.gathers || v.epoch < d.epoch) && tensorRangesMeet (s.permuteRanges j d) (s.collRanges j e)

/-- A permute waits on its epoch fence (R323). -/
def State.fenced (s : State) (w : Work) (d : CDesc) : Bool := d.adv && (s.fenceOnBucket w d || s.fenceOnColl w d)

/-- Write the interim reply of a fence once (R73, R323). -/
def State.noteFence (s : State) (w : Work) : State :=
  match s.coll w.pid with
  | none => s
  | some c => if c.fenced then s else (s.modColl w.pid fun c => { c with fenced := true }).interim w.pid .epochFencePending

/-- An in-place permute finds memory to stage its incoming chunks in (R322). [Log entry 79: DEDUCED] -/
def State.canStage (s : State) (d : CDesc) (ps : List CPart) : Bool :=
  d.op ≠ 0x56 || d.src ≠ d.dst || d.srcOff ≠ d.dstOff ||
    (let need := (ps.map fun p => d.chunks * d.count * p.size).foldl (· + ·) 0
     (need + 65535) / 65536 ≤ ((List.range 32).map s.freeOn).foldl (· + ·) 0)

/-- The first failure of access to what is to be sent (R487). -/
def State.sendCheck (s : State) (x : OpCtx) (rs : List (Tensor × Nat × Nat)) : Option (Tensor × OpRes × Nat) :=
  rs.findSome? fun (t, off, n) =>
    if t.spill.isSome then none else (s.rangeCheck x .read t.tile (t.off + off) (n / 4096 + 2) n).map fun f => (t, f)

/-- Send a collective's data: it is read first, and noted as gone from the module (R397). -/
def State.sendAll (s : State) (w : Work) (g : Group) (d : CDesc) (ps : List CPart) : State :=
  let xs := d.sends g.size (g.rank s.fabric.mod) ps w.mask
  let rs := sendRanges xs
  match s.sendCheck w.dma rs with
  | some (t, r, o) =>
    (((s.dropColl w).logRes w.dma r t.tile o (s.globalAddr t.tile o)).noteFail w.pid r.status.1 r.status.2).finishRemote w.pid
  | none =>
    let s0 := if (s.shardPermute (w.slot.getD 0) d).isSome then s.endCopy (w.slot.getD 0) else s
    let s1 := s0.markSent (w.slot.getD 0) (rs.flatMap fun (t, off, n) => s.rangeKeys t off n)
    let (es, s2) := s1.readSends w.dma xs
    ((s2.modColl w.pid fun c => { c with sentAll := true }).sendRead w g d ps es).settleColl w.pid

/-- The bytes that a collective's destination takes. -/
def State.collWrites (s : State) (n : Nat) (d : CDesc) (ps : List CPart) : List (Nat × Nat) :=
  let len := if d.op = 0x56 then d.chunks * d.count else d.dstElems n
  ps.flatMap fun p => match p.dst with
    | some (t, off) => s.rangeKeys t off (len * p.size)
    | none => []

/-- The data that a started collective sends: spilled sources are read first, and the sampling gate holds it (R246, R399). -/
def State.startData (s : State) (w : Work) (g : Group) : State :=
  let j := w.slot.getD 0
  let d := w.pkt.cdesc
  let ps := s.collParts j d
  let rs := sendRanges (d.sends g.size (g.rank s.fabric.mod) ps w.mask)
  if !(rs.all fun (t, off, n) => s.rangeFetched w.pid t off n) then
    if !w.tags.isEmpty then s
    else if w.failed then (s.dropColl w).completeOuts w.pid
    else rs.foldl (fun s (t, off, n) => s.fetchTensor w.dma w.pid t off n) s
  else if s.gated j (rs.flatMap fun (t, off, n) => s.rangeKeys t off n) then s
  else s.sendAll w g d ps

/-- A gather names the pending generation, and waits for its commit (R24, R188). -/
def State.awaitsCommit (s : State) (w : Work) : Bool := w.pkt.cdesc.gathers && w.pkt.cdesc.gen == (s.job (w.slot.getD 0)).step

/-- A bulk collective at the head of its queue starts, where nothing holds it: its fence, spilled sources still to be read, or
the sampling gate (R311, R323, R399). A gather of the pending generation starts without its data (R24). [Log entry 77: DEDUCED] -/
def State.startBulk (s : State) (w : Work) : State :=
  match s.group (w.slot.getD 0) w.pkt.group, s.coll w.pid with
  | some g, some c =>
    let j := w.slot.getD 0
    let d := w.pkt.cdesc
    let ps := s.collParts j d
    let rs := sendRanges (d.sends g.size (g.rank s.fabric.mod) ps w.mask)
    let start (s : State) : State :=
      ((s.dequeue j g.num w.pid).beginWrote w (rs.flatMap fun (t, off, n) => s.rangeKeys t off n) (s.collWrites g.size d ps)).modColl w.pid
        fun c => { c with started := true, expired := d.lateAt s.ftNow }
    if c.started then s
    else if s.fenced w d then s.noteFence w
    else if s.awaitsCommit w then start s
    else if !(rs.all fun (t, off, n) => s.rangeFetched w.pid t off n) || s.gated j (rs.flatMap fun (t, off, n) => s.rangeKeys t off n) then
      s.startData w g
    else if !s.canStage d ps then ((s.dropColl w).complete w.pid .noResource 0x0004 0)
    else (start s).sendAll w g d ps
  | _, _ => s

/-- A started collective of a group whose data is still to be sent, and waits for no commit. -/
def State.dataDue (s : State) (slot gnum : Nat) : Option Work :=
  s.works.find? fun w => w.slot == some slot && w.pkt.group == gnum && !s.awaitsCommit w && match s.coll w.pid with
    | some c => c.started && !c.sentAll
    | none => false

/-! ## Data (R310, R319, R320) -/

/-- The parts of a COLLECTIVE message's word 2. -/
def mGroup (m : Msg) : Nat := fld m.word2 0 6
def mCseq (m : Msg) : Nat := fld m.word2 6 24
def mPhase (m : Msg) : Nat := fld m.word2 30 2
def mRank (m : Msg) : Nat := fld m.word2 32 12
def mOpcode (m : Msg) : Nat := fld m.word2 44 8

/-- The offset word and the data words of a COLLECTIVE message. -/
def mOffset (m : Msg) : Nat := match wordsOf (m.data.take 1) with | (w, _) :: _ => fld w 0 40 | [] => 0
def mData (m : Msg) : List (Word × Bool) := wordsOf (m.data.drop 1)

/-- The element size at an element number. -/
def sizeAt (ps : List CPart) (off : Nat) : Nat := (((ps.filter fun p => p.first ≤ off).getLast?).map fun p => p.size).getD 8

/-- A message's placement lies in the extents of this member's collective (R310). -/
def CDesc.fits (d : CDesc) (n me : Nat) (ps : List CPart) (m : Msg) (len : Nat) : Bool :=
  let off := mOffset m
  match mPhase m with
  | 0 => (d.op = 0x52 || d.op = 0x53) && off + len ≤ d.partLen n me
  | 1 => d.op = 0x52 && partStart d.count n (mRank m) ≤ off && off + len ≤ partStart d.count n (mRank m + 1)
  | 2 => 0x54 ≤ d.op && off + len ≤ d.awaits n ps
  | _ => false

/-- A piece of a started collective arrives: a duplicate is dropped, a disagreement fails the collective, a late piece is
discarded, and another is reduced or placed (R310, R315, R317, R319). -/
def State.takePiece (s : State) (w : Work) (g : Group) (c : Coll) (x : Delivered) : State :=
  let d := w.pkt.cdesc
  let m := x.msg
  let ps := s.collParts (w.slot.getD 0) d
  let k := sizeAt ps (mOffset m)
  let n := (m.len + 1 - 8) / k
  if mOpcode m ≠ d.op || !d.fits g.size (g.rank s.fabric.mod) ps m n then s.failColl w 0x0161
  else if c.got.any fun p => p.phase == mPhase m && p.rank == mRank m && p.offset == mOffset m then s
  else
    let es := wordElems k n (mData m)
    let late := mPhase m ≠ 1 && (c.expired || d.lateAt x.stamp)
    let p : Piece := { phase := mPhase m, rank := mRank m, offset := mOffset m, elems := es, late := late }
    let s1 := s.modColl w.pid fun c => { c with got := c.got ++ [p], late := c.late || late }
    (if mPhase m ≠ 0 && !late then s1.placeElems w d ps (mOffset m) es else s1).settleColl w.pid

/-- The sender of a COLLECTIVE message is a member of a defined group of an open job, of the rank that the message names (R488). -/
def State.fromMember (s : State) (m : Msg) : Bool :=
  match (s.slotOf m.job).bind fun j => s.group j (mGroup m) with
  | none => false
  | some g => g.members.contains m.src && g.rank m.src == mRank m

/-- A GROUP_BIND of the group that a message names is under way here: what other members have sent since they bound it waits.
[Log entry 76: DEDUCED] -/
def State.bindsGroup (s : State) (m : Msg) : Bool :=
  match s.slotOf m.job with
  | none => false
  | some j => (s.group j (mGroup m)).isNone && s.works.any fun w => w.slot == some j && w.pkt.opcode == 0x50 && w.pkt.group == mGroup m

/-- The collective or bucket of this member that a COLLECTIVE message belongs to. -/
def State.msgWork (s : State) (m : Msg) : Option Work :=
  if !s.fromMember m then none
  else (s.slotOf m.job).bind fun j =>
    s.works.find? fun w => w.slot == some j && isCollective w.pkt.opcode && w.pkt.group == mGroup m && w.cseq == mCseq m

/-- A message of a collective that has ended here, its number having been given out, or of none: its group is neither defined here with
its sender nor being bound. [Log entry 76: DEDUCED] -/
def State.msgStale (s : State) (m : Msg) : Bool :=
  if !s.fromMember m then !s.bindsGroup m
  else match (s.slotOf m.job).bind fun j => s.group j (mGroup m) with
    | none => true
    | some g => (s.msgWork m).isNone && (let k := (g.cseq + 2 ^ 24 - mCseq m) % 2 ^ 24; 1 ≤ k && k < 2 ^ 23)

/-- A COLLECTIVE message of a bulk collective that can be taken now: its collective has started here, or has ended. -/
def State.pieceReady (s : State) (m : Msg) : Bool :=
  m.op = .collective && m.vc ≠ 1 && (s.msgStale m || match s.msgWork m with
    | none => false
    | some w => match s.coll w.pid with
      | some c => c.started
      | none => false)

/-- Take one delivered message. -/
def State.onePiece (s : State) (x : Delivered) : State :=
  match s.msgWork x.msg with
  | none => s
  | some w => match s.group (w.slot.getD 0) w.pkt.group, s.coll w.pid with
    | some g, some c => s.takePiece w g c x
    | _, _ => s

/-- Take every delivered message of a collective whose stamp meets its deadline. -/
def State.takeTimely (s : State) (w : Work) (d : CDesc) : State :=
  let mine (x : Delivered) : Bool := x.msg.op = .collective && x.msg.vc ≠ 1 && !d.lateAt x.stamp
    && match s.msgWork x.msg with | some v => v.pid == w.pid | none => false
  (s.delivered.filter mine).foldl State.onePiece { s with delivered := s.delivered.filter fun x => !mine x }

/-- The deadline of a started collective (R317): it stops waiting for contributions and data. -/
def opCollectiveDeadline (pid : Nat) (s : State) : State :=
  match s.work pid, s.coll pid with
  | some w, some c =>
    let d := w.pkt.cdesc
    if !c.started || c.expired || !d.lateAt s.ftNow then s
    else ((s.takeTimely w d).modColl pid fun c => { c with expired := true }).settleColl pid
  | _, _ => s

def execCollectiveDeadline (dt pid : Nat) (s : State) : Host.Outcome State Fault Refusal := run dt (opCollectiveDeadline pid) s

/-- A packet's collective is taken from its window's dispatch: its record is made (R311); a permute that waits on its fence
says so (R323). -/
def State.takeBulk (w : Work) (s : State) : State :=
  let c : Coll := { pid := w.pid, slot := w.slot.getD 0, group := w.pkt.group, cseq := w.cseq }
  let s1 := ({ s with colls := s.colls ++ [c] } : State).modWork w.pid fun v => { v with stage := .running }
  if s1.fenced w w.pkt.cdesc then s1.noteFence w else s1

def execAllreduce (dt pid : Nat) (s : State) : Host.Outcome State Fault Refusal := run dt (onHanded pid [0x52] State.takeBulk) s
def execReduceScatter (dt pid : Nat) (s : State) : Host.Outcome State Fault Refusal := run dt (onHanded pid [0x53] State.takeBulk) s
def execAllgather (dt pid : Nat) (s : State) : Host.Outcome State Fault Refusal := run dt (onHanded pid [0x54] State.takeBulk) s
def execBroadcast (dt pid : Nat) (s : State) : Host.Outcome State Fault Refusal := run dt (onHanded pid [0x55] State.takeBulk) s
def execPermute (dt pid : Nat) (s : State) : Host.Outcome State Fault Refusal := run dt (onHanded pid [0x56] State.takeBulk) s
def execAlltoall (dt pid : Nat) (s : State) : Host.Outcome State Fault Refusal := run dt (onHanded pid [0x57] State.takeBulk) s

end Sys2Proof.Machine
end

