-- ==== Sys2Proof/Machine/Igr.lean ====
section
/-! DEFINITION. Shard declarations and integer gradient reduction: scale passes, contributions, the owner's buffer, retraction,
re-collection, mean gradients, the optimizer and outcomes (12_gradient_reduction.md R334 to R355). -/

namespace Sys2Proof.Machine

/-! ## Shard declarations (R334 to R336) -/

def Packet.declares (p : Packet) : Bool := p.opcode = 0x59 && bitOf (p.par 0) 8

/-- The shard a declaration describes. -/
def Packet.newShard (p : Packet) (slot : Nat) : Shard :=
  { slot := slot, param := handleNum (p.pay 0), master := handleNum (p.pay 1), state := handleNum (p.pay 2), prog := handleNum (p.pay 3)
    hyper := (((List.range 4).map fun i => p.pay (4 + i)).filter fun h => h ≠ 0).map handleNum, elems := fld (p.par 1) 0 40
    pfmt := fld (p.par 2) 0 2, states := fld (p.par 2) 2 3, kept := 1 }

/-- The handle names a tensor of another job (R370). -/
def State.foreign (s : State) (slot : Nat) (x : Word) : Bool :=
  x ≠ 0 && handleSlot x ≠ slot && handleSlot x < 4 && (s.tensor (handleSlot x) x).isSome

/-- The BAD_PARAM detail of a shard declaration (R334, R370). [Log entry 81: DEDUCED] -/
def State.declDetail (s : State) (slot : Nat) (p : Packet) : Option Nat :=
  let h := p.newShard slot
  let r := (s.job slot).retain
  let hs := (List.range 8).map fun i => p.pay i
  let need := [p.pay 0, p.pay 1, p.pay 3] ++ ((p.pay 2) :: hs.drop 4).filter fun x => x ≠ 0
  let foreign (x : Word) : Bool := s.foreign slot x
  let gap := ((hs.drop 4).dropWhile fun x => x ≠ 0).any fun x => x ≠ 0
  minDetail
    [failIf (fld (p.par 0) 6 2 ≠ 0 || fld (p.par 0) 9 55 ≠ 0 || fld (p.par 1) 40 24 ≠ 0 || fld (p.par 2) 5 59 ≠ 0) 0x0002,
     failIf (need.any fun x => (s.tensor slot x).isNone && !foreign x) 0x0005,
     failIf (fld (p.par 0) 0 6 ≠ 0 || h.elems % 128 ≠ 0 || h.elems < 128 || 2 ^ 31 < h.elems || h.pfmt = 3 || 4 < h.states
       || decide (h.states = 0) ≠ decide (p.pay 2 = 0) || gap || need.any foreign
       || !s.holds slot (p.pay 0) ((r + 1) * h.elems * fmtBytes h.pfmt) || !s.holds slot (p.pay 1) (8 * h.elems)
       || (h.states ≠ 0 && !s.holds slot (p.pay 2) (8 * h.states * h.elems))
       || ((hs.drop 4).filter fun x => x ≠ 0).any (fun x => !s.holds slot x 512)
       || h.parts.any (fun k => (s.shardWith slot k).isSome) || h.parts.eraseDups.length ≠ h.parts.length) 0x0174]

/-- A declaration takes the current generation's copies as generation G of the shard; MASTER and STATE take PARAM's layout epoch
(R336). -/
def State.shardDeclare (w : Work) (s : State) : State :=
  let j := w.slot.getD 0
  let h := w.pkt.newShard j
  let e := ((s.tensors.find? fun t => t.num == h.param && t.slot == j).map fun t => t.epoch).getD 0
  let mine (t : Tensor) : Bool := t.slot == j && (t.num == h.master || (h.states ≠ 0 && t.num == h.state))
  ({ s with shards := s.shards ++ [h], tensors := updAll mine (fun t => { t with epoch := e }) s.tensors } : State).complete w.pid .done 0 0

/-- A handed packet of opcode 0x59 that declares, or that does not. -/
def onBucketOp (declares : Bool) (pid : Nat) (f : Work → State → State) (s : State) : State :=
  onHanded pid [0x59] (fun w s => if w.pkt.declares == declares then f w s else s) s

def execShardDeclare (dt pid : Nat) (s : State) : Host.Outcome State Fault Refusal := run dt (onBucketOp true pid State.shardDeclare) s

/-! ## The bucket descriptor (R339) -/

/-- A bucket descriptor with its group, deadline and number. -/
structure BDesc where
  grp    : Nat
  dl     : Nat
  num    : Nat
  grad   : Word
  off    : Nat
  fmt    : Nat
  excl   : Bool
  force  : Bool
  count  : Nat
  min_   : Nat
  owner  : Nat
  shOff  : Nat
  sgroup : Nat
  shard  : Word
  mask   : Word
  scOff  : Nat
  scUnits : Nat
  epoch  : Nat
  deriving DecidableEq, Repr, Inhabited

/-- The descriptor of an IGR_BUCKET packet. [Log entry 118: DEDUCED] -/
def Packet.bdesc (p : Packet) : BDesc :=
  { grp := p.group, dl := (p.par 1).toNat, num := fld (p.par 2) 0 32, grad := p.pay 0, off := fld (p.pay 1) 0 40
    fmt := fld (p.pay 1) 40 2, excl := bitOf (p.pay 1) 42, force := bitOf (p.pay 1) 43, count := fld (p.pay 2) 0 32
    min_ := fld (p.pay 2) 32 13, owner := fld (p.pay 2) 45 12, shOff := fld (p.pay 3) 0 40, sgroup := fld (p.pay 3) 40 24
    shard := p.pay 4, mask := p.pay 5, scOff := fld (p.pay 6) 0 40, scUnits := fld (p.pay 6) 40 24, epoch := (p.pay 7).toNat }

/-- The bucket as its job's step keeps it. -/
def BDesc.inStep (d : BDesc) (own : Bool) : StepBucket :=
  { num := d.num, deadline := d.dl, epoch := d.epoch, grad := handleNum d.grad, gradOff := d.off * fmtBytes d.fmt
    gradLen := d.count * fmtBytes d.fmt, shard := if own then some (handleNum d.shard, d.shOff, d.count) else none }

/-- The bucket's record in its scale group's terms (R341). -/
def BDesc.scale (d : BDesc) : ScaleGroup :=
  { sgroup := d.sgroup, group := d.grp, grad := handleNum d.grad, off := d.scOff, units := d.scUnits }

/-- The scale group recorded for a number. -/
def Job.scaleGroup (j : Job) (n : Nat) : Option ScaleGroup := j.scales.find? fun x => x.sgroup == n

/-- The bucket disagrees with its scale group's record (R341, R370). -/
def Job.scaleBad (j : Job) (d : BDesc) : Bool :=
  match j.scaleGroup d.sgroup with
  | none => false
  | some x => x.group ≠ d.grp || x.grad ≠ handleNum d.grad || x.off ≠ d.scOff || x.units ≠ d.scUnits

/-- What a bucket's BAD_PARAM details say of its group, its ranges and its shard (R339, R340, R365, R370). -/
def State.bucketDetails (s : State) (slot : Nat) (p : Packet) (g : Group) : List (Option Nat) :=
  let d := p.bdesc
  let j := s.job slot
  let n := g.size
  let own := g.rank s.fabric.mod = d.owner
  let sh := (s.tensor slot d.shard).bind fun t => s.shardOf slot t.num
  let elems := match s.tensor slot d.grad with | none => 0 | some t => t.bytes / fmtBytes d.fmt
  let lap := match sh with
    | none => false
    | some h => j.buckets.any fun b => match b.shard with
      | some (k, o, c) => k == h.param && overlaps o c d.shOff d.count
      | none => false
  [failIf g.vc.isNone 0x0165,
   failIf (d.count % 128 ≠ 0 || d.count < 128 || 2 ^ 26 < d.count || d.fmt = 0 || d.fmt = 3 || d.min_ = 0 || n < d.min_
     || n ≤ d.owner || d.shOff % 128 ≠ 0 || elems < d.scOff + 128 * d.scUnits || d.off < d.scOff
     || d.scOff + 128 * d.scUnits < d.off + d.count || g.prec = 0 || fld (p.pay 1) 44 20 ≠ 0 || fld (p.pay 2) 57 7 ≠ 0
     || fld (p.par 0) 6 58 ≠ 0 || fld (p.par 2) 32 32 ≠ 0) 0x0170,
   failIf ((!own && (d.shard ≠ 0 || d.mask ≠ 0)) || (own && (sh.isNone || lap || (match sh with | some h => h.elems < d.shOff + d.count | none => false)))
     || j.buckets.any (fun b => b.num == d.num) || (own && d.force && d.mask = 0)
     || (own && d.mask ≠ 0 && !s.holds slot d.mask (ceilDiv n 8))) 0x0171,
   failIf (j.scaleBad d) 0x0172,
   failIf (own && sh.isSome && d.epoch ≠ s.epochOf slot d.shard) 0x0173]

/-- The BAD_PARAM detail of an IGR_BUCKET (R75, R332, R370); without a group, an unknown handle is judged beside that.
[Log entry 81: DEDUCED] -/
def State.bucketDetail (s : State) (slot : Nat) (p : Packet) : Option Nat :=
  let d := p.bdesc
  minDetail (failIf ((s.tensor slot d.grad).isNone || (d.shard ≠ 0 && (s.tensor slot d.shard).isNone && !s.foreign slot d.shard)
      || (d.mask ≠ 0 && (s.tensor slot d.mask).isNone)) 0x0005
    :: match s.group slot d.grp with
      | none => [some 0x0160]
      | some g => s.bucketDetails slot p g)

/-- The NO_RESOURCE detail of an IGR_BUCKET at its dispatch (R341). -/
def State.bucketNoRes (s : State) (slot : Nat) (p : Packet) : Option Nat :=
  let j := s.job slot
  failIf ((j.scaleGroup p.bdesc.sgroup).isNone && 1024 ≤ j.scales.length) 0x0170

/-! ## Records -/

def State.bucket (s : State) (pid : Nat) : Option Bucket := s.buckets.find? fun b => b.pid == pid

def State.modBucket (s : State) (pid : Nat) (f : Bucket → Bucket) : State :=
  { s with buckets := updFirst (fun b => b.pid == pid) f s.buckets }

/-- Change the owner's side of a bucket. -/
def State.modOwner (s : State) (pid : Nat) (f : OwnerSide → OwnerSide) : State :=
  s.modBucket pid fun b => { b with owner := b.owner.map f }

/-- A bucket ends on this module: its record, its buffer and its place in the queue go (R342). -/
def State.dropBucket (s : State) (w : Work) : State :=
  let s1 := s.dequeue (w.slot.getD 0) w.pkt.group w.pid
  ({ s1 with buckets := dropFirst (fun b => b.pid == w.pid) s1.buckets } : State).settleDeferred

/-- Rank bit of a mask's words (R350). -/
def rankBit (ws : List Word) (r : Nat) : Bool := bitOf (lget ws (r / 64) 0) (r % 64)

/-! ## IGR_BUCKET: the record, and the owner's buffer (R342) -/

/-- The owner places the accumulation buffer on the shard's home tile, all zero, or cannot. [Log entry 80: DESIGN CHOICE] -/
def State.placeBuffer (s : State) (slot tile count n : Nat) : Option (OwnerSide × State) :=
  let pages := (9 * count + 4 * n + 65535) / 65536
  let allowed := s.allowedTiles slot
  if !s.deferred.isEmpty || (allowed.map s.freeOn).foldl (· + ·) 0 < pages then none
  else (s.freeRun tile pages).map fun l =>
    ({ members := List.replicate n {}, bufTile := tile, bufPage := l, bufPages := pages },
     (s.backRun [] allowed tile l pages).zeroRun tile l (65536 * pages))

/-! ## Quantisation (R343, R345) -/

/-- An element of the gradient as read: its value, and whether it is poisoned. -/
def gradElems (fmt : Nat) (es : List Elem) : List (Val × Bool) := es.map fun e => (decodeVal fmt e.bits, e.poison)

/-- Read elements of the bucket's gradient tensor. -/
def State.readGrad (s : State) (w : Work) (d : BDesc) (off n : Nat) : List Elem × State :=
  match s.tensorKept (w.slot.getD 0) d.grad with
  | none => ([], s)
  | some t =>
    let k := fmtBytes d.fmt
    let (bs, s1) := s.tensorBytes w.dma t (off * k) (n * k)
    ((cutElems k n bs).map fun e => { bits := e.1, poison := e.2 }, s1)

/-- The exponent of the largest finite nonzero element, −2^63 when there is none. [Log entry 82: DEDUCED] -/
def scaleExponent (es : List (Val × Bool)) : Int :=
  es.foldl (fun e x => match x.1 with
    | .fin _ sig ex => if sig = 0 then e else max e (floorLog sig ex)
    | _ => e) (-(2 ^ 63 : Int))

/-- q of R343: rne(x × 2^(p − 2 − E)). [Log entry 82: DEDUCED] -/
def quantise (v : Val) (p : Nat) (e : Int) : Int :=
  match v with
  | .fin neg sig ex => let q : Int := rneUnits sig ex (e + 2 - p); if neg then -q else q
  | _ => 0

/-- A non-finite element or a poisoned word. -/
def voidElem (x : Val × Bool) : Bool := x.2 || match x.1 with | .fin _ _ _ => false | _ => true

/-- Lane groups: eight lanes, then the residues of the eight (R346). -/
def laneGroups : Nat → List Int → List Word
  | 0, _ => []
  | f + 1, qs =>
    if qs.isEmpty then []
    else
      let h := qs.take 8
      let lanes := (List.range 8).map fun i => wd (toTwos 64 (lget h i 0))
      let res := wd (((List.range 8).map fun i => at_ ((lget h i 0) % 251).toNat 8 (8 * i)).foldl (· + ·) 0)
      lanes ++ [res] ++ laneGroups f (qs.drop 8)

/-- Chunks of up to 448 elements, with their first elements. -/
def cutChunks : Nat → Nat → List Int → List (Nat × List Int)
  | 0, _, _ => []
  | f + 1, off, qs => if qs.isEmpty then [] else (off, qs.take 448) :: cutChunks f (off + 448) (qs.drop 448)

/-! ## Notices (R347) -/

/-- Word 0 of a notice. -/
def noticeWord (kind group cseq : Nat) : Word := wd (at_ kind 8 0 + at_ group 6 8 + at_ cseq 24 14)

/-- Send a notice to a rank. -/
def State.sendNotice (s : State) (w : Work) (g : Group) (rank kind : Nat) (w1 w2 : Word) (byReset : Bool := false) : State :=
  s.control (g.memberOf rank) w.fjob (.notice (noticeWord kind g.num w.cseq) w1 w2 byReset)

/-- The kind, group and CSEQ of a notice. -/
def noticeKind (m : Msg) : Nat := match m.ctl with | .notice w0 _ _ _ => fld w0 0 8 | _ => 0
def noticeGroup (m : Msg) : Nat := match m.ctl with | .notice w0 _ _ _ => fld w0 8 6 | _ => 0
def noticeCseq (m : Msg) : Nat := match m.ctl with | .notice w0 _ _ _ => fld w0 14 24 | _ => 0

/-- The bucket's work that a notice names. -/
def State.noticeWork (s : State) (m : Msg) : Option Work :=
  (s.slotOf m.job).bind fun j =>
    s.works.find? fun w => w.slot == some j && w.pkt.opcode == 0x59 && !w.pkt.declares && w.pkt.group == noticeGroup m && w.cseq == noticeCseq m

/-- A notice of a bucket that has ended here. -/
def State.noticeStale (s : State) (m : Msg) : Bool :=
  match (s.slotOf m.job).bind fun j => s.group j (noticeGroup m) with
  | none => true
  | some g => (s.noticeWork m).isNone && (let k := (g.cseq + 2 ^ 24 - noticeCseq m) % 2 ^ 24; 1 ≤ k && k < 2 ^ 23)

/-! ## The end of a bucket (R354) -/

/-- A bucket's outcome is the first that applies (R354). -/
def OwnerSide.outcome (o : OwnerSide) (n : Nat) : Status × Nat :=
  match o.failed with
  | some f => f
  | none => if o.replayed then (.replayedOk, 0) else if o.counted.length < n then (.lateExcluded, 0) else (.done, 0)

/-- The step's conditions that an outcome carries (R358): its status, and an exclusion where the bucket did not fail. -/
def State.raiseOutcome (s : State) (slot : Nat) (st : Status) (detail counted n ft : Nat) : State :=
  let s1 := s.raiseAt slot st ft detail
  if st = .replayedOk && counted < n then s1.raiseAt slot .lateExcluded ft 0 else s1

/-- The participation mask's bytes (R350). -/
def maskBytes (counted : List Nat) (n : Nat) : List Byte :=
  (List.range (ceilDiv n 8)).map fun i => BitVec.ofNat 8 (((List.range 8).map fun k => flag (counted.contains (8 * i + k)) k).foldl (· + ·) 0)

/-- Change a job's scale group. -/
def State.modScale (s : State) (slot n : Nat) (f : ScaleGroup → ScaleGroup) : State :=
  s.modJob slot fun j => { j with scales := updFirst (fun x => x.sgroup == n) f j.scales }

/-- The tag of a scale pass (R325, R343). -/
def scaleTag (slot sgroup : Nat) : Nat := 50 + 4 * slot + sgroup % 2

/-- A scale pass that no open bucket waits for any more is abandoned, and its tag is free again (R371). [Log entry 83: DEDUCED] -/
def State.abandonPass (s : State) (w : Work) : State :=
  let slot := w.slot.getD 0
  let n := w.pkt.bdesc.sgroup
  let other := s.buckets.any fun b => b.pid != w.pid && b.slot == slot && (s.work b.pid).any fun v => v.pkt.bdesc.sgroup == n
  match (s.job slot).scaleGroup n, s.run (scaleTag slot n) with
  | some x, some u =>
    if x.inFlight && u.serves = .scale slot n && !other then
      (s.endRun (scaleTag slot n) u).modScale slot n fun x => { x with inFlight := false }
    else s
  | _, _ => s

/-- Write a bucket's participation mask, where it names a MASK that the control processor may write (R354, R487). -/
def State.writeMask (s : State) (w : Work) (d : BDesc) (bs : List Byte) : State :=
  match s.tensorKept (w.slot.getD 0) d.mask with
  | none => s
  | some t =>
    let x := s.ctl w
    match s.tensorCheck x .write t bs.length with
    | some (r, o) => (s.logRes x r t.tile o (s.globalAddr t.tile o)).noteFail w.pid r.status.1 r.status.2
    | none => s.finishMoves.writeTensor x w.pid t 0 (bs.map fun b => some (b, false))

/-- The owner ends a bucket: it writes the mask, sends OUTCOME to every member, and replies with the first that applies of the outcome
and what its packet's work met besides (R354, R537). -/
def State.endBucket (s : State) (w : Work) (g : Group) (d : BDesc) (o : OwnerSide) : State :=
  let j := w.slot.getD 0
  let n := g.size
  let again := w.outs.any fun x => x.1 == Status.replayedOk
  let (st, detail) := ({ o with replayed := o.replayed || again } : OwnerSide).outcome n
  let k := o.counted.length
  let s1 := s.writeMask w d (maskBytes o.counted n)
  let w1 := wd (at_ st.code 8 33 + at_ k 13 41)
  let me := g.rank s.fabric.mod
  let s2 := ((List.range n).filter fun r => r ≠ me).foldl (fun s r => s.sendNotice w g r 0x22 w1 (wd s.ftNow) (detail = 0x0010)) s1
  let s3 := ((s2.raiseOutcome j st detail k n s2.ftNow).abandonPass w).dropBucket w
  (s3.modWork w.pid fun v => { v with outs := [firstOut ((st, detail) :: v.outs)], result := k }).finishRemote w.pid

/-- The bucket fails at once (R354). -/
def State.failBucket (s : State) (w : Work) (g : Group) (d : BDesc) (o : OwnerSide) (st : Status) (detail : Nat) : State :=
  s.endBucket w g d { o with failed := some (st, detail) }

/-- A bucket ends on a member that is not its owner, or on one that has no such group any more. -/
def State.endMember (s : State) (w : Work) (st : Status) (detail result : Nat) : State :=
  ((s.abandonPass w).dropBucket w).complete w.pid st detail result

/-- This member is the owner of a packet's bucket. -/
def State.isOwner (s : State) (w : Work) : Bool :=
  match s.group (w.slot.getD 0) w.pkt.group with
  | some g => g.rank s.fabric.mod = w.pkt.bdesc.owner
  | none => false

/-- A bucket fails on this member: on its owner for every member, elsewhere for this one. -/
def State.failMember (s : State) (w : Work) (st : Status) (detail : Nat) : State :=
  let j := w.slot.getD 0
  let d := w.pkt.bdesc
  match s.group j d.grp, s.isOwner w with
  | some g, true =>
    s.failBucket w g d (((s.bucket w.pid).bind fun b => b.owner).getD { members := [], bufTile := 0, bufPage := 0, bufPages := 0 }) st detail
  | _, _ => (s.raise j st detail).endMember w st detail 0

/-! ## Sending contributions (R343, R346) -/

/-- Send chunks to the owner, or to this module's own adders. -/
def State.sendChunks (s : State) (w : Work) (g : Group) (d : BDesc) : List (Nat × List Int) → State
  | [] => s
  | (off, qs) :: t =>
    let s1 := if g.rank s.fabric.mod = d.owner then s.modBucket w.pid fun b => { b with ownChunks := b.ownChunks ++ [(off, qs)] }
      else
        let ws := laneGroups (qs.length + 1) qs
        let (e, s1) := s.sendColl w g d.owner 0 off 0x59 (ws.map fun x => encodeWord x false) (8 * ws.length)
        s1.modBucket w.pid fun b => { b with unacked := b.unacked ++ [e] }
    s1.sendChunks w g d t

/-- A tile DMA engine may not read a range of the bucket's gradient: the bucket fails on this member (R206, R487).
[Log entry 83: DEDUCED] -/
def State.gradDenied (s : State) (w : Work) (d : BDesc) (off n : Nat) : Option State :=
  match s.tensorKept (w.slot.getD 0) d.grad with
  | none => none
  | some t =>
    let k := fmtBytes d.fmt
    if t.spill.isSome then none
    else (s.rangeCheck w.dma .read t.tile (t.off + off * k) (n * k / 4096 + 2) (n * k)).map fun (r, o) =>
      (s.logRes w.dma r t.tile o (s.globalAddr t.tile o)).failMember w .internal r.status.2

/-- A member sends its contribution, with this sign, once the exponent is known. -/
def State.contribute (s : State) (w : Work) (g : Group) (d : BDesc) (negate : Bool) : State :=
  match (s.job (w.slot.getD 0)).scaleGroup d.sgroup with
  | some { exp := some e, .. } =>
    match s.gradDenied w d d.off d.count with
    | some s1 => s1
    | none =>
      let (es, s1) := s.readGrad w d d.off d.count
      let qs := (gradElems d.fmt es).map fun x => quantise x.1 g.prec e
      s1.sendChunks w g d (cutChunks (d.count + 1) 0 (if negate then qs.map fun q => -q else qs))
  | _ => s

/-! ## The owner: closing (R349, R350) -/

/-- A partial member whose counter has reached COUNT is asked to retract (R349); this module's own chunks are sent again at
once. -/
def State.askRetract (s : State) (w : Work) (g : Group) (d : BDesc) (rank : Nat) : State :=
  let j := w.slot.getD 0
  let s1 := (s.modOwner w.pid fun o =>
      { o with members := o.members.mapIdx fun i m => if i = rank then { m with retracted := true } else m }).modJob j
    fun b => { b with stp := { b.stp with retract := satInc 16 b.stp.retract } }
  if rank = g.rank s.fabric.mod then s1.contribute w g d true else s1.sendNotice w g rank 0x21 0 0

/-- A member counts (R349, R350). -/
def BDesc.counts (d : BDesc) (mask : List Word) (rank : Nat) (m : Standing) : Bool :=
  if d.force then rankBit mask rank && m.complete.isSome
  else !m.voided && match m.complete with | some t => t < d.dl | none => false

/-- A member that is not counted is partial: some of its lanes were added. -/
def Standing.partial_ (m : Standing) : Bool := m.added ≠ 0

/-- The owner closes the bucket (R349, R350). [Log entry 83: DEDUCED] -/
def State.closeBucket (s : State) (w : Work) (g : Group) (d : BDesc) (o : OwnerSide) : State :=
  let j := w.slot.getD 0
  let ranked := o.members.mapIdx fun i m => (i, m)
  let counted := (ranked.filter fun x => d.counts w.mask x.1 x.2).map Prod.fst
  let o1 := { o with closed := true, counted := counted }
  let traps := ranked.any fun x => x.2.voided && (if d.force then rankBit w.mask x.1 else !d.excl)
  let excluded := (ranked.filter fun x => !counted.contains x.1 && !(x.2.voided && !d.excl)).length
  let s1 := (s.modOwner w.pid fun _ => o1).modJob j fun b => { b with stp := { b.stp with late := satAdd 16 b.stp.late excluded } }
  if traps then s1.failBucket w g d o1 .poisonedContribution 0
  else if counted.length < d.min_ then s1.failBucket w g d o1 .internal 0x0170
  else
    ((ranked.filter fun x => !counted.contains x.1 && x.2.added = d.count).map Prod.fst).foldl (fun s r => s.askRetract w g d r) s1

/-- Every member the bucket waits for is complete, or has sent VOID. -/
def OwnerSide.allIn (o : OwnerSide) (d : BDesc) (mask : List Word) : Bool :=
  (o.members.mapIdx fun i m => (i, m)).all fun x =>
    (d.force && !rankBit mask x.1) || x.2.complete.isSome || x.2.voided

/-- Close when everything has come. -/
def State.tryClose (s : State) (w : Work) (g : Group) (d : BDesc) : State :=
  match (s.bucket w.pid).bind fun b => b.owner with
  | none => s
  | some o => if !o.closed && o.allIn d w.mask then s.closeBucket w g d o else s

/-! ## The owner: adding (R348) -/

/-- A lane of a chunk: its value, its residue, and whether their words were poisoned. -/
structure LaneIn where
  val       : Nat
  res       : Nat
  poison    : Bool
  resPoison : Bool
  deriving DecidableEq, Repr, Inhabited

/-- The lanes of a chunk's words. -/
def lanesIn : Nat → List (Word × Bool) → List LaneIn
  | 0, _ => []
  | f + 1, ws =>
    if ws.isEmpty then []
    else
      let r := lget ws 8 (0, false)
      ((List.range 8).map fun i =>
        let l := lget ws i (0, false)
        { val := l.1.toNat, res := fld r.1 (8 * i) 8, poison := l.2, resPoison := r.2 }) ++ lanesIn f (ws.drop 9)

/-- The lanes of an own chunk. -/
def ownLanes (qs : List Int) : List LaneIn :=
  qs.map fun q => { val := toTwos 64 q, res := (q % 251).toNat, poison := false, resPoison := false }

/-- Where the buffer's lanes, residue bytes and lane counters lie on its tile. [Log entry 80: DESIGN CHOICE] -/
def OwnerSide.base (o : OwnerSide) : Nat := 65536 * o.bufPage
def OwnerSide.laneOff (o : OwnerSide) (i : Nat) : Nat := o.base + 8 * i
def OwnerSide.resOff (o : OwnerSide) (d : BDesc) (i : Nat) : Nat := o.base + 8 * d.count + i
def OwnerSide.countOff (o : OwnerSide) (d : BDesc) (rank : Nat) : Nat := o.base + 9 * d.count + 4 * rank

/-- An adder changes `n` bytes within a stored word, which it checks first; poison of either goes into the word (R227, R348). -/
def State.addInWord (s : State) (x : OpCtx) (t off n : Nat) (f : Nat → Nat) (poison : Bool) : State :=
  let ((d, p), s1) := s.readWord t off x
  let k := 8 * (off % 8)
  let old := fld d k (8 * n)
  s1.writeWord t off (wd (d.toNat - old * 2 ^ k + f old % 2 ^ (8 * n) * 2 ^ k)) (p || poison)

/-- A lane's sum after a contribution; a silent error of the adder changes the sum alone (R348). -/
def laneSum (v : Nat) (l : LaneIn) (err : Int) : Nat := toTwos 64 ((v : Int) + l.val + err)

/-- A lane's residue after a contribution (R348). -/
def residueSum (v : Nat) (l : LaneIn) : Nat := (v + l.res) % 251

/-- A lane's sum differs from its residue (R351). -/
def laneBad (sum res : Nat) : Bool := decide (fromTwos 64 sum % 251 ≠ res)

/-- Add a lane and its residue into the buffer (R348). -/
def State.addLane (s : State) (x : OpCtx) (d : BDesc) (o : OwnerSide) (i : Nat) (l : LaneIn) (err : Int) : State :=
  (s.addInWord x o.bufTile (o.laneOff i) 8 (fun v => laneSum v l err) l.poison).addInWord x o.bufTile (o.resOff d i) 1
    (fun v => residueSum v l) l.resPoison

/-- Add a chunk's lanes from an element on, and their number to the sender's counter (R348). -/
def State.addChunkLanes (s : State) (x : OpCtx) (d : BDesc) (o : OwnerSide) (rank off : Nat) (xs : List LaneIn) (errs : List SilentErr) :
    State :=
  let err (i : Nat) : Int := ((errs.filter fun e => e.row = i).map fun e => e.delta).foldl (· + ·) 0
  ((xs.mapIdx fun i l => (i, l)).foldl (fun s (y : Nat × LaneIn) => s.addLane x d o (off + y.1) y.2 (err y.1)) s.finishMoves).addInWord x o.bufTile
    (o.countOff d rank) 4 (fun v => v + xs.length) false

/-- The owner takes chunks of a member at this point (R349 to R351). -/
def OwnerSide.accepts (o : OwnerSide) (d : BDesc) (mask : List Word) (rank off : Nat) : Bool :=
  let m := lget o.members rank {}
  o.failed.isNone && o.mean.isNone && !m.voided && !m.seen.contains off && (!d.force || rankBit mask rank)
    && (if !o.closed then m.added < d.count
        else if o.counted.contains rank then o.collects ≠ 0 && m.added < d.count
        else m.added ≠ 0 && m.added < 2 * d.count)

/-- A member's standing after a chunk. -/
def Standing.after (m : Standing) (d : BDesc) (off n stamp : Nat) : Standing :=
  let k := m.added + n
  { m with added := k, seen := if k % d.count = 0 then [] else m.seen ++ [off]
           complete := if k = d.count && m.complete.isNone then some stamp else m.complete }

/-- The adders take a chunk whose stamp the deadline does not come before; one beyond the bucket's extents fails it (R310, R348,
R349). -/
def State.addTimely (s : State) (w : Work) (g : Group) (d : BDesc) (x : OpCtx) (rank off stamp : Nat) (xs : List LaneIn) (errs : List SilentErr) :
    State :=
  match (s.bucket w.pid).bind fun b => b.owner with
  | none => s
  | some o =>
    if d.count < off + xs.length then s.failBucket w g d o .internal 0x0161
    else if !o.accepts d w.mask rank off then s
    else
      let s2 := (s.addChunkLanes x d o rank off xs errs).modOwner w.pid fun o =>
        { o with members := o.members.mapIdx fun i m => if i = rank then m.after d off xs.length stamp else m }
      let m := (lget o.members rank {}).after d off xs.length stamp
      if o.closed && !o.counted.contains rank && m.added = d.count && !m.retracted then s2.askRetract w g d rank
      else s2.tryClose w g d

/-- The bucket of this owner that a chunk belongs to, or none yet. -/
def State.chunkReady (s : State) (m : Msg) : Bool :=
  m.op = .collective && m.vc ≠ 1 && mOpcode m = 0x59 && match s.msgWork m with
    | none => false
    | some w => match s.bucket w.pid with
      | some b => b.owner.isSome
      | none => false

/-- A delivered chunk reaches the adders. -/
def State.oneChunk (s : State) (errs : List SilentErr) (x : Delivered) : State :=
  match s.msgWork x.msg with
  | none => s
  | some w => match s.group (w.slot.getD 0) w.pkt.group with
    | none => s
    | some g =>
      let ws := mData x.msg
      let n := (x.msg.len + 1 - 8) / 72 * 8
      s.addTimely w g w.pkt.bdesc w.dma (mRank x.msg) (mOffset x.msg) x.stamp ((lanesIn (ws.length + 1) ws).take n) errs

/-! ## IGR_BUCKET (R342) -/

/-- An IGR_BUCKET is taken: on its owner the buffer is placed, and a forced bucket that waits for no member closes (R342, R350).
[Log entry 41: DEDUCED] -/
def State.takeBucket (w : Work) (s : State) : State :=
  let j := w.slot.getD 0
  let d := w.pkt.bdesc
  match s.group j d.grp with
  | none => s
  | some g =>
    let b : Bucket := { pid := w.pid, slot := j, group := d.grp, cseq := w.cseq }
    let s1 := s.modWork w.pid fun v => { v with stage := .running }
    if g.rank s.fabric.mod ≠ d.owner then { s1 with buckets := s1.buckets ++ [b] }
    else
      let tile := ((s.tensorKept j d.shard).map fun t => t.tile).getD 0
      match s1.placeBuffer j tile d.count g.size with
      | none =>
        ((s1.dequeue j d.grp w.pid).modJob j fun b => { b with buckets := b.buckets.filter fun x => x.num ≠ d.num }).complete w.pid
          .noResource 0x0004 0
      | some (o, s2) =>
        let s3 : State := { s2 with buckets := s2.buckets ++ [{ b with owner := some o }] }
        if d.force then s3.tryClose w g d else s3

def execIgrBucket (dt pid : Nat) (s : State) : Host.Outcome State Fault Refusal :=
  run dt (onBucketOp false pid fun w => afterMoves (State.takeBucket w)) s

/-! ## VOID notices and the deadline (R349, R355) -/

/-- Under TRAP the owner fills JSC_POISON_REC if it is empty (R355, R369). -/
def State.fillPoisonRec (s : State) (w : Work) (g : Group) (d : BDesc) (rank stamp elem : Nat) (poisoned : Bool) : State :=
  s.modJob (w.slot.getD 0) fun j =>
    if j.stp.poisonTrap then j
    else { j with stp := { j.stp with
      poisonTrap := true
      poisonRec := { bucket := d.num, rank := rank, mod := g.memberOf rank, step := w.step, ft := stamp, element := elem, poisoned := poisoned } } }

/-- A VOID notice whose stamp the deadline does not come before reaches the owner (R349, R350). -/
def State.voided (s : State) (w : Work) (g : Group) (d : BDesc) (rank stamp elem : Nat) (poisoned : Bool) : State :=
  match (s.bucket w.pid).bind fun b => b.owner with
  | none => s
  | some o =>
    let traps := if d.force then rankBit w.mask rank else !d.excl
    let s2 := if traps && !(d.force && !rankBit w.mask rank) then s.fillPoisonRec w g d rank stamp elem poisoned else s
    if o.closed then s2
    else
      let s3 := s2.modOwner w.pid fun o =>
        { o with members := o.members.mapIdx fun i m =>
            if i = rank then { m with voided := true, voidElem := elem, voidPoison := poisoned } else m }
      if d.force && traps then s3.closeBucket w g d { o with members := o.members.mapIdx fun i m => if i = rank then { m with voided := true } else m }
      else s3.tryClose w g d

/-- A notice of this kind that can be taken now: its bucket is here, or has ended. -/
def State.noticeReady (s : State) (kind : Nat) (owner : Bool) (m : Msg) : Bool :=
  noticeKind m = kind && (s.noticeStale m || match s.noticeWork m with
    | none => false
    | some w => match s.bucket w.pid with
      | some b => !owner || b.owner.isSome
      | none => false)

/-- An OUTCOME says that a reset ended the bucket (R449). [Log entry 20: DEDUCED] -/
def noticeByReset (m : Msg) : Bool := match m.ctl with | .notice _ _ _ r => r | _ => false

/-- Words 1 and 2 of a notice. -/
def noticeWords (m : Msg) : Word × Word := match m.ctl with | .notice _ a b _ => (a, b) | _ => (0, 0)

/-- Act on a delivered notice of a bucket that is here. -/
def State.onNotice (s : State) (x : Delivered) (f : Work → Group → BDesc → State → State) : State :=
  match s.noticeWork x.msg with
  | none => s
  | some w => match s.group (w.slot.getD 0) w.pkt.group with
    | none => s
    | some g => f w g w.pkt.bdesc s

/-- A VOID notice. -/
def State.oneVoid (s : State) (x : Delivered) : State :=
  s.onNotice x fun w g d s => s.voided w g d (g.rank x.msg.src) x.stamp (fld (noticeWords x.msg).1 0 32) (bitOf (noticeWords x.msg).1 32)

/-- Take every delivered chunk and VOID notice of a bucket whose stamp meets its deadline, in order of arrival. -/
def State.takeTimelyChunks (s : State) (w : Work) (d : BDesc) : State :=
  let mine (x : Delivered) : Bool := x.stamp < d.dl &&
    ((s.chunkReady x.msg && (s.msgWork x.msg).any fun v => v.pid == w.pid)
      || (noticeKind x.msg = 0x20 && (s.noticeWork x.msg).any fun v => v.pid == w.pid))
  (s.delivered.filter mine).foldl (fun s x => if x.msg.op = .collective then s.oneChunk [] x else s.oneVoid x)
    { s with delivered := s.delivered.filter fun x => !mine x }

/-- The deadline is judged before an event that comes at or after it, once everything that was delivered before it has been taken
(R41, R44, R349). -/
def State.judgeDeadline (s : State) (w : Work) (g : Group) (d : BDesc) (ft : Nat) : State :=
  if d.force || ft < d.dl then s
  else
    let s1 := s.takeTimelyChunks w d
    match (s1.bucket w.pid).bind fun b => b.owner with
    | none => s1
    | some o => if o.closed then s1 else s1.closeBucket w g d o

/-- The deadline of the bucket that a delivered chunk or notice belongs to is judged before it. -/
def State.judgeMsg (s : State) (x : Delivered) : State :=
  match if x.msg.op = .collective then s.msgWork x.msg else s.noticeWork x.msg with
  | none => s
  | some w => match s.group (w.slot.getD 0) w.pkt.group with
    | none => s
    | some g => s.judgeDeadline w g w.pkt.bdesc x.stamp

/-- The deadlines of a job's buckets on this owner that have come at an FT are judged (R44). -/
def State.judgeBuckets (s : State) (slot ft : Nat) : State :=
  (s.buckets.filter fun b => b.slot == slot && b.owner.isSome).foldl (fun s b => match s.work b.pid with
    | none => s
    | some w => match s.group slot w.pkt.group with
      | none => s
      | some g => s.judgeDeadline w g w.pkt.bdesc ft) s

/-! ## The adders take chunks, and the owner notices (R38, R348, R349) -/

/-- The next own chunk reaches the adders, and is stamped then (R38). -/
def State.ownChunk (s : State) (errs : List SilentErr) : State :=
  match s.buckets.find? fun b => !b.ownChunks.isEmpty with
  | none => s
  | some b => match s.work b.pid, b.ownChunks with
    | some w, (off, qs) :: t => match s.group (w.slot.getD 0) w.pkt.group with
      | none => s
      | some g =>
        let d := w.pkt.bdesc
        ((s.modBucket b.pid fun b => { b with ownChunks := t }).judgeDeadline w g d s.ftNow).addTimely w g d w.dma (g.rank s.fabric.mod) off
          s.ftNow (ownLanes qs) errs
    | _, _ => s

/-- The owner's adders take the next arriving or own chunk. -/
def opContributionChunk (own : Bool) (errs : List SilentErr) (s : State) : State :=
  if own then s.ownChunk errs else s.takeDelivered s.chunkReady fun x s => (s.judgeMsg x).oneChunk errs x

def execContributionChunk (dt : Nat) (own : Bool) (errs : List SilentErr) (s : State) : Host.Outcome State Fault Refusal :=
  run dt (opContributionChunk own errs) s

def opVoidNotice (s : State) : State := s.takeDelivered (s.noticeReady 0x20 true) fun x s => (s.judgeMsg x).oneVoid x

def execVoidNotice (dt : Nat) (s : State) : Host.Outcome State Fault Refusal := run dt opVoidNotice s

/-- The bucket's deadline (R349). [Log entry 118: DEDUCED] -/
def opBucketDeadline (pid : Nat) (s : State) : State :=
  match s.work pid with
  | none => s
  | some w =>
    let d := w.pkt.bdesc
    match s.bucket pid, s.group (w.slot.getD 0) d.grp with
    | some b, some g => if b.owner.isNone then s else s.judgeDeadline w g d s.ftNow
    | _, _ => s

def execBucketDeadline (dt pid : Nat) (s : State) : Host.Outcome State Fault Refusal := run dt (opBucketDeadline pid) s

/-! ## Members: scale pass, sending, retracting, collecting again (R343, R351) -/

/-- The word keys of the bucket's gradient range. -/
def State.gradKeys (s : State) (w : Work) (d : BDesc) : List (Nat × Nat) :=
  match s.tensorKept (w.slot.getD 0) d.grad with
  | none => []
  | some t => s.rangeKeys t (d.off * fmtBytes d.fmt) (d.count * fmtBytes d.fmt)

/-- A started bucket whose exponent is known sends its VOID notice, or its chunks unless the sampling gate holds them (R343,
R399). -/
def State.flushBucket (s : State) (pid : Nat) : State :=
  match s.work pid, s.bucket pid with
  | some w, some b =>
    let j := w.slot.getD 0
    let d := w.pkt.bdesc
    match s.group j d.grp, ((s.job j).scaleGroup d.sgroup).bind fun x => x.exp with
    | some g, some _ =>
      if !b.started || b.sentAll || s.gated j (s.gradKeys w d) then s
      else match s.gradDenied w d d.off d.count with
      | some s1 => s1
      | none =>
        let (es, s1) := s.readGrad w d d.off d.count
        let s2 := (s1.modBucket pid fun b => { b with sentAll := true }).markSent j (s1.gradKeys w d)
        let xs := gradElems d.fmt es
        let i := xs.findIdx voidElem
        if i < xs.length then
          let poisoned := (lget xs i (.nan, false)).2
          if g.rank s.fabric.mod = d.owner then (s2.judgeDeadline w g d s2.ftNow).voided w g d d.owner s2.ftNow i poisoned
          else s2.sendNotice w g d.owner 0x20 (wd (at_ i 32 0 + flag poisoned 32)) 0
        else s2.contribute w g d false
    | _, _ => s
  | _, _ => s

/-- Every bucket sends what it can. -/
def State.flushBuckets (s : State) : State := (s.buckets.map fun b => b.pid).foldl State.flushBucket s

/-- A scale pass completes (R343): its exponent is at least −149, and buckets that waited for it send. -/
def State.scaleDone (s : State) (slot n : Nat) (v : List Nat) : State :=
  (s.modScale slot n fun x => { x with exp := some (max (fromTwos 64 (lget v 0 0)) (-149)), inFlight := false }).flushBuckets

/-- A bucket starts: with its scale group's exponent known or its pass in flight at once, otherwise by joining the pass on its
tag, for which it waits (R311, R343). A spilled gradient is read over the fabric first. -/
def State.startBucket (s : State) (w : Work) : RowanEnd × State :=
  let j := w.slot.getD 0
  let d := w.pkt.bdesc
  match s.group j d.grp, s.bucket w.pid, (s.job j).scaleGroup d.sgroup, s.tensorKept j d.grad with
  | some g, some b, some x, some t =>
    let begin_ (s : State) : State := (s.dequeue j d.grp w.pid).modBucket w.pid fun b => { b with started := true }
    let k := fmtBytes d.fmt
    if b.started then (none, s)
    else if !s.rangeFetched w.pid t (d.scOff * k) (128 * d.scUnits * k) then
      (none, if !w.tags.isEmpty then s else if w.failed then s.failMember w .internal (firstOut w.outs).2
        else s.fetchTensor w.dma w.pid t (d.scOff * k) (128 * d.scUnits * k))
    else if x.exp.isSome || x.inFlight then (none, (begin_ s).flushBucket w.pid)
    else if (s.run (scaleTag j d.sgroup)).isSome then (none, s)
    else match s.gradDenied w d d.scOff (128 * d.scUnits) with
    | some s1 => (none, s1)
    | none =>
      let (es, s1) := s.readGrad w d d.scOff (128 * d.scUnits)
      let e := scaleExponent (gradElems d.fmt es)
      ((begin_ s1).modScale j d.sgroup fun x => { x with inFlight := true }).startRun (scaleTag j d.sgroup) j g (.scale j d.sgroup) 1
        [toTwos 64 e]
  | _, _, _, _ => (none, s)

/-- A member receives RETRACT and sends its chunks negated (R343). -/
def opRetractNotice (s : State) : State :=
  s.takeDelivered (s.noticeReady 0x21 false) fun x s => s.onNotice x fun w g d s => s.contribute w g d true

def execRetractNotice (dt : Nat) (s : State) : Host.Outcome State Fault Refusal := run dt opRetractNotice s

/-- A counted member receives RECOLLECT and sends its chunks again (R351). -/
def opRecollectNotice (s : State) : State :=
  s.takeDelivered (s.noticeReady 0x23 false) fun x s => s.onNotice x fun w g d s => s.contribute w g d false

def execRecollectNotice (dt : Nat) (s : State) : Host.Outcome State Fault Refusal := run dt opRecollectNotice s

/-! ## The owner: checks and mean gradients (R351, R352) -/

/-- Every counted contribution is in and every retraction is done. -/
def OwnerSide.settled (o : OwnerSide) (d : BDesc) : Bool :=
  o.closed && (o.members.mapIdx fun i m => (i, m)).all fun x =>
    if o.counted.contains x.1 then x.2.added = d.count else x.2.added = 0 || x.2.added = 2 * d.count

/-- The words of a buffer: its lanes, their residue bytes and the members' counters (R342). -/
def bufferWords (d : BDesc) (n : Nat) : Nat := ceilDiv (9 * d.count + 4 * n) 8

/-- The exact sums that a buffer's words hold. -/
def laneSums (ws : List (Word × Bool)) (count : Nat) : List Int := (ws.take count).map fun w => fromTwos 64 w.1.toNat

/-- The residue byte of a lane. -/
def laneResidue (ws : List (Word × Bool)) (count i : Nat) : Nat := fld (lget ws (count + i / 8) (0, false)).1 (i % 8 * 8) 8

/-- The first word of a buffer that fails the check: it is poisoned, or its lane differs from its residue (R351). -/
def bufferFlaw (ws : List (Word × Bool)) (count : Nat) : Option Nat :=
  (List.range ws.length).find? fun i =>
    (lget ws i (0, false)).2 || (i < count && laneBad (lget ws i (0, false)).1.toNat (laneResidue ws count i))

/-- The DRAM channel that backs a word of the buffer. -/
def State.bufferChannel (s : State) (o : OwnerSide) (i : Nat) : Unit_ :=
  let e := s.pageEntry o.bufTile (o.bufPage + 8 * i / 65536)
  .channel e.tile e.channel

/-- Move the buffer to other physical pages where others are free (R351). [Log entry 84: DEDUCED] -/
def State.moveBuffer (s : State) (slot : Nat) (o : OwnerSide) : State :=
  let old := (List.range o.bufPages).map fun i => s.pageEntry o.bufTile (o.bufPage + i)
  (List.range o.bufPages).foldl (fun s i =>
    match s.choosePhys old (s.allowedTiles slot) o.bufTile (o.bufPage + i) with
    | none => s
    | some e => s.backPage o.bufTile (o.bufPage + i) e) s

/-- Make a re-collection: the buffer on other pages and zero, and every counted member's chunks again (R351). [Log entry 84: DEDUCED] -/
def State.recollect (s : State) (w : Work) (g : Group) (d : BDesc) (o : OwnerSide) : State :=
  let j := w.slot.getD 0
  let me := g.rank s.fabric.mod
  let s1 := (s.moveBuffer j o).zeroRun o.bufTile o.bufPage (65536 * o.bufPages)
  let s2 := (s1.modOwner w.pid fun o =>
      { o with collects := o.collects + 1
               members := o.members.mapIdx fun i m => if o.counted.contains i then { m with added := 0, seen := [] } else m }).modJob j
    fun b => { b with stp := { b.stp with recollect := satInc 16 b.stp.recollect } }
  o.counted.foldl (fun s r => if r = me then s.contribute w g d false else s.sendNotice w g r 0x23 0 0) s2

/-- The mean gradients of exact sums over `n` counted contributions, with their numeric events (R352). -/
def meanOf (sums : List Int) (n p : Nat) (e : Int) : List VRes :=
  sums.map fun q => divRound (.fin (q < 0) q.natAbs (e + 2 - p)) n

/-- A mean gradient row's words, two elements to a word. -/
def meanWords (g : List Nat) (row : Nat) : List OutWord :=
  (List.range 64).map fun i =>
    { addr := i, bits := lget g (128 * row + 2 * i) 0 + lget g (128 * row + 2 * i + 1) 0 * 2 ^ 32, poison := false }

/-- The core on which an owner's mean gradients and optimizer run: the one it ran on before where that is available to the job, otherwise
the first that is (R256, R395). [Log entry 85: DEDUCED] -/
def State.ownerCore (s : State) (slot : Nat) (o : OwnerSide) : Option Nat :=
  let cs := s.available slot false
  if o.mean.isSome && cs.contains o.core then some o.core else cs.head?

/-- The checks pass: the mean gradients are formed on a core of the owner, and their sampled rows kept (R352, R392). -/
def State.formMean (s : State) (w : Work) (g : Group) (o : OwnerSide) (core : Nat) (sums : List Int) (e : Int) : State :=
  let j := w.slot.getD 0
  let qs := meanOf sums o.counted.length g.prec e
  let bits := qs.map fun q => q.bits
  let evs := (qs.mapIdx fun i q => (vresEvents [q]).map fun k =>
    ({ kind := k, vector := true, row := i / 128, col := i % 128 } : NumEv)).flatten
  let s1 := (s.modOwner w.pid fun o => { o with mean := some bits, core := core, replayed := o.collects ≠ 0 }).numEvents w j core false evs
  w.sampled.foldl (fun s u => match u with
    | .mean r => s.capture w u core true (meanWords bits r) (meanWords bits r)
    | _ => s) s1

/-- The owner checks every word of the buffer once the retractions are done (R351); the mean gradients wait for an available core. -/
def opLaneCheck (pid : Nat) (s : State) : State :=
  match s.work pid, (s.bucket pid).bind fun b => b.owner with
  | some w, some o =>
    let j := w.slot.getD 0
    let d := w.pkt.bdesc
    match s.group j d.grp, ((s.job j).scaleGroup d.sgroup).bind fun x => x.exp, s.ownerCore j o with
    | some g, some e, some core =>
      if !o.settled d || o.mean.isSome then s
      else
        let (ws, s1) := s.finishMoves.readWords o.bufTile o.base w.dma (bufferWords d g.size)
        match bufferFlaw ws d.count with
        | none => s1.formMean w g o core (laneSums ws d.count) e
        | some i =>
          let s2 := s1.recordEvent (s1.bufferChannel o i) 8 j 8 w.pkt.seq
          if o.collects = 0 then s2.recollect w g d o else s2.failBucket w g d o .checkMismatch 0x0170
    | _, _, _ => s
  | _, _ => s

def execLaneCheck (dt pid : Nat) (s : State) : Host.Outcome State Fault Refusal := run dt (opLaneCheck pid) s

/-! ## The optimizer (R353, R354, R189, R379) -/

/-- An admitted gather still reads the PARAM copy that the optimizer writes (R189, R353). -/
def State.gatherReads (s : State) (slot : Nat) (h : Shard) : Bool :=
  let j := s.job slot
  let r := j.retain
  s.works.any fun w =>
    let d := w.pkt.cdesc
    w.slot == some slot && (w.pkt.opcode == 0x54 || w.pkt.opcode == 0x55) && d.param && handleNum d.src == h.param
      && d.gen != j.step && d.gen % (r + 1) == j.step % (r + 1)

/-- The argument of number `i` of an optimizer's binding (R353); argument 1 is no tensor. -/
def State.optArg (s : State) (slot : Nat) (h : Shard) (shOff i : Nat) : VArg × Option Tensor :=
  let r := (s.job slot).retain
  let g := (s.job slot).stp.gen
  let g' := (s.job slot).step
  let n := h.states
  let tk (k : Nat) : Option Tensor := s.tensors.find? fun t => t.num == k && t.slot == slot
  let arg (k base fmt : Nat) : VArg × Option Tensor := ({ handle := 0, stride := 128, fmt := fmt, base := base }, tk k)
  if i = 2 then arg h.master (h.masterAt g / 4 + shOff) 2
  else if i = 3 then arg h.master (h.masterAt g' / 4 + shOff) 2
  else if i = 4 then arg h.param (h.paramAt r g' / fmtBytes h.pfmt + shOff) h.pfmt
  else if 5 ≤ i && i < 5 + n then arg h.state (h.stateAt g (i - 5) / 4 + shOff) 2
  else if 5 + n ≤ i && i < 5 + 2 * n then arg h.state (h.stateAt g' (i - 5 - n) / 4 + shOff) 2
  else if 5 + 2 * n ≤ i then ({ handle := 0, stride := 0, fmt := 2 }, tk (lget h.hyper (i - 5 - 2 * n) 0))
  else ({ handle := 0, stride := 128, fmt := 2 }, none)

/-- The argument count (R353). -/
def Shard.argCount (h : Shard) : Nat := 5 + 2 * h.states + h.hyper.length

/-- What a row of the optimizer runs with. A silent error's `row` is the row times the program's length, plus the
instruction. -/
def State.optCtx (s : State) (w : Work) (h : Shard) (d : BDesc) (mean : List Nat) (core row len : Nat) (errs : List SilentErr) : VCtx :=
  { w := w, args := (List.range h.argCount).map fun i => s.optArg (w.slot.getD 0) h d.shOff i, cols := 128, row := row, core := core
    errs := (errs.filter fun e => e.row / len = row).map fun e => { e with row := e.row % len }, mean := some mean }

/-- The shard of a bucket on its owner. -/
def State.bucketShard (s : State) (w : Work) (d : BDesc) : Option Shard :=
  (s.tensorKept (w.slot.getD 0) d.shard).bind fun t => s.shardOf (w.slot.getD 0) t.num

/-- The word ranges that the optimizer reads and writes over a bucket's shard range. -/
def State.optRanges (s : State) (w : Work) (h : Shard) (d : BDesc) : List (Nat × Nat) × List (Nat × Nat) :=
  let n := h.states
  let rng (i : Nat) : List (Nat × Nat) :=
    match s.optArg (w.slot.getD 0) h d.shOff i with
    | (a, some t) => s.rangeKeys t (a.base * fmtBytes a.fmt) (d.count * fmtBytes a.fmt)
    | _ => []
  (([2] ++ (List.range n).map fun k => 5 + k).flatMap rng, ([3, 4] ++ (List.range n).map fun k => 5 + n + k).flatMap rng)

/-- The ranges that an optimizer reads, its program among them. [Log entry 121: DEDUCED] -/
def State.optReads (s : State) (w : Work) (h : Shard) (d : BDesc) : List (Tensor × Nat × Nat) :=
  let j := w.slot.getD 0
  let rng (i : Nat) : List (Tensor × Nat × Nat) :=
    match s.optArg j h d.shOff i with
    | (a, some t) => [(t, a.base * fmtBytes a.fmt, (if a.stride = 0 then 128 else d.count) * fmtBytes a.fmt)]
    | _ => []
  (([2] ++ (List.range h.states).map (fun k => 5 + k) ++ (List.range h.hyper.length).map fun k => 5 + 2 * h.states + k).flatMap rng)
    ++ ((s.tensors.find? fun t => t.num == h.prog && t.slot == j).map fun t => (t, 0, t.bytes)).toList

/-- The optimizer starts on an available core: its program is read whole (R353, R538); it waits for gathers and for a shadow copy under
STALL, and ends one under SKIP (R189, R379). [Log entry 85: DEDUCED] -/
def opOptimizerStart (pid : Nat) (s : State) : State :=
  match s.work pid, (s.bucket pid).bind fun b => b.owner with
  | some w, some o =>
    let j := w.slot.getD 0
    let d := w.pkt.bdesc
    match s.group j d.grp, s.bucketShard w d, s.ownerCore j o with
    | some g, some h, some core =>
      if o.mean.isNone || o.program.isSome || s.gatherReads j h then s
      else if s.copyInWay j && (s.job j).shadow.stall then s
      else if w.failed then s.failBucket w g d o .internal (firstOut w.outs).2
      else match s.fetchRanges (w.ctx core) (s.optReads w h d) with
      | some s1 => s1
      | none =>
        let s0 := s.finishMoves
        let s1 := if s0.copyInWay j then s0.endCopy j else s0
        match s1.tensors.find? fun t => t.num == h.prog && t.slot == j with
        | none => s1.failBucket w g d o .internal 0x0118
        | some t => match s1.tensorCheck (w.ctx core) .read t t.bytes with
        | some (r, f) => (s1.logRes (w.ctx core) r t.tile f (s1.globalAddr t.tile f)).failBucket w g d o .internal r.status.2
        | none =>
          let q := s1.steer t core t.bytes (w.ctx core)
          if q.bad then q.st.failBucket w g d o .checkMismatch 0x0140
          else if t.bytes % 16 ≠ 0 || t.bytes < 16 || 16384 < t.bytes || !vprogramOk h.argCount q.words || !vreduceOk h.argCount (vprogram q.words) then
            q.st.failBucket w g d o .internal 0x0118
          else
            let (reads, writes) := q.st.optRanges w h d
            (q.st.modOwner pid fun o => { o with program := some q.words, core := core, replayed := o.replayed || q.reread }).beginWrote w reads writes
    | _, _, _ => s
  | _, _ => s

def execOptimizerStart (dt pid : Nat) (s : State) : Host.Outcome State Fault Refusal := run dt (opOptimizerStart pid) s

/-- The rows of an optimizer run: the state after them, whether one was replayed, and the failures. -/
def State.optRows (s : State) (w : Work) (h : Shard) (d : BDesc) (o : OwnerSide) (words : List Word) (errs : List SilentErr) :
    List Nat → State × Bool × List (Status × Nat)
  | [] => (s, false, [])
  | r :: t =>
    let is := vprogram words
    let x := s.optCtx w h d (o.mean.getD []) o.core r is.length errs
    let (v, replayed, poisoned) := s.runRow x (w.ctx o.core) is
    let s1 := v.r.st.numEvents w (w.slot.getD 0) o.core false v.evs
    let s2 := if w.sampled.contains (.row r) && v.r.fail.isNone then
        let keys := s.rowKeys x is
        s1.capture w (.row r) o.core true (s1.captureKeys keys) (((s.runRow { x with errs := [] } (w.ctx o.core) is).1.r.st).captureKeys keys)
      else s1
    let s3 := match v.r.fail with
      | some f => s2.logRes (w.ctx o.core) f.1 f.2.1 f.2.2 (s2.globalAddr f.2.1 f.2.2)
      | none => s2
    let fail := match v.r.fail with
      | some f => [(Status.internal, f.1.status.2)]
      | none => if poisoned then [(Status.checkMismatch, 0x0140)] else []
    let (s4, rep, f) := s3.optRows w h d o words errs t
    (s4, replayed || rep, fail ++ f)

/-- What an optimizer ran with, kept with the note of what it wrote (R396). -/
def State.keepOwner (s : State) (pid : Nat) (o : OwnerSide) : State :=
  let kept : OwnerSide := { o with members := [] }
  { s with rel := { s.rel with wrote := updAll (fun e : Wrote => e.work.pid == pid) (fun e => { e with owner := some kept }) s.rel.wrote } }

/-- The optimizer finishes on an available core: the mask, OUTCOME and the reply follow (R354). [Log entry 85: DEDUCED] -/
def opOptimizerDone (pid : Nat) (errs : List SilentErr) (s : State) : State :=
  match s.work pid, (s.bucket pid).bind fun b => b.owner with
  | some w, some o =>
    let j := w.slot.getD 0
    let d := w.pkt.bdesc
    match s.group j d.grp, s.bucketShard w d, o.program, s.ownerCore j o with
    | some g, some h, some words, some core =>
      let o1 := { o with core := core }
      let (s1, replayed, fs) := s.finishMoves.optRows w h d o1 words errs (List.range (d.count / 128))
      ((s1.endWrote w).keepOwner pid o1).endBucket w g d
        { o1 with failed := argMin (fun f : Status × Nat => f.1.rank) fs, replayed := o.replayed || replayed }
    | _, _, _, _ => s
  | _, _ => s

def execOptimizerDone (dt pid : Nat) (errs : List SilentErr) (s : State) : Host.Outcome State Fault Refusal := run dt (opOptimizerDone pid errs) s

/-! ## OUTCOME at a member (R354, R371) -/

/-- The status that a code stands for in an OUTCOME. -/
def outcomeStatus (c : Nat) : Status :=
  if c = 0x51 then .poisonedContribution else if c = 0x60 then .checkMismatch else if c = 0x7F then .internal
  else if c = 0x61 then .replayedOk else if c = 0x50 then .lateExcluded else .done

/-- A member receives OUTCOME and replies with the owner's status and count (R354). [Log entry 83: DEDUCED] -/
def opOutcomeNotice (s : State) : State :=
  s.takeDelivered (s.noticeReady 0x22 false) fun x s => s.onNotice x fun w g d s =>
    let (w1, w2) := noticeWords x.msg
    let st := outcomeStatus (fld w1 33 8)
    let k := fld w1 41 13
    let detail := if st = .checkMismatch then 0x0170 else if st ≠ .internal then 0 else if noticeByReset x.msg then 0x0010 else if k < d.min_ then 0x0170 else 0
    let j := w.slot.getD 0
    (s.raiseOutcome j st detail k g.size w2.toNat).endMember w st detail k

def execOutcomeNotice (dt : Nat) (s : State) : Host.Outcome State Fault Refusal := run dt opOutcomeNotice s

end Sys2Proof.Machine
end

