-- ==== Sys2Proof/Machine/Sampling.lean ====
section
/-! DEFINITION. Sampled recomputation: the drawing of units, the comparisons, suspect cores and re-runs (14_reliability.md R392 to
R398). -/

namespace Sys2Proof.Machine

/-! ## Drawing units (R392) -/

/-- The sample units of a packet, an IGR_BUCKET on its owner among them. -/
def Packet.sampleUnits (p : Packet) (owner : Bool) : List SampleUnit :=
  let op := p.opcode
  if isProduct op then
    let d := p.prod
    if d.verify then [] else
      (List.range (ceilDiv d.m 64)).flatMap fun r => (List.range d.tileCols).map fun c => .tile r c
  else if op = 0x35 then (List.range (fld (p.pay 0) 0 32)).map fun r => .row r
  else if op = 0x33 || op = 0x34 then
    let k := p.kern
    (List.range k.rows).map (fun r => .row r) ++ (if k.dgam ≠ 0 || k.dbet ≠ 0 then [.params] else [])
  else if op = 0x36 then [.result]
  else if owner then
    (List.range (p.bdesc.count / 128)).flatMap fun r => [.mean r, .row r]
  else []

/-- Draw once from the sampling generator: selected with probability 2^−SAMPLE_LOG2. [Log entry 25: DESIGN CHOICE] -/
def State.drawOne (s : State) : Bool × State :=
  (Config.sampleDraw s.boot.resets s.rel.draws % 2 ^ s.rel.log2 == 0, { s with rel := { s.rel with draws := s.rel.draws + 1 } })

/-- Select units independently. -/
def State.drawUnits (s : State) : List SampleUnit → List SampleUnit × State
  | [] => ([], s)
  | u :: t =>
    let (hit, s1) := s.drawOne
    let (r, s2) := s1.drawUnits t
    (if hit then u :: r else r, s2)

/-- The units selected of a packet; none while SAMPLE_EN is 0. -/
def State.drawSamples (s : State) (p : Packet) (owner : Bool) : List SampleUnit × State :=
  if s.rel.sampleEn then s.drawUnits (p.sampleUnits owner) else ([], s)

/-! ## The elements and words of a unit -/

/-- The note of what a packet of the present step wrote. -/
def State.wroteOf (s : State) (pid : Nat) : Option Wrote := s.rel.wrote.find? fun e => e.work.pid == pid

/-- The elements of a row of a program: lane, tensor, first byte and bytes. -/
def VCtx.rowElems (x : VCtx) (is : List VIns) : List (Nat × Tensor × Nat × Nat) :=
  (x.outputs is).flatMap fun (a, t, n) =>
    let k := fmtBytes a.fmt
    (List.range n).map fun c => (c % 128, t, (a.base + x.row * a.stride + c) * k, k)

/-- What a row of an owner's optimizer ran with, and its program. -/
def State.optRowCtx (s : State) (e : Wrote) (r core : Nat) : Option (VCtx × List VIns) :=
  match s.bucketShard e.work e.work.pkt.bdesc, e.owner with
  | some h, some o =>
    let is := vprogram (o.program.getD [])
    some (s.optCtx e.work h e.work.pkt.bdesc (o.mean.getD []) core r is.length [], is)
  | _, _ => none

/-- The elements of a sample unit that lie in tensors. -/
def State.unitElems (s : State) (e : Wrote) (u : SampleUnit) : List (Nat × Tensor × Nat × Nat) :=
  let w := e.work
  let op := w.pkt.opcode
  match u with
  | .tile row col =>
    match s.prodTensors w with
    | none => []
    | some t =>
      let k := fmtBytes (ffFormat t.d.fc) * (if t.d.cplx then 2 else 1)
      ((List.range (min 64 (t.d.m - 64 * row))).map fun i => 64 * row + i).flatMap fun m =>
        (t.d.itemCols col).map fun n => (n % 64, t.c, (m * t.d.n + n) * k, k)
  | .row r =>
    if op = 0x35 then (s.vctx w r 0 []).rowElems (vprogram w.mask)
    else if op = 0x59 then ((s.optRowCtx e r 0).map fun x => x.1.rowElems x.2).getD []
    else match s.kernTensors w with
      | none => []
      | some t =>
        let k := fmtBytes t.k.fdx
        (List.range t.k.cols).map fun c => (c % 128, t.dx, (r * t.k.cols + c) * k, k)
  | .params =>
    match s.kernTensors w with
    | none => []
    | some t => (t.dgam.toList ++ t.dbet.toList).flatMap fun u => (List.range t.k.cols).map fun c => (c % 128, u, 4 * c, 4)
  | .result | .mean _ => []

/-- The word key and the byte within it of a tensor's byte as a packet wrote it. -/
def State.byteKey (s : State) (pid : Nat) (t : Tensor) (off : Nat) : Option (Nat × Nat) :=
  (s.outKey pid t off).map fun k => (k, ((t.spill.map fun a => a.toNat).getD t.off + off) % 8)

/-- The word keys of a unit. -/
def State.unitKeys (s : State) (e : Wrote) (u : SampleUnit) : List (Nat × Nat) :=
  let elems := ((s.unitElems e u).flatMap fun (_, t, o, n) =>
    ((s.byteKey e.work.pid t o).toList ++ (s.byteKey e.work.pid t (o + n - 1)).toList).map fun k => (k.1, k.1 + 1)).eraseDups
  match u, s.prodTensors e.work with
  | .tile r c, some t => s.tileKeys t e.work.pid r c
  | _, _ => elems

/-- A byte among captured words. -/
def wordByte (ws : List OutWord) (k : Option (Nat × Nat)) : Option Nat :=
  k.bind fun k => (ws.find? fun w => w.addr == k.1).map fun w => nfld w.bits (8 * k.2) 8

/-- The lanes on which two results of a unit differ. -/
def State.diffLanes (s : State) (e : Option Wrote) (u : SampleUnit) (a b : List OutWord) : List Nat :=
  match u with
  | .mean _ =>
    ((List.range 128).filter fun c =>
      nfld (lget a (c / 2) { addr := 0, bits := 0, poison := false }).bits (32 * (c % 2)) 32
        != nfld (lget b (c / 2) { addr := 0, bits := 0, poison := false }).bits (32 * (c % 2)) 32)
  | _ =>
    match e with
    | none => []
    | some e =>
      (((s.unitElems e u).filter fun (_, t, o, n) =>
        (List.range n).any fun i => wordByte a (s.byteKey e.work.pid t (o + i)) != wordByte b (s.byteKey e.work.pid t (o + i))).map fun x => x.1).eraseDups

/-! ## Comparisons (R393 to R395) -/

/-- What a core computes for a unit with silent errors: `row` names the word of the unit, and the difference enters its bits. -/
def withErrs (ws : List OutWord) (errs : List SilentErr) : List OutWord :=
  let delta (i : Nat) : Int := ((errs.filter fun (e : SilentErr) => e.row == i).map fun (e : SilentErr) => e.delta).foldl (· + ·) 0
  ws.mapIdx fun i w => { w with bits := (((w.bits : Int) + delta i) % 2 ^ 64).toNat }

/-- A sample by its number. -/
def State.sample (s : State) (id : Nat) : Option Sample := s.rel.samples.find? fun x => x.id == id

/-- Change a sample. -/
def State.modSample (s : State) (id : Nat) (f : Sample → Sample) : State :=
  { s with rel := { s.rel with samples := updFirst (fun x => x.id == id) f s.rel.samples } }

/-- A sampled unit is settled. -/
def State.dropSample (s : State) (id : Nat) : State :=
  { s with rel := { s.rel with samples := dropFirst (fun x => x.id == id) s.rel.samples } }

/-- The core is available to the job for a sampled computation, runs no item, and lies on a tile that none of `tiles` is (R393, R394). -/
def State.canSample (s : State) (x : Sample) (core : Nat) (tiles : List Nat) : Bool :=
  (s.available x.slot (!x.vector)).contains core && !s.busy core && !tiles.contains (core / 16)

/-- An event of a sampled mismatch against a core: its array for product work (R121, R394, R404). -/
def State.sampleEvent (s : State) (x : Sample) (core : Nat) (lanes : List Nat) : State :=
  let seq := (((s.wroteOf x.pid).map fun e => e.work).orElse fun _ => s.work x.pid).map (fun w => w.pkt.seq) |>.getD 0
  let s1 := match x.unit with
    | .tile row _ => s.recordEvent (.array core (row % 4)) 5 x.slot (2 + at_ (match lanes with | [l] => l | _ => 64) 7 4) seq
    | _ => s.recordEvent (.core core) 5 x.slot (3 + at_ (match lanes with | [l] => l | _ => 128) 8 4) seq
  s1.suspectUpdate core true

/-- A recomputation finishes (R393): equal results settle the unit. -/
def opRecomputeDone (id core : Nat) (errs : List SilentErr) (s : State) : State :=
  match s.sample id with
  | none => s
  | some x =>
    if x.stage ≠ 1 || !s.canSample x core [x.core / 16] then s
    else
      let r := withErrs x.sound errs
      if r = x.orig then s.dropSample id
      else
        ({ s with rel := { s.rel with mismatches := satInc 16 s.rel.mismatches } } : State).modSample id fun x =>
          { x with second := r, core2 := core, stage := 2 }

def execRecomputeDone (dt sample core : Nat) (errs : List SilentErr) (s : State) : Host.Outcome State Fault Refusal :=
  runPart "core" core 512 dt (opRecomputeDone sample core errs) s

/-- The result of a sampled unit is replaced: stored words, REDUCE_MAXMIN's result, or a row of mean gradients. -/
def State.replaceUnit (s : State) (x : Sample) (ws : List OutWord) : State :=
  match x.unit with
  | .result =>
    match ((s.wroteOf x.pid).map fun e => e.work).orElse fun _ => s.work x.pid with
    | none => s
    | some w => s.writeResult w (w.ctx x.core2) (w.pkt.par 1) (ws.flatMap fun v => wordBytes (wd v.bits)) (ws.any fun v => v.poison)
  | .mean r =>
    let half (i : Nat) : Nat := nfld (lget ws (i / 2) { addr := 0, bits := 0, poison := false }).bits (32 * (i % 2)) 32
    let put (o : OwnerSide) : OwnerSide :=
      { o with mean := o.mean.map fun g => g.mapIdx fun i v => if i / 128 = r then half (i % 128) else v }
    let s1 := s.modOwner x.pid put
    let kept := updAll (fun e : Wrote => e.work.pid == x.pid) (fun e => { e with owner := e.owner.map put }) s1.rel.wrote
    { s1 with rel := { s1.rel with wrote := kept } }
  | _ => s.restoreWords ws

/-- A core becomes suspect: it takes no new item of any job (R395). -/
def State.makeSuspect (s : State) (core : Nat) : State :=
  let s1 := if s.rel.suspects.contains core || s.retired (.core core) then s
    else { s with rel := { s.rel with suspects := s.rel.suspects ++ [core] } }
  s1.handOver fun _ i => i.core == some core

/-- The third computation decides (R394). -/
def opThirdComputeDone (id core : Nat) (errs : List SilentErr) (s : State) : State :=
  match s.sample id with
  | none => s
  | some x =>
    if x.stage ≠ 2 || !s.canSample x core [x.core / 16, x.core2 / 16] then s
    else
      let r := withErrs x.sound errs
      let lanes := s.diffLanes (s.wroteOf x.pid) x.unit x.orig x.second
      if r = x.orig then
        (({ s with rel := { s.rel with samplerFaults := satInc 16 s.rel.samplerFaults } } : State).sampleEvent x x.core2 lanes).dropSample id
      else if r = x.second then
        (((s.replaceUnit x r).sampleEvent x x.core lanes).makeSuspect x.core).modSample id fun x =>
          { x with stage := 3, decidedAt := s.ftNow }
      else
        (((s.raise x.slot .checkMismatch 0x0192).sampleEvent x x.core []).sampleEvent x x.core2 []).dropSample id

def execThirdComputeDone (dt sample core : Nat) (errs : List SilentErr) (s : State) : Host.Outcome State Fault Refusal :=
  runPart "core" core 512 dt (opThirdComputeDone sample core errs) s

/-! ## Re-runs (R396, R397) -/

/-- The packet's work as it now stands: of one still running, its work; of one that has replied, the work kept. -/
def State.liveWork (s : State) (e : Wrote) : Work := (s.work e.work.pid).getD e.work

/-- The units of a packet that a core ran, or all of them. -/
def State.rerunUnits (s : State) (e : Wrote) (core : Nat) (whole : Bool) : List SampleUnit :=
  let w := s.liveWork e
  let op := w.pkt.opcode
  let mine := w.items.filter fun i => i.finished && !i.skipped && (whole || i.ran == core)
  if isProduct op then
    (mine.flatMap fun i => ((List.range 4).filter fun r => 64 * (4 * i.g + r) < w.pkt.prod.m).map fun r =>
      SampleUnit.tile (4 * i.g + r) i.n).eraseDups
  else if op = 0x35 then mine.map fun i => .row i.num
  else if op = 0x33 || op = 0x34 then
    mine.map (fun i => SampleUnit.row i.num) ++ (if mine.isEmpty || (w.pkt.kern.dgam = 0 && w.pkt.kern.dbet = 0) then [] else [.params])
  else if op = 0x36 then (if mine.isEmpty then [] else [.result])
  else match e.owner with
    | some o => if whole || o.core = core then (List.range (w.pkt.bdesc.count / 128)).map fun r => .row r else []
    | none => []

/-- Rows of an owner's optimizer, run again. -/
def State.rerunOpt (s : State) (e : Wrote) (g : Nat) : List SampleUnit → State
  | .row r :: t =>
    match s.optRowCtx e r g with
    | none => s
    | some (x, is) => ((s.runRow x (e.work.ctx g) is).1.r.st).rerunOpt e g t
  | _ :: t => s.rerunOpt e g t
  | [] => s

/-- Units of a packet run again soundly, on inputs as they were (R139, R393). -/
def State.rerunScratch (s : State) (e : Wrote) (w : Work) (g : Nat) (us : List SampleUnit) : State :=
  let s0 := s.restoreWords e.before
  let op := w.pkt.opcode
  let x := w.ctx g
  if isProduct op then match s0.prodTensors w with
    | none => s0
    | some t => s0.writeProduct t (s0.recompute t w fun i => us.any fun u => match u with
        | .tile r c => r / 4 == i.g && c == i.n
        | _ => false) true
  else if op = 0x35 then us.foldl (fun s u => match u with
    | .row r => (s.runRow (s.vctx w r g []) x (vprogram w.mask)).1.r.st
    | _ => s) s0
  else if op = 0x33 || op = 0x34 then match s0.kernTensors w with
    | none => s0
    | some t => us.foldl (fun s u => match u with
        | .row r => (({ st := s, core := g, x := x } : Rdr).kernWrite w t r g [] (w.items.any fun i => i.num == r && i.poisoned)).2.st
        | .params => s.writeParams w t g []
        | _ => s) s0
  else s0.rerunOpt e g us

/-- The items of re-run units have run on another core since, with sound sums. -/
def Work.reran (w : Work) (s : State) (us : List SampleUnit) (g : Nat) : Work :=
  let hit (i : Item) : Bool := i.finished && us.any fun u => match u with
    | .tile r c => r / 4 == i.g && c == i.n
    | .row r => !isProduct w.pkt.opcode && r == i.num
    | .result => true
    | _ => false
  let w1 := if isProduct w.pkt.opcode then match s.prodTensors w with
      | none => w
      | some t => s.recompute t w hit
    else w
  { w1 with items := updAll hit (fun i => { i with ran := g }) w1.items }

/-- Re-run units are themselves subject to sampling (R396). -/
def State.resample (s : State) (e : Wrote) (w : Work) (g : Nat) (us : List SampleUnit) : State :=
  if !s.rel.sampleEn || (isProduct w.pkt.opcode && w.pkt.prod.verify) then s
  else
    let (hit, s1) := s.drawUnits us
    hit.foldl (fun s u =>
      let ws := s.captureKeys (s.unitKeys e u)
      s.capture w u g (!isProduct w.pkt.opcode) ws ws) s1

/-- One packet's units run again and replace their outputs. A product that has not written its results keeps the new sums.
[Log entry 94: DEDUCED] -/
def State.rerunOne (s : State) (e : Wrote) (us : List SampleUnit) (keys : List (Nat × Nat)) : State :=
  let w := s.liveWork e
  let op := w.pkt.opcode
  let live := (s.work w.pid).isSome
  let g := (s.available e.slot (isProduct op)).headD 0
  let note (s : State) : State :=
    let w' := w.reran (s.restoreWords e.before) us g
    let s1 := { s with rel := { s.rel with wrote := updAll (fun f : Wrote => f.work.pid == w.pid) (fun f => { f with work := w' }) s.rel.wrote } }
    if live then (s1.modWork w.pid fun v => { v with items := w'.items }).noteReplay w.pid else s1
  if op = 0x12 then s.doCopy w []
  else if op = 0x14 then
    match s.tensorKept e.slot (w.pkt.par 0), s.tensorKept e.slot (w.pkt.par 1) with
    | some a, some b => s.doTranspose w a b
    | _, _ => s
  else if op = 0x36 then
    match s.tensorKept e.slot (w.pkt.par 0) with
    | none => s
    | some t =>
      let (ws, _, r) := ({ st := s, core := g, x := w.ctx g } : Rdr).reduceAll w t []
      note (s.writeResult w (w.ctx g) (w.pkt.par 1) (ws.flatMap wordBytes) (!r.bad.isEmpty))
  else if isProduct op && live then note s
  else
    let words := (s.rerunScratch e w g us).captureKeys keys
    (note (s.restoreWords words)).resample e w g us

/-- The packet writes a tensor that lies on a spill module: its results have left this module (R246, R397). -/
def State.writesSpilled (s : State) (w : Work) : Bool := (s.footprint w).2.any fun t => t.1.spill.isSome

/-- The storage of a packet's operands is still there. -/
def State.operandsKept (s : State) (w : Work) : Bool :=
  let op := w.pkt.opcode
  if isProduct op then (s.prodTensors w).isSome
  else if op = 0x33 || op = 0x34 then (s.kernTensors w).isSome
  else if op = 0x35 then (List.range ((w.pkt.par 1).toNat - 1)).all fun i => (s.tensorKept (w.slot.getD 0) (w.pkt.varg (i + 1)).handle).isSome
  else true

/-- The re-runs of a job's step after a core became suspect, in dispatch order (R396): whether any was needed, why the step
cannot be repaired (R397), and the state after them. [Log entry 94: DEDUCED] -/
def State.rerunList (core : Nat) : List Wrote → List (Nat × Nat) → State → Bool × Option Nat × State
  | [], _, s => (false, none, s)
  | e :: t, changed, s =>
    let whole := rangesMeet e.reads changed
    let us := s.rerunUnits e core whole
    if !whole && us.isEmpty then rerunList core t changed s
    else
      let w := s.liveWork e
      let keys := if us.isEmpty then e.writes else us.flatMap (s.unitKeys e)
      if s.writesSpilled w || rangesMeet e.sent keys || isCollective w.pkt.opcode && !w.pkt.declares && e.owner.isNone then
        (true, some 0x0190, s)
      else if !s.operandsKept w || t.any (fun f => rangesMeet f.writes keys) then (true, some 0x0191, s)
      else
        let (_, f, s1) := rerunList core t (changed ++ keys) (s.rerunOne e us keys)
        (true, f, s1)

/-- An owner whose mean gradients a suspect core formed goes on with another core. -/
def State.moveOwners (s : State) (slot core : Nat) : State :=
  let g := (s.available slot false).headD core
  (s.buckets.filter fun b => b.slot == slot).foldl (fun s b => match b.owner with
    | some o => if o.core = core && o.mean.isSome then (s.modOwner b.pid fun o => { o with core := g, replayed := true }) else s
    | none => s) s

/-- The re-runs of one job. -/
def State.rerunJob (s : State) (core decided own : Nat) (slot : Nat) : State :=
  let (any, f, s1) := State.rerunList core (s.rel.wrote.filter fun e => e.slot == slot) [] s
  let s2 := s1.moveOwners slot core
  let s3 := if any || slot = own then s2.raiseAt slot .replayedOk decided 0 else s2
  match f with
  | some d => s3.raise slot .checkMismatch d
  | none => s3

/-- The re-runs after a wrong original finish, once the suspect core holds no started item (R396). -/
def opRerunDone (id : Nat) (s : State) : State :=
  match s.sample id with
  | none => s
  | some x =>
    if x.stage ≠ 3 || s.busy x.core || (s.available x.slot (!x.vector)).isEmpty then s
    else ((List.range 4).foldl (fun s j => if (s.job j).opened then s.rerunJob x.core x.decidedAt x.slot j else s) s.finishMoves).dropSample id

def execRerunDone (dt sample : Nat) (s : State) : Host.Outcome State Fault Refusal := run dt (opRerunDone sample) s

end Sys2Proof.Machine
end

