-- ==== Sys2Proof/Machine/Time.lean ====
section
/-! DEFINITION. Fabric Time: the FTSYNC input, time messages and transfers, the lock states, and the reference
(02_fabric_time.md R27 to R37, 19_register_map.md R530, R531). -/

namespace Sys2Proof.Machine

/-- One millisecond of FT in picoseconds. -/
def msPs : Nat := 1000000000

/-- Change the Fabric Time block. -/
def State.modFt (s : State) (f : FtBlock → FtBlock) : State := { s with ft := f s.ft }

/-- FT counts, and the module is powered and out of reset. -/
def State.ftRuns (s : State) : Bool := s.ft.state != .unset && s.boot.powered && !s.boot.inReset

/-- UNSYNCED (R37, R530): the bound exceeds 25 ns, is not known, or the module stays out of lock. -/
def FtBlock.unsynced (f : FtBlock) : Bool :=
  f.outOfLock || f.state = .unset || f.state = .acquiring || 25000 < f.boundPs

/-- FT_ERR_BOUND (R530). -/
def FtBlock.boundNs (f : FtBlock) : Nat :=
  if f.state = .unset || f.state = .acquiring then 2 ^ 32 - 1 else min (2 ^ 32 - 1) ((f.boundPs + 999) / 1000)

/-- FT is at a multiple of `period` ns: a booked happening begins at most 100 ns after its FT (R43). [Log entry 32: DEDUCED] -/
def State.onGrid (s : State) (period : Nat) : Bool := s.ftNow % period ≤ 100

/-! ## FTSYNC (R30) -/

/-- The signed distance from an FT in ps to the nearest millisecond boundary. -/
def msOffset (ps : Int) : Int := let r := ps % msPs; if 2 * r < msPs then -r else msPs - r

/-- A rising edge, `errPs` ps after the present FT. -/
def opFtsyncEdge (errPs : Int) (s : State) : State :=
  if !s.ftRuns then s
  else
    let o := msOffset ((s.ft.ps : Int) + errPs)
    if o.natAbs ≤ 500000 then s.modFt fun f => { f with edgePs := some o }
    else s.modFt fun f => { f with rejected := satInc 16 f.rejected }

def execFtsyncEdge (dt : Nat) (errPs : Int) (s : State) : Host.Outcome State Fault Refusal := run dt (opFtsyncEdge errPs) s

/-! ## Time messages and transfers (R31, R35) -/

def isTimeMessage (m : Msg) : Bool := match m.ctl with | .time _ _ => true | _ => false

/-- A time message counts: the fabric manager or a neighbour that is locked sent it (R35). -/
def timeTrusted : TimeFrom → Bool
  | .manager => true
  | .neighbour locked => locked

/-- An FT value arrives in a VC0 time message: an UNSET module with its reference steps to it once (R35). -/
def opTimeMessage (s : State) : State :=
  s.takeDelivered isTimeMessage fun d s =>
    match d.msg.ctl with
    | .time t src =>
      if s.ft.state = .unset && s.ft.refPresent && timeTrusted src then
        s.modFt fun f => { f with state := .acquiring, ps := 1000 * t, source := .none, quiet := 0, silentMs := 3, edgePs := none
                                  slewPs := 0, slewRem := 0, drift := [] }
      else s
    | _ => s

def execTimeMessage (dt : Nat) (s : State) : Host.Outcome State Fault Refusal := run dt opTimeMessage s

/-- The neighbour's FT minus this module's, from the four stamps in ps (R31): sent and received outbound, sent and received
inbound, with the asymmetry taken out. -/
def transferOffset (t1 t2 t3 t4 : Nat) (asym : Int) : Int :=
  (((t2 : Int) - t1) + ((t3 : Int) - t4) - asym) / 2

/-- What names a time-transfer message (R31): the four stamps in ns, as far as they are given by then, and what an answer says of the
neighbour. -/
structure Exchange where
  t1     : Nat
  t2     : Nat
  t3     : Nat
  t4     : Nat
  locked : Bool
  hops   : Nat
  deriving DecidableEq, Repr, Inhabited

/-- A time-transfer message that arrived on a link: the request of an exchange, stamped t2 by this module's FT, or its answer, stamped t4. -/
def isTransfer (l : Nat) (e : Exchange) (d : Delivered) : Bool :=
  d.link == l && match d.msg.ctl with
    | .xferReq t1 => t1 == e.t1 && d.stamp == e.t2
    | .xferAns t1 t2 t3 locked hops =>
      t1 == e.t1 && t2 == e.t2 && t3 == e.t3 && d.stamp == e.t4 && locked == e.locked && hops == e.hops
    | _ => false

/-- How many hops this module is from one that uses its own FTSYNC (R32). -/
def State.syncHops (s : State) : Nat := if s.ft.source = .ownSync then 0 else (vget s.ft.links s.ft.srcLink).hops + 1

/-- Ask the neighbour on a link for a time transfer: the message carries the FT it leaves with (R31). -/
def State.askTransfer (s : State) (l : Nat) : State := s.sendPeer l { s.blank .control 0 with ctl := .xferReq s.ftNow }

/-- The answer to a neighbour's time-transfer message (R31). -/
def State.answerTransfer (s : State) (l t1 t2 : Nat) : State :=
  s.sendPeer l { s.blank .control 0 with ctl := .xferAns t1 t2 s.ftNow (s.ft.state = .locked) s.syncHops }

/-- The offset to the neighbour on a link, from a completed time-transfer pair (R31). -/
def State.measure (s : State) (l t1 t2 t3 t4 : Nat) (locked : Bool) (hops : Nat) : State :=
  s.modFt fun f => { f with links := vmod f.links l fun k =>
    { k with offsetPs := transferOffset (1000 * t1) (1000 * t2) (1000 * t3) (1000 * t4) k.asymPs, measured := true, at_ := s.uptime
             peerLocked := locked, hops := hops } }

/-- A time-transfer message that arrived on a link and that the command names: a request is answered, and an answer gives the offset (R31).
[Log entry 126: DEDUCED] -/
def opTimeTransfer (l : Nat) (e : Exchange) (s : State) : State :=
  match s.delivered.find? (isTransfer l e) with
  | none => s
  | some d =>
    let s1 : State := { s with delivered := dropFirst (isTransfer l e) s.delivered }
    if !s.ftRuns then s1
    else match d.msg.ctl with
      | .xferReq t1 => s1.answerTransfer l t1 d.stamp
      | .xferAns t1 t2 t3 locked hops => s1.measure l t1 t2 t3 d.stamp locked hops
      | _ => s1

def execTimeTransfer (dt link t1 t2 t3 t4 : Nat) (peerLocked : Bool) (hops : Nat) (s : State) : Host.Outcome State Fault Refusal :=
  runPart "link" link 18 dt (opTimeTransfer link { t1, t2, t3, t4, locked := peerLocked, hops }) s

/-- FT_LINK_OFFSET.VALID: an exchange completed within the last 3 ms (R531). -/
def State.linkTimeValid (s : State) (l : Nat) : Bool :=
  let k := vget s.ft.links l
  k.measured && s.uptime ≤ k.at_ + 3000000

/-- The links whose transfer a module may use: up, fresh, and from a locked neighbour. -/
def State.usableTransfers (s : State) : List Nat :=
  (List.range 18).filter fun l => (s.link l).st == .up && s.linkTimeValid l && (vget s.ft.links l).peerLocked

/-- The link that R32 prefers: fewest hops, then lowest number. -/
def State.transferLink (s : State) : Option Nat := argMin (fun l => (vget s.ft.links l).hops * 32 + l) s.usableTransfers

/-! ## The offset estimate and the lock (R32, R35, R36) -/

/-- The trim that a module on its own FTSYNC takes from its neighbours: one eighth of the mean of their offsets (R32).
[Log entry 29: DEDUCED] -/
def State.trimPs (s : State) : Int :=
  match s.usableTransfers with
  | [] => 0
  | ls => (ls.map fun l => (vget s.ft.links l).offsetPs).foldl (· + ·) 0 / (8 * (ls.length : Int))

/-- The source in use and this millisecond's offset estimate, if there is one. A module on its own FTSYNC keeps that source for
two milliseconds without an edge. [Log entry 126: DEDUCED] -/
def State.estimate (s : State) : FtSource × Nat × Option Int :=
  let f := s.ft
  match f.edgePs with
  | some e => (.ownSync, 0, some (e + s.trimPs))
  | none =>
    if f.source = .ownSync && f.silentMs < 2 then (.ownSync, 0, none)
    else match s.transferLink with
      | some l => (.linkTransfer, l, some (vget f.links l).offsetPs)
      | none => (.none, 0, none)

/-- The rate correction for an offset: at most 50 ns per millisecond (R28). [Log entry 29: DEDUCED] -/
def slewFor (e : Int) : Int := max (-50000) (min 50000 e)

/-- The measured drift in ps per millisecond (R35). [Log entry 31: DEDUCED] -/
def FtBlock.driftPs (f : FtBlock) : Nat := if f.drift.isEmpty then 0 else f.drift.foldl (· + ·) 0 / f.drift.length

/-- The module is locked on a source with an estimate: the bound is the offset's magnitude and the measurement's uncertainty,
which the spec does not give: a free value of at most the 2.5 ns that R33 leaves. [Log entry 30: DESIGN CHOICE] -/
def State.lockWith (s : State) (src : FtSource) (l : Nat) (e : Int) : State :=
  let (u, s1) := s.free
  s1.modFt fun f =>
    { f with state := .locked, source := src, srcLink := l, boundPs := e.natAbs + u % 2501, slewPs := slewFor e
             drift := (f.drift ++ [(slewFor e).natAbs]).drop (f.drift.length - 15) }

/-- A module in HOLDOVER or FREERUN whose time source is back: it locks, or stays out of lock when more than 1 ms off (R36). -/
def State.relock (s : State) (src : FtSource) (l : Nat) (e : Int) : State :=
  if s.ft.outOfLock then s
  else if msPs < e.natAbs then s.modFt fun f => { f with outOfLock := true }
  else s.lockWith src l e

/-- A module in FREERUN whose reference returns while its own FTSYNC is usable and no edge is due: it locks on it, and its bound
stands until the next estimate (R35, R36). -/
def State.relockSilent (s : State) : State :=
  if s.ft.outOfLock then s else s.modFt fun f => { f with state := .locked, source := .ownSync, srcLink := 0, slewPs := 0 }

/-- A millisecond of the lock state machine (R35, R36). [Log entry 31: DEDUCED] -/
def State.judgeLock (s : State) : State :=
  let (src, l, est) := s.estimate
  let f := s.ft
  match f.state with
  | .unset => s
  | .acquiring =>
    match est with
    | none => s.modFt fun f => { f with quiet := 0, slewPs := 0, source := if f.refPresent then src else .none, srcLink := l }
    | some e =>
      if !f.refPresent then s.modFt fun f => { f with quiet := 0, slewPs := 0, source := .none }
      else
        let q := if e.natAbs ≤ 10000 then f.quiet + 1 else 0
        if 16 ≤ q then s.lockWith src l e
        else s.modFt fun f => { f with quiet := q, source := src, srcLink := l, slewPs := slewFor e }
  | .locked =>
    match est with
    | some e => s.lockWith src l e
    | none =>
      if src = .none then
        s.modFt fun f => { f with state := .holdover, source := .refAlone, slewPs := 0 }
      else s.modFt fun f => { f with slewPs := 0 }
  | .holdover =>
    let s1 := s.modFt fun f => { f with slewPs := 0, boundPs := f.boundPs + 500 + f.driftPs }
    match est with
    | some e => s1.relock src l e
    | none => s1
  | .freerun => s.modFt fun f => { f with slewPs := 0, boundPs := f.boundPs + 20000 }

/-- The 48 V input power of the last FT millisecond against the cap (R435). -/
def Power.judgeInput (p : Power) (inputW : Nat) (overTiles : List Nat) : Power :=
  let p1 := { p with inputW := inputW }
  if 102 * p.cap < 100 * inputW then
    { p1 with overrun := true, overruns := satInc 16 p.overruns, overTiles := overTiles }
  else p1

/-- An FT millisecond ends: the lock is judged, the input power measured, FTSYNC_OUT pulses, and a time transfer starts on
every link that is up (R31, R34, R35, R435). -/
def opFtMillisecond (inputW : Nat) (overTiles : List Nat) (s : State) : State :=
  if !s.ftRuns || !s.onGrid 1000000 then s
  else
    let s1 := s.judgeLock
    let s2 := s1.modFt fun f =>
      { f with silentMs := if f.edgePs.isSome then 0 else min 3 (f.silentMs + 1), edgePs := none
               syncPulses := f.syncPulses + b2n (f.state = .locked || f.state = .holdover) }
    (List.range 18).foldl State.askTransfer { s2 with power := s2.power.judgeInput inputW overTiles }

def execFtMillisecond (dt inputW : Nat) (overTiles : List Nat) (s : State) : Host.Outcome State Fault Refusal :=
  run dt (opFtMillisecond inputW overTiles) s

/-! ## The reference (R35, R36) -/

/-- The 156.25 MHz reference is lost; with CLK_MODE 10 the CXL link goes down too (R512). -/
def opReferenceLoss (s : State) : State :=
  if !s.ft.refPresent then s
  else
    let s1 := if s.boot.strapClk = 2 then { s with cxl := { s.cxl with linkUp := false } } else s
    s1.modFt fun f =>
    let f1 := { f with refPresent := false }
    match f.state with
    | .locked | .holdover => { f1 with state := .freerun, source := .refAlone, slewPs := 0 }
    | .acquiring => { f1 with source := .none, slewPs := 0, quiet := 0 }
    | .unset | .freerun => f1

def execReferenceLoss (dt : Nat) (s : State) : Host.Outcome State Fault Refusal := run dt opReferenceLoss s

/-- The reference returns: with a usable time source a FREERUN module locks, otherwise it enters HOLDOVER (R36). -/
def opReferenceReturn (s : State) : State :=
  let s1 := s.modFt fun f => { f with refPresent := true }
  if s.ft.state ≠ .freerun then s1
  else
    let (src, l, est) := s1.estimate
    let s2 := s1.modFt fun f => { f with state := .holdover, source := .refAlone }
    match est with
    | some e => s2.relock src l e
    | none => if s.ft.silentMs < 3 then s2.relockSilent else s2

def execReferenceReturn (dt : Nat) (s : State) : Host.Outcome State Fault Refusal := run dt opReferenceReturn s

/-! ## FT_NOW in halves (R29) -/

/-- A 4-byte read of FT_NOW's low half latches the high half. [Log entry 33: DEDUCED] -/
def opFtNowLowRead (s : State) : State :=
  let n := s.ftNow
  if !s.boot.powered || s.boot.inReset || !s.boot.bringupDone || s.boot.sloe then { s with cxl := { s.cxl with lastReg := 0 } }
  else { s with ft := { s.ft with highLatch := n / 2 ^ 32 }, cxl := { s.cxl with lastReg := wd (n % 2 ^ 32) } }

def execFtNowLowRead (dt : Nat) (s : State) : Host.Outcome State Fault Refusal := run dt opFtNowLowRead s

end Sys2Proof.Machine
end

