-- ==== Sys2Proof/Machine/FieldTests.lean ====
section
/-! DEFINITION. Field tests, HISTORY_READ and UNIT_RETIRE (14_reliability.md R403 to R418, 13_mapping_jobs.md R388). -/

namespace Sys2Proof.Machine

/-! ## Unit selectors (R403) -/

/-- The bits of a selector that its class uses. -/
def selectorMask : Nat → Nat
  | 0 => 0x1FFF
  | 1 => 0x7FFF
  | 2 => 0xF800F
  | 3 => 0x1F001FF
  | 4 => 0x7FFFF001FF
  | 5 => 0x1FF
  | 15 => 0xF
  | _ => 0

/-- The unit that a selector names, of class 0 to 4. -/
def selectedUnit (w : Word) : Option Unit_ :=
  let t := fld w 4 5
  match fld w 0 4 with
  | 0 => some (.core (t * 16 + fld w 9 4))
  | 1 => some (.array (t * 16 + fld w 9 4) (fld w 13 2))
  | 2 => if fld w 15 5 < 18 then some (.link (fld w 15 5)) else none
  | 3 => some (.channel t (fld w 20 5))
  | 4 => if fld w 25 14 < 12288 then some (.page t (fld w 20 5) (fld w 25 14)) else none
  | _ => none

/-- A selector is one that an opcode accepts: its class, its fields in range, and unused bits 0 (R403, R418). -/
def selectorOk (classes : List Nat) (limit : Bool) (w : Word) : Bool :=
  let c := fld w 0 4
  classes.contains c && ((fld w 0 48 ||| selectorMask c) == selectorMask c) && (limit || fld w 48 16 = 0)
    && (5 ≤ c || (selectedUnit w).isSome)

/-! ## A core's tests (R401, R413) -/

/-- The record of a core's tests. -/
def State.coreTest (s : State) (g : Nat) : CoreTest :=
  (s.rel.coreTests.find? fun c => c.core == g).getD
    { core := g, verdict := 0, endFt := 0, passFt := 0, gens := [none, none, none, none] }

/-- Change the record of a core's tests. -/
def State.modCoreTest (s : State) (g : Nat) (f : CoreTest → CoreTest) : State :=
  let c := f (s.coreTest g)
  { s with rel := { s.rel with coreTests := s.rel.coreTests.filter (fun x => x.core != g) ++ [c] } }

/-- The core of a tile that a rotation takes: not retired, with the oldest last completed test, lowest number first (R409). -/
def State.rotationCore (s : State) (tile : Nat) : Option Nat :=
  argMin (fun g => (s.coreTest g).endFt) (((List.range 16).map fun i => tile * 16 + i).filter fun g => !s.retired (.core g))

/-- SITE_ALERT is asserted, or a job is safing or parked (R388). -/
def State.alert (s : State) : Bool :=
  s.site.asserted || (List.range 4).any fun j => (s.job j).opened && (s.job j).site != .running

/-- The test of a core. -/
def State.testRun (s : State) (g : Nat) : Option TestRun := s.rel.tests.find? fun t => t.core == g

/-- A test, and the window it came from, are over. -/
def State.dropTest (s : State) (t : TestRun) : State :=
  { s with rel := { s.rel with tests := dropFirst (fun x => x.core == t.core) s.rel.tests
                               windows := match t.window with
                                 | some n => s.rel.windows.filter fun w => w.num != n
                                 | none => s.rel.windows } }

/-- A test ends without PASS or FAIL: 3 SKIPPED or 5 ENDED (R413, R414). -/
def State.abortTest (s : State) (t : TestRun) (verdict : Nat) : State :=
  let s1 := (s.dropTest t).modCoreTest t.core fun c => { c with verdict := verdict }
  { s1 with rel := { s1.rel with skipped := satAdd 16 s1.rel.skipped (b2n (verdict = 3))
                                 ended := satAdd 16 s1.rel.ended (b2n (verdict = 5)) } }

/-- End the started tests that `p` names with verdict 3 (R414). -/
def State.stopTests (s : State) (p : Nat → Bool) : State :=
  (s.rel.tests.filter fun t => t.started && p t.core).foldl (fun s t => s.abortTest t 3) s

/-- SITE_ALERT, safing or parking ends the tests in progress; one not yet started is skipped (R388, R413). [Log entry 95: DEDUCED] -/
def State.alertTests (s : State) : State :=
  if s.alert then s.rel.tests.foldl (fun s t => s.abortTest t (if t.started then 5 else 3)) s else s

/-! ## FIELD_TEST_SCHEDULE (R409) -/

/-- The first detail that rejects FIELD_TEST_SCHEDULE (R42, R46, R418). -/
def State.scheduleDetail (s : State) (p : Packet) : Option Nat :=
  let (a, b) := ((p.par 0).toNat, (p.par 1).toNat)
  let ok := selectorOk [0, 5] false (p.par 2)
  let tile := fld (p.par 2) 4 5
  let gone := match selectedUnit (p.par 2) with
    | some u => s.retired u
    | none => (s.rotationCore tile).isNone
  minDetail [failIf (b < a || s.ftNow + 2 ^ 52 < a || s.ftNow + 2 ^ 52 < b || a < p.stamp + 10000000) 0x0006,
    failIf (!ok) 0x0190, failIf (ok && gone) 0x0191]

/-- FIELD_TEST_SCHEDULE books its window. -/
def State.bookTest (w : Work) (s : State) : State :=
  if 256 ≤ s.rel.windows.length then s.complete w.pid .noResource 0x0190 0
  else
    let sel := w.pkt.par 2
    let core := match selectedUnit sel with
      | some (.core g) => some g
      | _ => none
    let b : TestWindow := { num := s.rel.nextWindow, start := (w.pkt.par 0).toNat, stop := (w.pkt.par 1).toNat, core := core, tile := fld sel 4 5 }
    ({ s with rel := { s.rel with windows := s.rel.windows ++ [b], nextWindow := s.rel.nextWindow + 1 } } : State).complete w.pid .done 0 0

def execFieldTestSchedule (dt pid : Nat) (s : State) : Host.Outcome State Fault Refusal := run dt (onHanded pid [0x90] State.bookTest) s

/-! ## Windows and drains (R410) -/

/-- A booked window. -/
def State.testWindow (s : State) (n : Nat) : Option TestWindow := s.rel.windows.find? fun w => w.num == n

/-- A window ends without a test. -/
def State.skipWindow (s : State) (w : TestWindow) : State :=
  let s1 : State := { s with rel := { s.rel with windows := s.rel.windows.filter (fun x => x.num != w.num)
                                                 skipped := satInc 16 s.rel.skipped } }
  match w.core with
  | some g => s1.modCoreTest g fun c => { c with verdict := 3 }
  | none => s1

/-- The jobs that have run an item on a core since their last step boundary (R410). -/
def State.affectedJobs (s : State) (g : Nat) : List Nat :=
  (List.range 4).filter fun j =>
    s.works.any (fun w => w.slot == some j && w.items.any fun i => i.ran == g && (i.started || i.finished))
      || s.itemMaps.any fun m => m.slot == j && m.left == 2 && m.items.any fun i => i.ran == g && i.finished

/-- A window opens: its core is drained; it is deferred while UNSYNCED, skipped under an alert, and waits while its tile is
busy (R37, R388, R410). -/
def opTestWindowOpen (n : Nat) (s : State) : State :=
  match s.testWindow n with
  | none => s
  | some w =>
    if w.opened || s.ftNow < w.start then s
    else if s.alert || w.stop ≤ s.ftNow then s.skipWindow w
    else if s.ft.unsynced then
      if w.deferred then s
      else { s with rel := { s.rel with windows := updFirst (fun x => x.num == n) (fun x => { x with deferred := true }) s.rel.windows
                                        deferredCount := satInc 16 s.rel.deferredCount } }
    else if s.rel.tests.any fun t => t.core / 16 == w.tile then s
    else match w.core.orElse fun _ => s.rotationCore w.tile with
      | none => s.skipWindow w
      | some g =>
        if s.retired (.core g) then s.skipWindow w
        else
          let js := s.affectedJobs g
          let t : TestRun := { core := g, window := some n, waits := js, lastBoundary := s.ftNow, deferred := w.deferred }
          let open_ (x : TestWindow) : TestWindow := { x with opened := true, core := some g }
          ({ s with rel := { s.rel with windows := updFirst (fun x => x.num == n) open_ s.rel.windows, tests := s.rel.tests ++ [t] } }
            : State).handOver fun v i => i.core == some g && !js.contains (v.slot.getD 15)

/-- A window ends before its test started: SKIPPED (R410). -/
def opTestWindowEnd (n : Nat) (s : State) : State :=
  match s.testWindow n with
  | none => s
  | some w =>
    if s.ftNow < w.stop then s
    else match s.rel.tests.find? fun t => t.window == some n with
      | none => s.skipWindow w
      | some t => if t.started then s else s.abortTest t 3

def execTestWindowEnd (dt window : Nat) (s : State) : Host.Outcome State Fault Refusal := run dt (opTestWindowEnd window) s

/-- An item still runs 1 ms after the last affected job's step boundary: SKIPPED (R410). -/
def opDrainTimeout (g : Nat) (s : State) : State :=
  match s.testRun g with
  | none => s
  | some t =>
    if t.started || t.suspect || !t.waits.isEmpty || !s.busy g || s.ftNow < t.lastBoundary + 1000000 then s else s.abortTest t 3

def execDrainTimeout (dt core : Nat) (s : State) : Host.Outcome State Fault Refusal :=
  runPart "core" core 512 dt (opDrainTimeout core) s

/-- The drained core holds no started item and its tile is free: the test starts under stress, and the core's staged copies are
discarded (R247, R410, R411). A suspect core is tested without a window, its end or a step boundary, also where one has begun to drain it
(R395). -/
def opTestStart (g : Nat) (s : State) : State :=
  if s.alert || s.busy g || s.retired (.core g) || s.boot.coreReset.contains g || s.boot.tileReset.contains (g / 16)
      || s.rel.tests.any fun t => t.started && t.core / 16 == g / 16 then s
  else match s.testRun g with
    | some t =>
      let late := match t.window.bind s.testWindow with
        | some w => w.stop ≤ s.ftNow
        | none => false
      let sus := s.rel.suspects.contains g
      if t.started || (!sus && (!t.waits.isEmpty || late)) then s
      else
        let start (x : TestRun) : TestRun := { x with started := true, suspect := x.suspect || sus, waits := [] }
        ({ s with rel := { s.rel with tests := updFirst (fun x => x.core == g) start s.rel.tests } } : State).unstage [g]
    | none =>
      if s.rel.suspects.contains g then
        let t : TestRun := { core := g, window := none, started := true, suspect := true }
        ({ s with rel := { s.rel with tests := s.rel.tests ++ [t] } } : State).unstage [g]
      else s

def execTestStart (dt core : Nat) (s : State) : Host.Outcome State Fault Refusal := runPart "core" core 512 dt (opTestStart core) s

/-! ## Verdicts (R412, R413) -/

/-- The hottest junction sensor of a tile, in °C. -/
def State.hottest (s : State) (t : Nat) : Int := ((vget s.power.tiles t).sensors).foldl max ((vget s.power.tiles t).sensors.headD 0)

/-- The unit and signature of a failed pass (R404, R412). -/
def failedUnit (g : Nat) : PassResult → Option (Unit_ × Nat)
  | .passed => none
  | .failedArray a l => some (.array g (a % 4), 2 + at_ l 7 4)
  | .failedVector l => some (.core g, 3 + at_ l 8 4)
  | .failedCore => some (.core g, 4)
  | .failedWord w b => some (.core g, at_ w 21 4 + at_ b 7 25)

/-- A test ends with a verdict of its own: the code is 4 where its window had been deferred (R413). [Log entry 95: DEDUCED] -/
def State.endTest (s : State) (t : TestRun) (verdict : Nat) : State :=
  let gens := (List.range 4).map fun j => if (s.job j).opened && !(s.job j).stp.genOpen then some (s.job j).stp.gen else none
  let s1 := (s.dropTest t).modCoreTest t.core fun c =>
    let c1 := { c with verdict := if t.deferred then 4 else verdict, endFt := s.ftNow }
    if verdict = 0 then { c1 with passFt := s.ftNow, gens := gens } else c1
  { s1 with rel := { s1.rel with
      passed := satAdd 16 s1.rel.passed (b2n (verdict = 0))
      failed := satAdd 16 s1.rel.failed (b2n (verdict ≠ 0))
      suspects := s1.rel.suspects.filter fun g => g != t.core
      outCores := if verdict = 0 then s1.rel.outCores.filter (fun g => g != t.core)
        else if verdict = 2 && !s1.rel.outCores.contains t.core then s1.rel.outCores ++ [t.core] else s1.rel.outCores } }

/-- A pass of a test finishes (R412, R413). A failure under stress that does not retire the failing unit is followed by a pass at
the operating-point clock. -/
def opTestPassDone (g : Nat) (r : PassResult) (s : State) : State :=
  match s.testRun g with
  | none => s
  | some t =>
    if !t.started then s
    else match failedUnit g r with
      | none => s.endTest t (if t.nominal then 1 else 0)
      | some (u, sig) =>
        let temp := (s.hottest (g / 16)).toNat
        let s1 := (s.recordEvent u (if t.nominal then 7 else 6) 15 sig 0 temp).suspectUpdate g t.nominal
        if t.nominal then s1.endTest t 2
        else if s1.retired u then s1.endTest t 1
        else { s1 with rel := { s1.rel with tests := updFirst (fun x => x.core == g) (fun x => { x with nominal := true }) s1.rel.tests } }

def execTestPassDone (dt core : Nat) (result : PassResult) (s : State) : Host.Outcome State Fault Refusal :=
  runPart "core" core 512 dt (opTestPassDone core result) s

/-! ## HISTORY_READ (R407, R408) -/

/-- The records of a channel's pages that count on it: one for each page and stored bit (R404). -/
def State.channelRecords (s : State) (t c : Nat) : List HistEv :=
  s.rel.hist.foldl (fun acc e =>
    let counts := countedMech e.mech && e.sig % 16 = 0 && match e.unit with
      | .page t' c' _ => t' = t && c' = c
      | _ => false
    if counts && !acc.any fun x => x.unit == e.unit && nfld x.sig 25 7 = nfld e.sig 25 7 then acc ++ [e] else acc) []

/-- The event records of a unit, in order of OPH. -/
def State.unitRecords (s : State) (u : Unit_) : List HistEv :=
  match u with
  | .channel t c =>
    let pages := s.channelRecords t c
    s.rel.hist.filter fun e => e.unit == u || pages.contains e
  | _ => s.rel.hist.filter fun e => e.unit == u

/-- A summary's four words. -/
def State.summaryWords (s : State) (u : Unit_) : List Word :=
  let x := (s.rel.units.find? fun x => x.unit == u).getD { unit := u, st := 0, lastFt := 0, total := 0 }
  let pages := match u with
    | .channel t c => s.channelRecords t c
    | _ => []
  let recent := (s.unitRecords u).filter fun e => s.oph ≤ e.oph + 3600000
  let st := if x.st = 0 && !pages.isEmpty then 1 else x.st
  let last := (pages.map fun e => e.ft).foldl max x.lastFt
  let (verdict, pass) := match u with
    | .core g => ((s.coreTest g).verdict, (s.coreTest g).passFt)
    | _ => (0, 0)
  [wd (u.selector + at_ st 3 42), wd last, wd (satAdd 16 0 recent.length + at_ (satAdd 16 x.total pages.length) 16 16 + at_ verdict 3 32),
   wd pass]

/-- An event record's four words. -/
def HistEv.words (e : HistEv) : List Word :=
  [wd (e.unit.selector + at_ 1 3 39 + at_ e.mech 4 42 + at_ e.count 2 46 + at_ e.job 4 48), wd e.ft,
   wd (at_ e.oph 32 0 + at_ e.sig 32 32), wd (at_ e.seq 32 0 + at_ e.temp 8 32)]

/-- The class of a unit. -/
def Unit_.cls : Unit_ → Nat
  | .core _ => 0 | .array _ _ => 1 | .link _ => 2 | .channel _ _ => 3 | .page _ _ _ => 4

/-- The units that have any record or are retired, in class order and then in selector order. -/
def State.recordedUnits (s : State) : List Unit_ :=
  let chans := s.rel.hist.filterMap fun e => match e.unit with
    | .page t c _ => if countedMech e.mech && e.sig % 16 = 0 then some (Unit_.channel t c) else none
    | _ => none
  ((s.rel.units.map fun x => x.unit) ++ chans).eraseDups.mergeSort fun a b =>
    a.cls * 2 ^ 40 + a.selector ≤ b.cls * 2 ^ 40 + b.selector

/-- The records that HISTORY_READ writes. -/
def State.historyRecords (s : State) (sel : Word) : List (List Word) :=
  let all := match selectedUnit sel with
    | some u => s.summaryWords u :: (s.unitRecords u).map HistEv.words
    | none => s.recordedUnits.map s.summaryWords
  all.take (fld sel 48 16)

/-- The first detail that rejects HISTORY_READ (R418). -/
def State.historyDetail (s : State) (p : Packet) : Option Nat :=
  let n := 32 * (s.historyRecords (p.par 0)).length
  minDetail [failIf (!selectorOk [0, 1, 2, 3, 4, 15] true (p.par 0)) 0x0190, failIf (fld (p.par 0) 48 16 = 0) 0x0192,
    s.resultDetail p (p.par 1) n]

/-- HISTORY_READ. -/
def State.historyRead (w : Work) (s : State) : State :=
  let rs := s.historyRecords (w.pkt.par 0)
  ((s.writeResult w (s.ctl w) (w.pkt.par 1) (rs.flatMap fun r => r.flatMap wordBytes) false).modWork w.pid
    fun v => { v with result := rs.length }).finishRemote w.pid

def execHistoryRead (dt pid : Nat) (s : State) : Host.Outcome State Fault Refusal := run dt (onHanded pid [0x91] State.historyRead) s

/-! ## UNIT_RETIRE (R415) -/

/-- The first detail that rejects UNIT_RETIRE (R418). -/
def retireDetail (p : Packet) : Option Nat := failIf (!selectorOk [0, 1, 2, 3, 4] false (p.par 0)) 0x0190

/-- UNIT_RETIRE: an event of mechanism 12, and the unit is retired at once. -/
def State.unitRetire (w : Work) (s : State) : State :=
  match selectedUnit (w.pkt.par 0) with
  | none => s.complete w.pid .done 0 0
  | some u => (s.settling fun s => (s.recordEvent u 12 15 0 w.pkt.seq).retire u 3).complete w.pid .done 0 0

def execUnitRetire (dt pid : Nat) (s : State) : Host.Outcome State Fault Refusal := run dt (onHanded pid [0x92] State.unitRetire) s

end Sys2Proof.Machine
end

