-- ==== Sys2Proof/Machine/LinkEvents.lean ====
section
/-! DEFINITION. The commands of Kealet links and ports (10_links.md R272 to R298). -/

namespace Sys2Proof.Machine

/-- The module's links run: it has power, no module-scope reset holds it, and it is not in Sloe mode (R457). -/
def State.linksRun (s : State) : Bool := s.boot.powered && !s.boot.inReset && !s.boot.sloe

/-- Register space takes writes: bring-up is done and the module is not in Sloe mode (R452, R457). -/
def State.registersRun (s : State) : Bool := s.linksRun && s.boot.bringupDone

/-- An operation that acts while the links run. -/
def whenLinks (op : State → State) (s : State) : State := if s.linksRun then op s else s

/-- An operation that acts while register space takes writes. -/
def whenRegisters (op : State → State) (s : State) : State := if s.registersRun then op s else s

/-- With BOOT_SRC 10 the boot ROM asks for an image on the lowest-numbered link that trains (R454). [Log entry 108: DEDUCED] -/
def askBootImage (l : Nat) (s : State) : State :=
  let b := s.boot
  if b.bringup && b.strapSrc = 2 && !b.recovery && b.loaded.isNone && (s.link l).st = .up
      && (List.range l).all fun k => (s.link k).st != .up then
    s.sendPeer l { s.blank .control 0 with ctl := .bootImage [] }
  else s

/-- LIGHT_DETECT (R283). -/
def execLightDetect (dt link lane : Nat) (s : State) : Host.Outcome State Fault Refusal :=
  runPart "link" link 18 dt (whenLinks (opLightDetect link lane)) s

/-- TRAINING_DONE (R283). -/
def execTrainingDone (dt link : Nat) (ok : Bool) (peerModule peerLink : Nat) (peerValid : Bool) (s : State) :
    Host.Outcome State Fault Refusal :=
  runPart "link" link 18 dt
    (whenLinks fun s =>
      if (s.link link).st = .training then askBootImage link (opTrainingDone link ok peerModule peerLink peerValid s) else s) s

/-- TRAINING_RETRY (R283). -/
def execTrainingRetry (dt link : Nat) (s : State) : Host.Outcome State Fault Refusal :=
  runPart "link" link 18 dt (whenLinks (opTrainingRetry link)) s

/-- LANE_FAULT (R284). -/
def execLaneFault (dt link lane : Nat) (s : State) : Host.Outcome State Fault Refusal :=
  runPart "link" link 18 dt (whenLinks (opLaneFault link lane)) s

/-- LINK_RETRAIN (R284). -/
def execLinkRetrain (dt link : Nat) (s : State) : Host.Outcome State Fault Refusal :=
  runPart "link" link 18 dt (whenRegisters (opLinkRetrain link)) s

/-- LINK_ENABLE (R300). -/
def execLinkEnable (dt link : Nat) (enable : Bool) (s : State) : Host.Outcome State Fault Refusal :=
  runPart "link" link 18 dt (whenRegisters (opLinkEnable link enable)) s

/-- LINK_PORT (R278, R300). -/
def execLinkPort (dt link port : Nat) (s : State) : Host.Outcome State Fault Refusal :=
  runPart "link" link 18 dt (whenRegisters (opLinkPort link port)) s

/-- BULK_CODEWORD (R274). -/
def execBulkCodeword (dt link : Nat) (intact corrected : Bool) (seq ack : Nat) (flags : TrailerFlags) (worstLane : Nat) (s : State) :
    Host.Outcome State Fault Refusal :=
  runPart "link" link 18 dt (whenLinks (opBulkCodeword link intact corrected (seq % 512) (ack % 512) flags.nak flags.rowan worstLane)) s

/-- REPLAY_TIMEOUT (R274). -/
def execReplayTimeout (dt link : Nat) (s : State) : Host.Outcome State Fault Refusal :=
  runPart "link" link 18 dt (whenLinks (opReplayTimeout link)) s

/-- TRANSIT_MESSAGE (R294). -/
def execTransitMessage (dt link : Nat) (m : Msg) (s : State) : Host.Outcome State Fault Refusal :=
  runPart "link" link 18 dt (whenLinks (opTransit link m)) s

/-- PORT_HOLD_END (R281). -/
def execPortHoldEnd (dt port : Nat) (s : State) : Host.Outcome State Fault Refusal :=
  runPart "port" port 18 dt (whenLinks (opPortHoldEnd port)) s

end Sys2Proof.Machine
end

