-- ==== Sys2Proof/Machine/Commit.lean ====
section
/-! DEFINITION. The commit of a step: when a member votes, the decision, the step boundary, and parking
(12_gradient_reduction.md R356 to R361, 07 R187, 13 R384, R385, 11 R308). -/

namespace Sys2Proof.Machine

/-- 2^64 − 1: a condition that has not arisen (R358). -/
def noFt : Nat := 2 ^ 64 - 1

/-- The tag of a job slot's commit reduction (R325). -/
def voteTag (slot : Nat) : Nat := 49 + 4 * slot

/-- A commit vote of the job is in progress on this module. -/
def State.voting (s : State) (slot : Nat) : Bool := (s.run (voteTag slot)).isSome

/-! ## When a member votes (R357) -/

/-- A packet that waits for the step's own decision, for which the vote does not wait (R357). -/
def State.voteExempt (s : State) (slot : Nat) (w : Work) : Bool :=
  let op := w.pkt.opcode
  let d := w.pkt.cdesc
  let step := (s.job slot).step
  op = 0x74 || op = 0x76 || (op = 0x75 && (w.pkt.par 0).toNat = step)
    || ((op = 0x54 || op = 0x55) && d.param && d.gen = step) || (op = 0x56 && d.adv && s.fenceOnBucket w d)

/-- Every packet of the step has replied, every sampled unit of the job is settled, and no re-run is in progress (R396). -/
def State.stepSettled (s : State) (slot : Nat) : Bool :=
  s.works.all (fun w => w.slot != some slot || w.step != (s.job slot).step || s.voteExempt slot w)
    && s.rel.samples.all fun x => x.slot != slot && x.stage != 3

/-- The parts of [0, n) that sorted ranges (first, length) leave uncovered. -/
def gapsFrom : Nat → Nat → List (Nat × Nat) → List (Nat × Nat)
  | at_, n, [] => if at_ < n then [(at_, n - at_)] else []
  | at_, n, (o, c) :: t => (if at_ < o then [(at_, o - at_)] else []) ++ gapsFrom (max at_ (o + c)) n t

/-- The ranges of a shard that no bucket of the step covered (R357). -/
def Job.shardGaps (j : Job) (h : Shard) : List (Nat × Nat) :=
  let rs := j.buckets.filterMap fun b => match b.shard with
    | some (k, o, c) => if k = h.param then some (o, c) else none
    | none => none
  gapsFrom 0 h.elems (rs.mergeSort fun a b => a.1 ≤ b.1)

/-- What the copying of a shard's uncovered ranges moves: tensor number, source byte, destination byte, bytes (R335, R357).
[Log entry 86: DEDUCED] -/
def Job.gapMoves (j : Job) (h : Shard) : List (Nat × Nat × Nat × Nat) :=
  let g := j.stp.gen
  let r := j.retain
  let k := fmtBytes h.pfmt
  (j.shardGaps h).flatMap fun (o, n) =>
    [(h.param, h.paramAt r g + o * k, h.paramAt r j.step + o * k, n * k),
     (h.master, h.masterAt g + 4 * o, h.masterAt j.step + 4 * o, 4 * n)]
      ++ (List.range h.states).map fun i => (h.state, h.stateAt g i + 4 * o, h.stateAt j.step i + 4 * o, 4 * n)

/-- The context of the DMA engine that copies for a job's commit, on the tile of the packet's window. -/
def Work.commitCtx (w : Work) : OpCtx := w.dma

/-- Copy one range of a tensor, its poison with it; a copy that the tile denies is a failure of the step. [Log entry 86: DEDUCED] -/
def State.copyRange (s : State) (x : OpCtx) (slot : Nat) (m : Nat × Nat × Nat × Nat) : State :=
  match s.tensors.find? fun t => t.num == m.1 && t.slot == slot with
  | none => s
  | some t =>
    let fuel := m.2.2.2 / 4096 + 2
    let bad := if t.spill.isSome then none else
      match s.rangeCheck x .read t.tile (t.off + m.2.1) fuel m.2.2.2 with
      | some f => some f
      | none => s.rangeCheck x .write t.tile (t.off + m.2.2.1) fuel m.2.2.2
    match bad with
    | some (r, o) => (s.logRes x r t.tile o (s.globalAddr t.tile o)).raise slot .internal r.status.2
    | none =>
      let (bs, s1) := s.tensorBytes x t m.2.1 m.2.2.2
      s1.writeTensor x x.pid t m.2.2.1 (bs.map some)

/-- Join the commit reduction with the step's lanes (R358). -/
def State.joinVote (s : State) (slot : Nat) : RowanEnd × State :=
  let j := s.job slot
  match s.group slot 0 with
  | none => (none, s)
  | some g =>
    let v := (List.range 7).map fun i => if i = 3 && !j.num.nanHalt then noFt else (lget j.lanes i none).getD noFt
    (s.modJob slot fun b => { b with commit := { b.commit with voted := true } }).startRun (voteTag slot) slot g (.vote slot) 4 v

/-- Whether a job's commit waits for its vote. -/
def Job.commitWaits (j : Job) : Bool := !j.commit.pids.isEmpty && !j.commit.voted

/-- The step is settled: uncovered shard ranges are copied, and the member votes. A range lying on a spill module is read first;
a gather or a shadow copy that still reads the storage is waited for, or the copy ended, as for an optimizer. -/
def State.tryVote (s : State) (slot : Nat) : RowanEnd × State :=
  let j := s.job slot
  match j.commit.pids.head?.bind s.work with
  | none => (none, s)
  | some w =>
    if j.commit.voted || !s.stepSettled slot then (none, s)
    else
      let hs := (s.shardsOf slot).filter fun h => !(j.shardGaps h).isEmpty
      let ms := hs.flatMap fun h => j.gapMoves h
      let x := w.commitCtx
      let rs := ms.filterMap fun m => (s.tensors.find? fun t => t.num == m.1 && t.slot == slot).map fun t => (t, m.2.1, m.2.2.2)
      let inWay := !hs.isEmpty && s.copyInWay slot
      if hs.any (s.gatherReads slot) || (inWay && j.shadow.stall) then (none, s)
      else match s.fetchRanges x rs with
        | some s1 => (none, s1)
        | none => (ms.foldl (fun s m => s.copyRange x slot m) (if inWay then s.endCopy slot else s)).joinVote slot

/-! ## Work that ends before it is done (R308, R357, R385) -/

/-- The reductions that a packet's work runs on Rowan tags end. -/
def State.endRunsOf (s : State) (pid : Nat) : State :=
  (List.range 64).foldl (fun s t => match s.run t with
    | some u => if u.serves = .reduce pid || u.serves = .barrier pid then s.endRun t u else s
    | none => s) s

/-- A packet's work ends here: its collective, bucket and reductions go, and it replies. A bucket's owner ends it for every member, unless
its group goes. -/
def State.endWork (s : State) (w : Work) (st : Status) (detail result : Nat) (quiet : Bool := false) : State :=
  let s1 := (s.dropColl w).endRunsOf w.pid
  if w.pkt.opcode = 0x59 && !w.pkt.declares then
    if s1.isOwner w && !quiet then s1.failMember w st detail else s1.endMember w st detail result
  else s1.complete w.pid st detail result

/-- A job parks (R385): every packet without a final reply ends, save that SAFE_POINT replies DONE; a JOB_CLOSE that ends so closes nothing.
[Log entry 90: DEDUCED] -/
def State.park (s : State) (slot : Nat) : State :=
  let g := (s.job slot).stp.gen % 2 ^ 32
  let mine := s.works.filter fun w => w.slot == some slot
  let s1 := mine.foldl (fun s w => if w.pkt.opcode = 0x76 then s.complete w.pid .done 0 g else s.endWork w .internal 0x0180 0) s
  (s1.modJob slot fun j => { j with
    site := .parked, closing := false, lanes := List.replicate 7 none, fails := [], scales := [], buckets := [], commit := {} })

/-! ## The decision (R359 to R361) -/

/-- The status of a failure lane. -/
def laneStatus : Nat → Status
  | 0 => .replayedOk | 1 => .lateExcluded | 2 => .poisonedContribution | 3 => .nanTrap | 4 => .scaleRange | 5 => .checkMismatch
  | _ => .internal

/-- The status of the COMMIT_STEP reply that the agreed lanes give (R23, R359): with no failure lane, the step commits. -/
def commitStatus (v : List Nat) : Status × Bool :=
  let at_ (i : Nat) : Nat := lget v i noFt
  match argMin at_ ([2, 3, 4, 5, 6].filter fun i => at_ i ≠ noFt) with
  | some i => (laneStatus i, false)
  | none => (if at_ 0 ≠ noFt then .replayedOk else if at_ 1 ≠ noFt then .lateExcluded else .done, true)

/-- The detail of this member's own earliest failure with a status (R359). -/
def Job.failDetail (j : Job) (st : Status) : Nat :=
  ((argMin (fun f : Fail => f.ft) (j.fails.filter fun f => f.status == st)).map fun f => f.detail).getD 0

/-- RAISED of R361 from lanes: a lane's bit where its condition arose. -/
def raisedBits (p : Nat → Bool) (committed : Bool) : Nat :=
  flag (p 1) 0 + flag (p 0) 1 + flag (p 2) 2 + flag (p 3) 3 + flag (p 4) 4 + flag (p 5) 5 + flag (p 6) 6 + flag committed 7

/-- A step's record joins the last 64 (R361); one step has one record. [Log entry 87: DEDUCED] -/
def Job.keepRecord (j : Job) (r : StepRec) : Job :=
  let rs := j.records.filter (fun x => x.step != r.step) ++ [r]
  { j with records := rs.drop (rs.length - 64) }

/-- Gathers of the step's generation are served, or end as COMMIT_STEP does (R24). -/
def State.settleGathers (s : State) (slot gen : Nat) (st : Status) (detail : Nat) (ok : Bool) : State :=
  let mine := s.works.filter fun w =>
    w.slot == some slot && (w.pkt.opcode == 0x54 || w.pkt.opcode == 0x55) && w.pkt.cdesc.param && w.pkt.cdesc.gen == gen
  mine.foldl (fun s w =>
    if !ok then (s.dropColl w).complete w.pid st detail 0
    else match s.coll w.pid, s.group slot w.pkt.group with
      | some c, some g => if c.started && !c.sentAll then s.startData w g else s
      | _, _ => s) s

/-- PERMUTEs whose fence waits for a bucket of a step that failed end (R366). -/
def State.failFences (s : State) (slot : Nat) : State :=
  (s.works.filter fun w => w.slot == some slot && w.pkt.opcode == 0x56 && w.pkt.cdesc.adv && s.fenceOnBucket w w.pkt.cdesc).foldl
    (fun s w => (s.dropColl w).complete w.pid .internal 0x0172 0) s

/-- The item maps of a job grow one step boundary older (R262). -/
def State.ageItemMaps (s : State) (slot : Nat) : State :=
  let older := updAll (fun m : ItemMap => m.slot == slot) (fun m => { m with left := m.left - 1 }) s.itemMaps
  { s with itemMaps := older.filter fun m => m.left ≠ 0 }

/-- Drains that wait for this step boundary: their cores take no more of the job's items, and keep no staged copies (R25, R247, R250,
R263, R410). -/
def State.drainBoundary (s : State) (slot : Nat) : State :=
  let waits (t : TestRun) : Bool := !t.started && t.waits.contains slot
  let drained (t : TestRun) : TestRun := { t with waits := t.waits.filter (fun j => j != slot), lastBoundary := s.ftNow }
  let cores := (s.rel.tests.filter waits).map fun t => t.core
  (({ s with rel := { s.rel with tests := updAll waits drained s.rel.tests } } : State).handOver fun w i =>
    w.slot == some slot && cores.any fun g => i.core == some g).unstage cores

/-- The access counts of a job's pages begin a new step (R243). [Log entry 64: DESIGN CHOICE] -/
def State.ageAccess (s : State) (slot : Nat) : State :=
  let mine (a : AccessCount) : Bool :=
    s.tensors.any fun t => t.slot == slot && t.spill.isNone && t.tile == a.tile && t.page ≤ a.page && a.page < t.page + t.pages
  let next (a : AccessCount) : AccessCount := { a with now := 0, last := a.now }
  { s with access := (updAll mine next s.access).filter fun a => a.now ≠ 0 || a.last ≠ 0 }

/-- The step boundary (R21): item maps age, drains take their cores, what the step's re-runs need is put away, and the placer may rebalance
the job's tensors (R253). -/
def State.boundary (s : State) (slot : Nat) : State :=
  let s1 := ((s.ageItemMaps slot).drainBoundary slot).ageAccess slot
  let mine := ((s.tensors.filter fun t => t.slot == slot && t.spill.isNone).map fun t => t.num)
  ({ s1 with rel := { s1.rel with wrote := s1.rel.wrote.filter (fun e => e.slot != slot)
                                  samples := s1.rel.samples.filter fun x => x.slot != slot || x.stage == 3 } } : State).modJob slot fun j =>
    { j with movable := mine }

/-- The step ends with its decision: its boundary, and the step's conditions go. -/
def State.endStep (s : State) (slot : Nat) : State :=
  (s.boundary slot).modJob slot fun j => { j with lanes := List.replicate 7 none, fails := [], scales := [], buckets := [], commit := {} }

/-- The generation advances: the job and each of its shards have had one generation more (R187, R338). -/
def State.advance (s : State) (slot : Nat) : State :=
  ({ s with shards := updAll (fun h : Shard => h.slot == slot) (fun h => { h with kept := min 3 (h.kept + 1) }) s.shards } : State).modJob slot
    fun j => { j with kept := min 3 (j.kept + 1), stp := { j.stp with gen := j.step } }

/-- The vote completes: the decision, the replies and the step boundary (R359, R360). RESULT is the generation after the
decision, be it new or unchanged: log entry 15. [Log entry 15: DEDUCED] -/
def State.voteDone (s : State) (slot : Nat) (v : List Nat) : State :=
  let j := s.job slot
  let (st, ok) := commitStatus v
  let detail := if ok then 0 else j.failDetail st
  let gen := if ok then j.step else j.stp.gen
  let raised := raisedBits (fun i => lget v i noFt ≠ noFt || (lget j.lanes i none).isSome) ok
  let s1 := if ok then s else s.failFences slot
  let s2 := (if ok then s1.advance slot else s1).modJob slot fun b =>
    b.keepRecord { step := j.step, raised := raised, status := st.code, ft := s.ftNow, gen := gen }
  let s3 := j.commit.pids.foldl (fun s p => s.complete p st detail (gen % 2 ^ 32)) s2
  let s4 := (s3.settleGathers slot j.step st detail ok).endStep slot
  let s5 := if j.site = .safing then s4.park slot else s4
  if ok then s5.copyDue slot gen s.ftNow else s5

/-- A Rowan reduction that has completed serves what it was started for. -/
def State.rowanDone (r : RowanEnd × State) : State :=
  match r.1 with
  | none => r.2
  | some u => match u.serves with
    | .reduce pid => r.2.reduceDone pid u.v
    | .barrier pid => r.2.barrierDone pid u.v
    | .scale slot sgroup => r.2.scaleDone slot sgroup u.v
    | .vote slot => r.2.voteDone slot u.v

/-! ## The rows -/

/-- COMMIT_STEP waits for its vote (R357). -/
def State.takeCommit (w : Work) (s : State) : State :=
  (s.modWork w.pid fun v => { v with stage := .running }).modJob (w.slot.getD 0) fun j =>
    { j with commit := { j.commit with pids := j.commit.pids ++ [w.pid]
                                       stamp := if j.commit.pids.isEmpty then w.pkt.stamp else j.commit.stamp } }

def execCommitStep (dt pid : Nat) (s : State) : Host.Outcome State Fault Refusal := run dt (onHanded pid [0x74] State.takeCommit) s

/-- The member votes once the step's packets and checks are settled (R357, R358). -/
def opCommitVote (slot : Nat) (s : State) : State := State.rowanDone (s.tryVote slot)

def execCommitVote (dt slot : Nat) (s : State) : Host.Outcome State Fault Refusal := runPart "slot" slot 4 dt (opCommitVote slot) s

/-- The commit deadline (R357). -/
def Job.commitDeadline (j : Job) : Nat := (j.buckets.map fun b => b.deadline).foldl max j.commit.stamp + 1000 * j.stp.grace

/-- The open buckets of a job's present step end (R357). [Log entry 88: DEDUCED] -/
def State.endBuckets (s : State) (slot detail : Nat) : State :=
  (s.works.filter fun w => w.slot == some slot && w.pkt.opcode == 0x59 && !w.pkt.declares).foldl
    (fun s w => s.endWork w .internal detail 0) s

/-- The commit deadline passes: the member votes with an INTERNAL failure, and its open buckets end (R357). [Log entry 88: DEDUCED] -/
def opCommitDeadline (slot : Nat) (s : State) : State :=
  let j := s.job slot
  let cd := j.commitDeadline
  if !j.commitWaits || s.ftNow < cd then s
  else State.rowanDone (((s.raiseAt slot .internal cd 0x0171).endBuckets slot 0x0171).joinVote slot)

/-! ## GENERATION_QUERY (R361) -/

/-- The step is older than the records kept. -/
def State.queryStale (s : State) (slot : Nat) (p : Packet) : Bool :=
  let j := s.job slot
  let n := (p.par 0).toNat
  !(j.records.any fun r => r.step == n) && n ≤ j.stp.gen

/-- The record of a step: as its vote left it, or what the member knows of a step whose vote has not completed. -/
def Job.stepRecord (j : Job) (n : Nat) : StepRec :=
  match j.records.find? fun r => r.step == n with
  | some r => r
  | none =>
    let known (i : Nat) : Bool := n = j.step && (lget j.lanes i none).isSome
    { step := n, raised := raisedBits known false, status := 0xFF, ft := 0, gen := j.stp.gen }

/-- GENERATION_QUERY writes the record of a step. [Log entry 87: DEDUCED] -/
def State.generationQuery (w : Work) (s : State) : State :=
  let r := (s.job (w.slot.getD 0)).stepRecord (w.pkt.par 0).toNat
  let ws := [wd r.step, wd (at_ r.raised 8 0 + at_ r.status 8 8), wd r.ft, wd r.gen]
  ((s.writeResult w (s.ctl w) (w.pkt.par 1) (ws.flatMap wordBytes) false).modWork w.pid fun v => { v with result := r.raised }).finishRemote
    w.pid

def execGenerationQuery (dt pid : Nat) (s : State) : Host.Outcome State Fault Refusal :=
  run dt (onHanded pid [0x75] State.generationQuery) s

end Sys2Proof.Machine
end

