-- ==== Sys2Proof/Machine/Queues.lean ====
section
/-! DEFINITION. Communication queues at work: starting collectives, BARRIER, ROWAN_REDUCE, received Rowan frames, resends, and
GROUP_UNBIND (11_collectives.md R308, R311, R319, R324, R326, R327). -/

namespace Sys2Proof.Machine

/-! ## BARRIER and ROWAN_REDUCE (R324, R326) -/

/-- A BARRIER or ROWAN_REDUCE is taken, and waits for its turn in its group's queue. -/
def State.takeQueued (w : Work) (s : State) : State := s.modWork w.pid fun v => { v with stage := .running }

def execBarrier (dt pid : Nat) (s : State) : Host.Outcome State Fault Refusal := run dt (onHanded pid [0x58] State.takeQueued) s

def execRowanReduce (dt pid : Nat) (s : State) : Host.Outcome State Fault Refusal := run dt (onHanded pid [0x5A] State.takeQueued) s

def Packet.rowanTag (p : Packet) : Nat := fld (p.par 0) 0 6
def Packet.rowanOp (p : Packet) : Nat := fld (p.par 1) 0 4
def Packet.rowanLanes (p : Packet) : Nat := fld (p.par 1) 8 4

/-- The BAD_PARAM detail of a ROWAN_REDUCE (R332). -/
def State.rowanDetail (s : State) (slot : Nat) (p : Packet) : Option Nat :=
  minDetail
    [failIf (s.group slot p.group).isNone 0x0160,
     failIf (47 < p.rowanTag || 7 < p.rowanOp || p.rowanLanes = 0 || 8 < p.rowanLanes
       || (List.range 8).any (fun i => p.rowanLanes ≤ i && p.pay i ≠ 0)
       || fld (p.par 0) 6 2 ≠ 0 || fld (p.par 0) 14 50 ≠ 0 || fld (p.par 1) 4 4 ≠ 0 || fld (p.par 1) 12 52 ≠ 0) 0x0168,
     s.resultDetail p (p.par 2) (8 * p.rowanLanes)]

/-- A ROWAN_REDUCE's tag is held by another group or job (R326, R332). -/
def State.rowanNoRes (s : State) (p : Packet) (fjob : Nat) : Option Nat :=
  match s.run p.rowanTag with
  | none => none
  | some u => failIf (u.fjob ≠ fjob || u.group ≠ p.group) 0x0160

/-- A barrier joins its group's reduction with its arrival stamp, its ramp length and its lead (R324). -/
def State.startBarrier (s : State) (w : Work) (g : Group) : RowanEnd × State :=
  let j := w.slot.getD 0
  (s.dequeue j g.num w.pid).startRun (48 + 4 * j) j g (.barrier w.pid) 3 [s.ftNow, (s.job j).rampNs, s.ft.releaseLead]

/-- A ROWAN_REDUCE joins its reduction (R326). -/
def State.startReduce (s : State) (w : Work) (g : Group) : RowanEnd × State :=
  let j := w.slot.getD 0
  let p := w.pkt
  (s.dequeue j g.num w.pid).startRun p.rowanTag j g (.reduce w.pid) p.rowanOp ((List.range p.rowanLanes).map fun i => (p.pay i).toNat)

/-! ## COLLECTIVE_START (R311) -/

/-- A started collective of the group sends the data it owes; otherwise the collective at the head of the group's queue starts, where its
tag is free or nothing else holds it. -/
def opCollectiveStart (slot gnum : Nat) (s : State) : State :=
  match s.group slot gnum with
  | none => s
  | some g => match s.dataDue slot gnum, g.queue.head?.bind s.work with
    | some w, _ => s.startData w g
    | none, none => s
    | none, some w =>
      if w.stage = .handed then s
      else if w.pkt.opcode = 0x59 then State.rowanDone (s.startBucket w)
      else if w.pkt.opcode = 0x58 then
        if (s.run (48 + 4 * slot)).isSome then s else State.rowanDone (s.startBarrier w g)
      else if w.pkt.opcode = 0x5A then
        if (s.run w.pkt.rowanTag).isSome then s else State.rowanDone (s.startReduce w g)
      else s.startBulk w

def execCollectiveStart (dt slot group : Nat) (s : State) : Host.Outcome State Fault Refusal :=
  runPart "slot" slot 4 dt (opCollectiveStart slot group) s

/-! ## COLLECTIVE_DATA (R310, R320) -/

/-- The packet that a COLLECTIVE message disagrees with: its opcode is another, or it is a bucket's contribution and this member is not
the owner (R310). A bulk collective's own pieces are judged as they are taken. -/
def State.mismatched (s : State) (m : Msg) : Option Work :=
  if m.op ≠ .collective || m.vc = 1 then none
  else (s.msgWork m).filter fun w => (s.coll w.pid).isNone && (w.pkt.opcode ≠ mOpcode m || (w.pkt.opcode = 0x59 && !s.isOwner w))

/-- A packet's collective fails since data of another came for it (R310). -/
def State.failMismatch (s : State) (w : Work) : State := (s.raise (w.slot.getD 0) .internal 0x0161).endWork w .internal 0x0161 0

/-- The next COLLECTIVE message of a started bulk collective is reduced or placed; data that disagrees with its packet ends that. -/
def opCollectiveData (s : State) : State :=
  s.takeDelivered (fun m => s.pieceReady m || (s.mismatched m).isSome) fun d s => match s.mismatched d.msg with
    | some w => s.failMismatch w
    | none => s.onePiece d

def execCollectiveData (dt : Nat) (s : State) : Host.Outcome State Fault Refusal := run dt opCollectiveData s

/-! ## Rowan frames (R327, R330) -/

/-- A flit for this module: of a reduction, or a resend request. -/
def State.flitHere (s : State) (link : Option Nat) (f : Flit) : State :=
  if f.kind = 2 then s.resendFlits f none else State.rowanDone (s.takeFlit link f)

/-- A Rowan frame is received on a link; MORE says that another follows it (R273). -/
def opRowanFrame (l : Nat) (intact : Bool) (cs : List Codeword) (more : Bool) (s : State) : State :=
  match (s.modLink l fun k => { k with rowanNext := k.st = .up && more }).frameIn l intact cs with
  | (none, s1) => s1
  | (some f, s1) => s1.flitHere (some l) f

def execRowanFrame (dt link : Nat) (intact : Bool) (frame : ReceivedFrame) (s : State) : Host.Outcome State Fault Refusal :=
  runPart "link" link 18 dt (opRowanFrame link intact frame.words frame.more) s

/-! ## COLLECTIVE_RESEND (R319) -/

/-- A message sent and not acknowledged, among a packet's or those of bindings. -/
def State.sentMsg (s : State) (pid tag : Nat) : Option Sent :=
  let of_ (l : List Sent) : Option Sent := l.find? fun e => e.tag == tag
  ((s.coll pid).bind fun c => of_ c.unacked).orElse fun _ => ((s.bucket pid).bind fun b => of_ b.unacked).orElse fun _ => of_ s.bindSent

/-- Change every record of a message sent with this tag, or drop it. -/
def State.updSent (s : State) (pid tag : Nat) (f : Sent → Option Sent) : State :=
  let upd (l : List Sent) : List Sent := l.filterMap fun e => if e.tag == tag then f e else some e
  let s1 := (s.modColl pid fun c => { c with unacked := upd c.unacked }).modBucket pid fun b => { b with unacked := upd b.unacked }
  { s1 with bindSent := upd s1.bindSent }

/-- The work of a packet fails on this member after a second timeout. -/
def State.failSent (s : State) (pid : Nat) : State :=
  match s.work pid with
  | none => s
  | some w =>
    if (s.coll pid).isSome then s.failColl w 0x0140
    else match w.slot with
      | none => s
      | some j => (s.raise j .internal 0x0140).endWork w .internal 0x0140 0

/-- 2 ms pass without an acknowledgement: the message is sent once more; a second time its collective fails. -/
def opCollectiveResend (pid tag : Nat) (s : State) : State :=
  match s.sentMsg pid tag with
  | none => s
  | some e =>
    if s.ftNow < e.at_ + 2000000 then s
    else if !e.resent then (s.updSent pid tag fun x => some { x with resent := true, at_ := s.ftNow }).send e.msg
    else if s.bindSent.any fun x => x.tag == tag then s.updSent pid tag fun _ => none
    else s.failSent pid

def execCollectiveResend (dt pid : Nat) (tag : Nat) (s : State) : Host.Outcome State Fault Refusal := run dt (opCollectiveResend pid tag) s

/-- An ACK of a COLLECTIVE or binding message arrives (R319). -/
def State.acked (s : State) (m : Msg) : State :=
  let mine (l : List Sent) : Bool := l.any fun e => e.tag == m.tag && e.msg.dest == m.src
  let cs := (s.colls.filter fun c => mine c.unacked).map fun c => c.pid
  let cut (l : List Sent) : List Sent := l.filter fun e => !(e.tag == m.tag && e.msg.dest == m.src)
  let s1 := { s with
    colls := s.colls.map fun c => { c with unacked := cut c.unacked }
    buckets := s.buckets.map fun b => { b with unacked := cut b.unacked }
    bindSent := cut s.bindSent }
  cs.foldl (fun s p => s.settleColl p) s1

/-! ## GROUP_UNBIND (R308, R360) -/

/-- The commit of a job ends without a decision: its packets reply INTERNAL, and the step ends on this member (R360).
[Log entry 75: DEDUCED] -/
def State.abandonCommit (s : State) (slot : Nat) : State :=
  let j := s.job slot
  if j.commit.pids.isEmpty && !j.commit.voted then s
  else
    let s0 := match s.run (voteTag slot) with
      | some u => s.endRun (voteTag slot) u
      | none => s
    let raised := raisedBits (fun i => (lget j.lanes i none).isSome || i = 6) false
    let s1 := (s0.failFences slot).modJob slot fun b =>
      b.keepRecord { step := j.step, raised := raised, status := Status.internal.code, ft := s.ftNow, gen := j.stp.gen }
    let s2 := j.commit.pids.foldl (fun s p => s.complete p .internal 0x0160 0) s1
    let s3 := (s2.settleGathers slot j.step .internal 0x0160 false).endStep slot
    if j.site = .safing then s3.park slot else s3

/-- Tell the coordinator that this member has unbound the group (R308). -/
def State.tellUnbound (s : State) (fjob : Nat) (g : Group) : State :=
  let c := g.memberOf 0
  if c = s.fabric.mod then s.memberGone fjob g.num c else s.sendBind c fjob (.vcRelease fjob g.num (g.vc.getD 0))

/-- A group is unbound on this member at once (R308). [Log entry 75: DEDUCED] -/
def State.unbindGroup (s : State) (slot : Nat) (g : Group) : State :=
  let fjob := (s.job slot).fjob
  let mine := s.works.filter fun w =>
    w.slot == some slot && isCollective w.pkt.opcode && !w.pkt.declares && w.pkt.group == g.num
  let s1 := mine.foldl (fun s w => (s.raise slot .internal 0x0160).endWork w .internal 0x0160 0 (quiet := true)) s
  let s2 := if g.num = 0 then s1.abandonCommit slot else s1
  let s3 := (List.range 64).foldl (fun s t => match s.run t with
    | some u => if u.fjob = fjob && u.group = g.num then s.endRun t u else s
    | none => s) s2
  let s4 := { s3 with tagUses := s3.tagUses.filter fun t => !(t.fjob == fjob && t.group == g.num)
                      rowanEarly := s3.rowanEarly.filter fun f => !(f.jobLo == fjob % 65536 && f.group == g.num) }
  let s5 := (s4.dropMark fjob g.num 0).modJob slot fun j => { j with groups := j.groups.filter fun x => x.num != g.num }
  s5.tellUnbound fjob g

/-- GROUP_UNBIND. -/
def State.groupUnbind (w : Work) (s : State) : State :=
  let j := w.slot.getD 0
  match s.group j w.pkt.group with
  | none => s.complete w.pid .done 0 0
  | some g => (s.unbindGroup j g).complete w.pid .done 0 0

def execGroupUnbind (dt pid : Nat) (s : State) : Host.Outcome State Fault Refusal := run dt (onHanded pid [0x51] State.groupUnbind) s

end Sys2Proof.Machine
end

