-- ==== Sys2Proof/Machine/Jobs.lean ====
section
/-! DEFINITION. Jobs: opening and closing, phase marks, safe points and SITE_ALERT, and the writes of a job's own registers
(03_commands.md R70, R79; 13_mapping_jobs.md R375, R382 to R388; 15_power.md R431; 04 R108; 12 R338). -/

namespace Sys2Proof.Machine

/-! ## JOB_OPEN (R70) -/

/-- SITE_ALERT is acted on and asserted now: a job opened is parked at once (R383). [Log entry 91: DEDUCED] -/
def SiteAlert.holds (a : SiteAlert) : Bool := a.enable && a.asserted

/-- A job slot as JOB_OPEN leaves it: its register sets at their reset values (R107, R368, R375, R417, R431, R432). -/
def Packet.newJob (p : Packet) (parked : Bool) : Job :=
  { opened := true, fjob := fld (p.par 0) 0 32, seed := p.par 1, ramp := fld (p.par 2) 0 2, keep3 := bitOf (p.par 2) 8
    site := if parked then .parked else .running }

/-- Nothing of an earlier job of the slot is left. -/
def State.forgetSlot (s : State) (slot : Nat) : State :=
  { s with
    itemMaps := s.itemMaps.filter fun m => m.slot != slot
    gathered := s.gathered.filter fun g => g.slot != slot
    ramps := s.ramps.filter fun r => r.slot != slot
    rel := { s.rel with wrote := s.rel.wrote.filter (fun e => e.slot != slot), samples := s.rel.samples.filter (fun x => x.slot != slot)
                        coreTests := s.rel.coreTests.map fun c => { c with gens := c.gens.mapIdx fun i g => if i = slot then none else g } }
    power := { s.power with profiles := s.power.profiles.filter fun f => f.slot != slot } }

/-- JOB_OPEN opens the lowest-numbered free slot. -/
def State.openJob (w : Work) (s : State) : State :=
  match (List.range 4).find? fun j => !(s.job j).opened with
  | none => s.complete w.pid .noResource 0x0002 0
  | some j => ((s.forgetSlot j).modJob j fun _ => w.pkt.newJob s.site.holds).complete w.pid .done 0 j

def execJobOpen (dt pid : Nat) (s : State) : Host.Outcome State Fault Refusal := run dt (onHanded pid [0x70] State.openJob) s

/-! ## JOB_CLOSE (R79, R214, R258, R308) -/

/-- The job's slot is free: its tensors, shards and rules are gone; its registers stay until JOB_OPEN. -/
def State.freeSlot (s : State) (slot : Nat) : State :=
  let ts := s.tensors.filter fun t => t.slot == slot
  let s1 := ts.foldl State.releaseTensor s
  let s2 := { s1 with shards := s1.shards.filter fun h => h.slot != slot }
  ((s2.drainBoundary slot).forgetSlot slot).modJob slot fun j =>
    { j with opened := false, closing := false, fjob := 0, rules := [], site := .running, groups := [], scales := [], buckets := []
             commit := {}, records := [], lanes := List.replicate 7 none, fails := []
             shadow := { j.shadow with copy := none, asking := none } }

/-- JOB_CLOSE unbinds every group, ends a shadow copy without a record, and completes once every other packet of the job has.
[Log entry 90: DEDUCED] -/
def State.closeJob (w : Work) (s : State) : State :=
  let j := w.slot.getD 0
  let s1 := ((s.job j).groups.foldl (fun s g => s.unbindGroup j g) s).dropCopy j
  if s1.works.any fun v => v.slot == some j && v.pid != w.pid then s1
  else (s1.freeSlot j).complete w.pid .done 0 0

def execJobClose (dt pid : Nat) (s : State) : Host.Outcome State Fault Refusal := run dt (onHanded pid [0x71] State.closeJob) s

/-! ## PHASE_MARK (R45, R78, R431) -/

/-- The first phase boundary strictly later than a packet's stamp, or than its dispatch when that boundary had passed. -/
def State.nextBoundary (s : State) (stamp dispFt : Nat) : Nat :=
  let p := max 1 s.ft.phasePeriod
  let b := (stamp / p + 1) * p
  if b ≤ dispFt then (dispFt / p + 1) * p else b

/-- A packet is booked for its phase boundary. -/
def State.bookBoundary (w : Work) (s : State) : State :=
  s.modWork w.pid fun v => { v with stage := .waiting, due := s.nextBoundary w.pkt.stamp w.dispFt }

def execPhaseMark (dt pid : Nat) (s : State) : Host.Outcome State Fault Refusal := run dt (onHanded pid [0x72] State.bookBoundary) s

/-! ## Safe points (R382 to R388) -/

/-- The safe-point limit in ns. -/
def SiteAlert.limitNs (a : SiteAlert) : Nat := a.limitMs * 1000000

/-- A job enters safing, or brings its safe deadline forward; a parked job stays parked (R383). -/
def Job.safing (j : Job) (t : Nat) : Job :=
  match j.site with
  | .running => { j with site := .safing, safeT := t }
  | .safing => { j with safeT := min j.safeT t }
  | .parked => j

/-- SAFE_POINT: a parked job answers at once, another enters safing (R383, R385). -/
def State.safePoint (w : Work) (s : State) : State :=
  let j := w.slot.getD 0
  if (s.job j).site = .parked then s.complete w.pid .done 0 ((s.job j).stp.gen % 2 ^ 32)
  else
    let t := min (max w.pkt.stamp (w.pkt.par 0).toNat) (w.pkt.stamp + s.site.limitNs)
    ((s.modWork w.pid fun v => { v with stage := .waiting }).modJob j fun b => b.safing t).alertTests

def execSafePoint (dt pid : Nat) (s : State) : Host.Outcome State Fault Refusal := run dt (onHanded pid [0x76] State.safePoint) s

/-- SITE_ALERT has been asserted for 1 µs: its stamp is the first asserted sample, and every open job that runs or is safing
takes its deadline (R382, R383). While ENABLE is 0 the assertion is recognised and not acted on. [Log entry 91: DEDUCED] -/
def opSiteAlertAssert (s : State) : State :=
  if !s.registersRun || s.site.asserted then s
  else
    let stamp := s.ftNow - 1000
    let a := { s.site with asserted := true, latched := true, stamp := stamp }
    let s1 : State := { s with site := a }
    if !a.enable then s1.alertTests
    else
      let t := stamp + a.limitNs
      ((List.range 4).foldl (fun s j => if (s.job j).opened then s.modJob j fun b => b.safing t else s) s1).alertTests

def execSiteAlertAssert (dt : Nat) (s : State) : Host.Outcome State Fault Refusal := run dt opSiteAlertAssert s

def execSiteAlertDeassert (dt : Nat) (s : State) : Host.Outcome State Fault Refusal :=
  run dt (fun s => { s with site := { s.site with asserted := false } }) s

/-- T of a safing job: bucket deadlines that have come by T are judged first (R389); a member that has not voted votes with lane 6
holding T; without a commit group the job parks (R384). -/
def opSafeDeadline (slot : Nat) (s : State) : State :=
  let j := s.job slot
  if !j.opened || j.site ≠ .safing || s.ftNow < j.safeT then s
  else match s.group slot 0 with
    | none => (s.judgeBuckets slot j.safeT).park slot
    | some _ => if j.commit.voted then s else State.rowanDone (((s.judgeBuckets slot j.safeT).raiseAt slot .internal j.safeT 0x0180).joinVote slot)

/-- A write of RELEASE bits: parked jobs run again, unless SITE_ALERT is asserted (R387). -/
def opSaRelease (mask : Nat) (s : State) : State :=
  if s.site.asserted then s
  else (List.range 4).foldl (fun s j =>
    if mask.testBit j && (s.job j).site = .parked then s.modJob j fun b => { b with site := .running, safeT := 0 } else s) s

def execSaRelease (dt mask : Nat) (s : State) : Host.Outcome State Fault Refusal := run dt (whenRegisters (opSaRelease mask)) s

/-! ## Writes of a job's register sets -/

/-- A write of JNS_STATUS (R108). -/
def opJnsStatusWrite (slot : Nat) (v : Word) (s : State) : State := s.modJob slot fun j => { j with num := j.num.clear v }

def execJnsStatusWrite (dt slot : Nat) (value : Word) (s : State) : Host.Outcome State Fault Refusal :=
  runPart "slot" slot 4 dt (whenRegisters (opJnsStatusWrite slot value)) s

/-- A write of JSC_GEN while GEN_OPEN is 1: the job resumes at that generation, which alone is retained (R338). [Log entry 89: DEDUCED] -/
def opJscGenWrite (slot : Nat) (v : Word) (s : State) : State :=
  if !(s.job slot).stp.genOpen then s
  else ({ s with shards := updAll (fun h : Shard => h.slot == slot) (fun h => { h with kept := 1 }) s.shards } : State).modJob slot fun j =>
    { j with stp := { j.stp with gen := v.toNat }, kept := 1 }

def execJscGenWrite (dt slot : Nat) (value : Word) (s : State) : Host.Outcome State Fault Refusal :=
  runPart "slot" slot 4 dt (whenRegisters (opJscGenWrite slot value)) s

/-- JSH_CTRL's fields other than ENABLE as a write leaves them (R375). -/
def ShadowSet.written (h : ShadowSet) (v : Word) : ShadowSet :=
  { h with
    content := if fld v 1 2 = 3 then h.content else fld v 1 2
    stall := bitOf v 3
    fabric := bitOf v 4
    every := if fld v 8 16 = 0 then h.every else fld v 8 16
    rate := if fld v 24 10 = 0 then h.rate else fld v 24 10 }

/-- A write of JSH_CTRL (R375, R524): while ENABLE is 1 only ENABLE is written; setting it starts the stream, or sets CFG_ERR. -/
def opShadowEnable (slot : Nat) (v : Word) (s : State) : State :=
  let h := (s.job slot).shadow
  if h.enable then
    if bitOf v 0 then s else (s.dropCopy slot).modJob slot fun j => { j with shadow := { j.shadow with enable := false } }
  else if 512 < fld v 24 10 then s
  else
    let h1 := h.written v
    let bad := h1.base.toNat % 65536 ≠ 0 || h1.bytes < s.shadowBytes slot h1.content
    let h2 := if !bitOf v 0 then h1 else if bad then { h1 with cfgErr := true }
      else { h1 with enable := true, records := 0, lastRec := none }
    s.modJob slot fun j => { j with shadow := h2 }

def execShadowEnable (dt slot : Nat) (value : Word) (s : State) : Host.Outcome State Fault Refusal :=
  runPart "slot" slot 4 dt (whenRegisters (opShadowEnable slot value)) s

end Sys2Proof.Machine
end

