-- ==== Sys2Proof/Machine/PowerControl.lean ====
section
/-! DEFINITION. Power, current limits and thermal control (15_power.md R421 to R444). -/

namespace Sys2Proof.Machine

/-- Change the power block. -/
def State.modPower (s : State) (f : Power → Power) : State := { s with power := f s.power }

/-- Change a tile's power state. -/
def State.modPTile (s : State) (t : Nat) (f : PTile → PTile) : State := s.modPower fun p => { p with tiles := vmod p.tiles t f }

/-- A tile's power state. -/
def State.ptile (s : State) (t : Nat) : PTile := vget s.power.tiles t

/-- The clocks run: the module has power and no module-scope reset holds it. -/
def State.clocksRun (s : State) : Bool := s.boot.powered && !s.boot.inReset

/-- An operation that acts while the clocks run. -/
def whenClocks (op : State → State) (s : State) : State := if s.clocksRun then op s else s

/-! ## Profiles (R436, R437) -/

/-- A profile has this key: job slot, phase, operating point, core band, temperature band, on a tile. -/
def Profile.is (f : Profile) (t : Nat) (k : Nat × Nat × Nat × Nat × Nat) : Bool :=
  f.tile == t && (f.slot, f.phase, f.op, f.band, f.tband) == k

/-- The profile of a key. -/
def Power.profile (p : Power) (t : Nat) (k : Nat × Nat × Nat × Nat × Nat) : Option Profile := p.profiles.find? fun f => f.is t k

/-- The profile of a key, where it is valid. -/
def Power.validProfile (p : Power) (t : Nat) (k : Nat × Nat × Nat × Nat × Nat) : Option Profile :=
  (p.profile t k).filter fun f => decide (p.learnPeriods ≤ f.periods)

/-- Discard the profile in use on a tile (R437). -/
def Power.discardInUse (p : Power) (t : Nat) : Power :=
  let x := vget p.tiles t
  match x.learnt, x.key with
  | true, some k =>
    { p with profiles := p.profiles.filter (fun f => !f.is t k), discards := satInc 16 p.discards
             tiles := vmod p.tiles t fun y => { y with learnt := false } }
  | _, _ => p

/-- A period counts toward a key: its profile learns the peak; the least recently used of 512 per tile and job gives way.
[Log entry 99: DEDUCED] -/
def Power.learn (p : Power) (t : Nat) (k : Nat × Nat × Nat × Nat × Nat) (peak : Nat) : Power :=
  let p1 := { p with useClock := p.useClock + 1 }
  match p.profile t k with
  | some _ =>
    let learnt (f : Profile) : Profile := { f with periods := min 255 (f.periods + 1), peak := max f.peak peak, used := p.useClock }
    { p1 with profiles := updFirst (fun f => f.is t k) learnt p.profiles }
  | none =>
    let mine (f : Profile) : Bool := f.tile == t && f.slot == k.1
    let kept := if (p.profiles.filter mine).length < 512 then p.profiles else
      match argMin (fun f : Profile => f.used) (p.profiles.filter mine) with
      | some o => p.profiles.filter fun f => f != o
      | none => p.profiles
    let fresh : Profile := { slot := k.1, tile := t, phase := k.2.1, op := k.2.2.1, band := k.2.2.2.1, tband := k.2.2.2.2
                             periods := 1, peak := peak, used := p.useClock }
    { p1 with profiles := kept ++ [fresh] }

/-- A profile is used: it governs its tile (R436). -/
def Power.touch (p : Power) (t : Nat) (k : Nat × Nat × Nat × Nat × Nat) : Power :=
  { p with useClock := p.useClock + 1, profiles := updFirst (fun f => f.is t k) (fun f => { f with used := p.useClock }) p.profiles }

/-- The cores of a tile that hold items of any job. -/
def State.holdingCores (s : State) (t : Nat) : List Nat :=
  ((s.works.flatMap fun w => (w.items.filter fun i => !i.finished).filterMap fun i => i.core).filter fun g => g / 16 == t).eraseDups

/-- The active-core band: 0 for 1 to 4 cores, up to 3 for 13 to 16; none without a core (R436). -/
def State.coreBand (s : State) (t : Nat) : Option Nat :=
  let n := (s.holdingCores t).length
  if n = 0 then none else some ((n - 1) / 4)

/-- The temperature band of a tile's hottest junction sensor (R436). -/
def tempBand (c : Int) : Nat := if c < 60 then 0 else if c < 75 then 1 else if c < 90 then 2 else 3

/-- The jobs with items running or staged on a tile. -/
def State.tileJobs (s : State) (t : Nat) : List Nat :=
  (List.range 4).filter fun j => s.works.any fun w => w.slot == some j && w.items.any fun i =>
    !i.finished && match i.core with
      | some g => g / 16 == t
      | none => false

/-- A job's preference for its current phase (R432). -/
def Job.preference (j : Job) : Nat := (kvGet j.prefs j.phase).getD 0

/-- The wanted operating point of a tile, and the job that gives it (R433, R438). -/
def State.wanted (s : State) (t : Nat) : Nat × Option Nat :=
  match argMin (fun j => (s.job j).preference) (s.tileJobs t) with
  | some j => ((s.job j).preference, some j)
  | none => (7, none)

/-- The key of a tile at an operating point. -/
def State.tileKey (s : State) (t op : Nat) : Option (Nat × Nat × Nat × Nat × Nat) :=
  match (s.wanted t).2, s.coreBand t with
  | some j, some b => some (j, (s.job j).phase, op, b, tempBand (s.hottest t))
  | _, _ => none

/-! ## Allocation (R438) -/

/-- What a tile needs at an operating point, in hundredths of a dW, and whether a valid profile says so. -/
def State.needOf (s : State) (t op : Nat) : Nat × Bool :=
  let p := s.power
  match (if p.learnEn then (s.tileKey t op).bind (p.validProfile t) else none) with
  | some f => (f.peak * (100 + p.profilePct), true)
  | none => (Config.fullDw op * (100 + p.staticPct), false)

/-- The compute cap in W (R434). -/
def Power.computeCap (p : Power) : Nat := p.cap - 1088

/-- One tile in the allocation: number, operating point, need. -/
abbrev Alloc := Nat × Nat × Nat

/-- The tile that gives way: the largest need among those not at OP7, lowest number first. -/
def largestNeed (as : List Alloc) : Option Alloc :=
  (as.filter fun a => a.2.1 < 7).foldl (fun b a => match b with
    | none => some a
    | some c => if c.2.2 < a.2.2 then some a else b) none

/-- Lower tiles until their needs fit the compute cap (R438); each of 32 tiles can be lowered at most seven times. -/
def State.lowerTiles (s : State) : Nat → List Alloc → List Alloc
  | 0, as => as
  | fuel + 1, as =>
    if (as.map fun a => a.2.2).foldl (· + ·) 0 ≤ s.power.computeCap * 1000 then as
    else match largestNeed as with
      | none => as
      | some (t, op, _) => s.lowerTiles fuel (as.map fun a => if a.1 = t then (t, op + 1, (s.needOf t (op + 1)).1) else a)

/-- The operating point that a tile takes: at once when it is slower, once VCORE has settled when it is faster (R430). -/
def PTile.steerTo (x : PTile) (target : Nat) : PTile :=
  if x.op < target then { x with op := target, settling := none, spoilt := true }
  else if target < x.op then { x with settling := some target }
  else { x with settling := none }

/-- The slower of the allocated point and the thermal floor (R438). -/
def PTile.target (x : PTile) : Nat := max x.alloc x.floor

/-- Allocate every tile's operating point and budget. [Log entry 99: DEDUCED] -/
def State.allocate (s : State) : State :=
  let start := (List.range 32).map fun t => (t, (s.wanted t).1, (s.needOf t (s.wanted t).1).1)
  (s.lowerTiles 224 start).foldl (fun s (t, op, need) =>
    let (key, learnt) := (s.tileKey t op, (s.needOf t op).2)
    let s1 := match key, learnt with
      | some k, true => s.modPower fun p => p.touch t k
      | _, _ => s
    s1.modPTile t fun x =>
      let y : PTile := { x with alloc := op, budget := need / 100, learnt := learnt }
      let z := y.steerTo y.target
      { z with spoilt := false, key := if z.op = op then key else none }) s

/-! ## The phase boundary (R45, R430 to R438) -/

/-- The period that ended, judged on one tile: a profile that its core share exceeded is discarded, another period counts
toward the key that held throughout. -/
def State.judgePeriod (s : State) (peaks : List Nat) (t : Nat) : State :=
  let x := s.ptile t
  let peak := lget peaks t 0
  match x.key with
  | none => s
  | some k =>
    let excess := match s.power.profile t k with
      | some f => x.learnt && f.peak * (100 + s.power.profilePct) < peak * 100
      | none => false
    if excess || (x.learnt && s.power.overTiles.contains t) then s.modPower fun p => p.discardInUse t
    else if s.power.learnEn && !x.spoilt && x.op = k.2.2.1 && s.coreBand t = some k.2.2.2.1 then s.modPower fun p => p.learn t k peak
    else s

/-- The thermal floor is lowered by one operating point at once; where that lowers the tile's operating point, a test on the
tile ends (R414, R439). -/
def State.lowerFloor (s : State) (t : Nat) : State :=
  let old := s.ptile t
  let s1 := s.modPTile t fun x =>
    let y : PTile := { x with floor := min 7 (x.floor + 1), spoilt := true }
    if y.op < y.target then { y with op := y.target } else y
  let s2 := s1.modPower fun p => { p with thermEvt := true, throttles := satInc 16 p.throttles }
  if (s2.ptile t).op = old.op then s2 else s2.stopTests fun g => g / 16 == t

/-- A tile's stack sensor reads a temperature: at 95 °C the tile's DRAM runs at half rate with doubled refresh, and at 90 °C full rate
resumes (R440). -/
def State.readStack (s : State) (t : Nat) (temp : Int) : State :=
  let x := s.ptile t
  let hot := decide (95 ≤ temp) || (x.stackHot && decide (90 < temp))
  let s1 := s.modPTile t fun x => { x with stackC := temp, stackHot := hot, spoilt := x.spoilt || (hot && !x.stackHot) }
  if hot && !x.stackHot then s1.modPower fun p => { p with thermEvt := true } else s1

/-- Some of a tile's junction sensors are read, of which one may reach 105 °C: that lowers the floor (R439). -/
def State.readJunctions (s : State) (t : Nat) (reach : Bool) (read : Nat → Int → Int) : State :=
  let s1 := s.modPTile t fun x => { x with sensors := x.sensors.mapIdx read }
  if reach && !(s.ptile t).sensors.any fun c => decide (105 ≤ c) then s1.lowerFloor t else s1

/-- A tile's sensors as read at the boundary: nine readings a tile, the last the stack's. [Log entry 100: DEDUCED] -/
def State.readSensors (s : State) (temps : List Nat) (t : Nat) : State :=
  let s1 := s.readJunctions t (((temps.drop (t * 9)).take 8).any fun v => decide (105 ≤ v)) fun i c => ((temps[t * 9 + i]?).map fun v => (v : Int)).getD c
  match temps[t * 9 + 8]? with
  | some v => s1.readStack t v
  | none => s1

/-- The thermal floor rises by one point once every junction sensor is at or below 100 °C (R439). [Log entry 100: DEDUCED] -/
def PTile.riseFloor (x : PTile) : PTile :=
  if x.sensors.all fun c => decide (c ≤ 100) then { x with floor := x.floor - 1 } else x

/-- A pending PHASE_MARK, OP_PREFER or CAP_SET takes effect at the boundary `b` and replies (R431, R432, R434). -/
def State.takeBooked (b : Nat) (s : State) (w : Work) : State :=
  let j := w.slot.getD 0
  let p := w.pkt
  if p.opcode = 0x72 then (s.modJob j fun q => { q with phase := fld (p.par 0) 0 8 }).completeAt w.pid .done b 0 0
  else if p.opcode = 0x80 then
    let op := fld (p.par 1) 0 3
    (s.modJob j fun q => { q with prefs := kvPut q.prefs (fld (p.par 0) 0 8) (if op = 0 then none else some op) }).completeAt w.pid
      .done b 0 0
  else
    let cap := max 2400 (min 4800 (fld (p.par 0) 0 13))
    (s.modPower fun q => { q with cap := cap }).completeAt w.pid .done b 0 cap

/-- A phase boundary: the ended period is judged, booked changes take effect, and the tiles' operating points are allocated.
[Log entry 98: DESIGN CHOICE] -/
def opPhaseBoundary (peaks temps : List Nat) (s : State) : State :=
  let per := max 1 s.ft.phasePeriod
  if !s.ftRuns || !s.onGrid per then s
  else
    let b := s.ftNow / per * per
    let s1 := (List.range 32).foldl (fun s t => s.judgePeriod peaks t) s
    let s2 := s1.modPower fun p => { p with overTiles := [] }
    let due := s2.works.filter fun w =>
      w.stage == .waiting && (w.pkt.opcode == 0x72 || w.pkt.opcode == 0x80 || w.pkt.opcode == 0x81) && w.due ≤ b
    let s3 := due.foldl (State.takeBooked b) s2
    let s4 := (List.range 32).foldl (fun s t => s.readSensors temps t) s3
    ((List.range 32).foldl (fun s t => s.modPTile t PTile.riseFloor) s4).allocate

/-- The first detail that rejects OP_PREFER (R75, R444). -/
def preferDetail (p : Packet) : Option Nat :=
  let ph := (p.par 0).toNat
  minDetail [failIf (256 ≤ ph || 8 ≤ (p.par 1).toNat) 0x0002, failIf (4 ≤ ph % 256 && ph % 256 ≤ 15) 0x01A0]

/-- The first detail that rejects PHASE_MARK. -/
def phaseDetail (p : Packet) : Option Nat :=
  let ph := (p.par 0).toNat
  minDetail [failIf (256 ≤ ph) 0x0002, failIf (4 ≤ ph % 256 && ph % 256 ≤ 15) 0x01A0]

def execOpPrefer (dt pid : Nat) (s : State) : Host.Outcome State Fault Refusal := run dt (onHanded pid [0x80] State.bookBoundary) s

def execCapSet (dt pid : Nat) (s : State) : Host.Outcome State Fault Refusal := run dt (onHanded pid [0x81] State.bookBoundary) s

/-- VCORE has settled at the higher voltage: the tile's clock changes (R430). -/
def opVcoreSettled (t : Nat) (s : State) : State :=
  match (s.ptile t).settling with
  | none => s
  | some k => s.modPTile t fun x => { x with op := max k x.floor, settling := none, spoilt := true }

def execVcoreSettled (dt tile : Nat) (s : State) : Host.Outcome State Fault Refusal :=
  runPart "tile" tile 32 dt (whenClocks (opVcoreSettled tile)) s

/-! ## Rails (R422 to R424) -/

/-- A rail reaches its limit: the tile's clock or its DRAM rate is halved, a VLINK event is recorded; the profile in use is
discarded, and a test on the tile ends (R414, R423, R437). -/
def opRailLimit (r : Rail) (t : Nat) (s : State) : State :=
  let s1 := s.modPower fun p => { p with railEvt := true, railCount := satInc 16 p.railCount }
  match r with
  | .vlink => s1.modPower fun p => { p with vlinkEvt := true }
  | .vcore => (((s1.modPTile t fun x => { x with vcoreEvt := true, spoilt := true }).modPower fun p => p.discardInUse t)).stopTests fun g => g / 16 == t
  | .vsram => (((s1.modPTile t fun x => { x with vsramEvt := true, spoilt := true }).modPower fun p => p.discardInUse t)).stopTests fun g => g / 16 == t
  | .vstack => (s1.modPTile t fun x => { x with vstackEvt := true, spoilt := true }).modPower fun p => p.discardInUse t

def execRailLimit (dt : Nat) (rail : Rail) (tile : Nat) (s : State) : Host.Outcome State Fault Refusal :=
  runPart "tile" tile 32 dt (whenClocks (opRailLimit rail tile)) s

/-- The rail's average has stayed at or below 90 % of its limit for 5 µs: its action ends (R423). -/
def opRailRelease (r : Rail) (t : Nat) (s : State) : State :=
  match r with
  | .vlink => s
  | .vcore => s.modPTile t fun x => { x with vcoreEvt := false }
  | .vsram => s.modPTile t fun x => { x with vsramEvt := false }
  | .vstack => s.modPTile t fun x => { x with vstackEvt := false }

def execRailRelease (dt : Nat) (rail : Rail) (tile : Nat) (s : State) : Host.Outcome State Fault Refusal :=
  runPart "tile" tile 32 dt (whenClocks (opRailRelease rail tile)) s

/-! ## Temperatures (R439, R440) -/

/-- A junction sensor reads a temperature (R439). -/
def opJunctionHot (t sensor : Nat) (temp : Int) (s : State) : State :=
  s.readJunctions t (decide (105 ≤ temp)) fun i c => if i = sensor % 8 then temp else c

def execJunctionHot (dt tile sensor : Nat) (temp : Int) (s : State) : Host.Outcome State Fault Refusal :=
  runPart "tile" tile 32 dt (whenClocks (opJunctionHot tile sensor temp)) s

/-- Another 100 µs with a junction sensor at or above 105 °C (R439). -/
def opThermalFloorTimer (t : Nat) (s : State) : State :=
  if (s.ptile t).sensors.any fun c => decide (105 ≤ c) then s.lowerFloor t else s

def execThermalFloorTimer (dt tile : Nat) (s : State) : Host.Outcome State Fault Refusal :=
  runPart "tile" tile 32 dt (whenClocks (opThermalFloorTimer tile)) s

/-- The stack sensor reads a temperature as it rises (R440). -/
def execStackHot (dt tile : Nat) (temp : Int) (s : State) : Host.Outcome State Fault Refusal :=
  runPart "tile" tile 32 dt (whenClocks fun s => s.readStack tile temp) s

/-- The stack sensor reads a temperature as it falls (R440). -/
def execStackCool (dt tile : Nat) (temp : Int) (s : State) : Host.Outcome State Fault Refusal :=
  runPart "tile" tile 32 dt (whenClocks fun s => s.readStack tile temp) s

/-! ## PROFILE_CLEAR (R436) -/

/-- Every profile is discarded. -/
def opProfileClear (s : State) : State :=
  s.modPower fun p => { p with profiles := [], tiles := p.tiles.map fun x => { x with learnt := false } }

def execProfileClear (dt : Nat) (s : State) : Host.Outcome State Fault Refusal := run dt (whenRegisters opProfileClear) s

end Sys2Proof.Machine
end

