-- ==== Sys2Proof/Machine/Reset.lean ====
section
/-! DEFINITION. Resets: their sources, the scopes and what each clears, and the start that follows a module-scope reset
(16_reset_boot.md R446 to R451, R455 to R457, R463 to R465; 17_security.md R490, R496). -/

namespace Sys2Proof.Machine

/-- The place of a source in the order of R447: the lower ranks first. -/
def ResetSource.rank : ResetSource → Nat
  | .tamper => 0 | .powerOn => 1 | .thermalTrip => 2 | .watchdog => 3 | .perst => 4 | .fabricManager => 5 | .resetScope => 6

/-- RST_CAUSE.SOURCE (R463). -/
def ResetSource.code : ResetSource → Nat
  | .powerOn => 0 | .perst => 1 | .resetScope => 2 | .fabricManager => 3 | .watchdog => 4 | .thermalTrip => 5 | .tamper => 6

/-- Change the reset and boot block. -/
def State.modBoot (s : State) (f : Boot → Boot) : State := { s with boot := f s.boot }

/-! ## What a module-scope reset clears (R448) -/

/-- The standing of a unit whose retirement was pending: 3 when a command retired it, otherwise 2 (R408). -/
def Rel.settled (r : Rel) (x : UnitSt) : UnitSt :=
  if x.st = 4 then { x with st := if r.hist.any fun e => e.unit == x.unit && e.mech == 12 then 3 else 2 } else x

/-- The page maps of R200, their words written anew: a logical page whose default physical page is retired is unbacked. -/
def State.freshMaps (s : State) : State :=
  let fresh (s : State) (t : Nat) : State := let k := placeKey (.shared t (0x3D80000 / 8)); s.eraseKeys k (k + 196608)
  let unback (s : State) (t c p : Nat) : State := s.setPageEntry t (c + 32 * p) { defaultEntry t (c + 32 * p) with backed := false }
  s.rel.units.foldl (fun s x =>
    if x.st < 2 then s
    else match x.unit with
      | .page t c p => unback s t c p
      | .channel t c => (List.range 12288).foldl (fun s p => unback s t c p) s
      | _ => s) ((List.range 32).foldl fresh { s with pageMap := [] })

/-- A link after a module-scope reset: DOWN, or OFF where it is retired (R415, R448). -/
def Link.afterReset (l : Nat) (k : Link) : Link :=
  { Link.reset l with retired := k.retired, st := if k.retired then .off else .down }

/-- Reliability after a module-scope reset: unit history, retired units, test verdicts and OPH are kept (R406, R448). -/
def Rel.afterReset (r : Rel) : Rel :=
  let kept : Rel := { hist := r.hist, units := r.units.map r.settled, ophNs := r.ophNs, outCores := r.outCores }
  { kept with coreTests := r.coreTests.map fun c => { c with gens := [none, none, none, none] }
              nextWindow := r.nextWindow, nextSample := r.nextSample }

/-- Security after a module-scope reset: keys in the non-volatile store and the fuses are kept, sessions end, the access tables
are those of R490, JTAG is locked (R469, R490, R495, R517). -/
def Sec.afterReset (c : Sec) : Sec :=
  { officer := c.officer, fmKey := c.fmKey, fmCounter := c.fmCounter, svn := c.svn, tamperCode := c.tamperCode
    nextSession := c.nextSession, endpoint := c.endpoint }

/-- The host link after a module-scope reset; writes already posted go out while the link allows, and others are lost.
[Log entry 104: DEDUCED] -/
def State.cxlAfterReset (s : State) : CxlSt :=
  { s.cxl with linkUp := true, bme := true, d3 := false, held := if s.cxlOpen then s.cxl.held else []
               msixHeld := if s.cxlOpen then s.cxl.msixHeld else [] }

/-- Everything that a module-scope reset clears, beside the reset and boot block (R448). [Log entry 104: DEDUCED] -/
def State.clearModule (s : State) : State :=
  let s1 : State := { State.reset with
    pending := s.pending, uptime := s.uptime, nextPid := s.nextPid, freeCount := s.freeCount, nextTag := s.nextTag
    lastData := s.lastData, mem := s.mem, stores := s.stores, hostMem := s.hostMem
    ft := { refPresent := s.ft.refPresent, syncPulses := s.ft.syncPulses }
    links := Vector.ofFn fun l : Fin 18 => (vget s.links l.val).afterReset l.val
    rel := s.rel.afterReset, boot := s.boot, sec := s.sec.afterReset, cxl := s.cxlAfterReset }
  s1.freshMaps.eraseKeys coreBase keyEnd

/-- What power-on and tamper clear in addition: DRAM contents, and at power-on the contents of every memory (R448). -/
def State.loseMemory (s : State) (src : ResetSource) : State :=
  match src with
  | .powerOn => s.eraseKeys 0 keyEnd
  | .tamper => s.eraseKeys 0 sharedBase
  | _ => s

/-- The retained state put to 0, at power-on and tamper (R455). -/
def Boot.clearRetained (b : Boot) : Boot :=
  { b with bkp := Vector.replicate 16 0, sram := [], recovery := false, causeStall := 0, causeFt := 0, localScope := 0
           localSource := 0, localTile := 0, localCore := 0, failedStarts := 0 }

/-- Zeroisation (R496): keys, sessions and streams go, and the access tables are those of R490. -/
def Sec.zeroised (c : Sec) : Sec :=
  { c with tables := [], officer := none, fmKey := none, fmCounter := 0, sessions := [], ideIo := false, ideCm := false
           keys := false, drbg := false }

/-! ## A start (R451, R456, R457) -/

/-- Sloe mode for a reason (R457). -/
def Boot.enterSloe (b : Boot) (reason : Nat) : Boot :=
  { b with sloe := true, reason := reason, bringup := false, bringupDone := false }

/-- The exit from a module-scope reset: failed starts are counted, and a strap may ask for Sloe mode; a recovery boot goes on
where BOOT_SRC asks for recovery (R451, R456, R458). [Log entry 101: DEDUCED] -/
def Boot.begin_ (b : Boot) (now : Nat) : Boot :=
  let b1 := { b with inReset := false, bringup := true, step := 1, releasedAt := now }
  if b1.failedStarts = 3 then b1.enterSloe 1
  else
    let b2 := { b1 with failedStarts := b1.failedStarts + 1 }
    if b2.strapSrc = 3 && !b2.recovery then b2.enterSloe 2
    else if b2.strapClk = 3 then b2.enterSloe 3
    else b2

/-- A start's keys are derived and the random bit generator is seeded (R469), and the alias certificate is issued: it carries the fused
SVN and the measurement of the security section that the start runs (R475). [Log entry 137: DEDUCED] -/
def State.issueAlias (s : State) : State :=
  let a := (s.sec.svn, Config.shake256 (Config.securitySection s.boot.booted.bytes))
  { s with sec := { s.sec with alias_ := some a, keys := true, drbg := true } }

/-- The speed in GT/s and the width that the host link trains to: any that R503 lists. [Log entry 133: DESIGN CHOICE] -/
def State.trainCxl (s : State) : State :=
  let (a, s1) := s.free
  let (b, s2) := s1.free
  { s2 with cxl := { s2.cxl with speed := lget [64, 32, 16] (a % 3) 64, width := lget [8, 4, 2, 1] (b % 4) 8 } }

/-- The reset is released once neither PERST# nor THERMTRIP_N holds it, and the host link trains (R447, R504, R515). -/
def State.release_ (s : State) : State :=
  if s.boot.powered && s.boot.inReset && !s.boot.perstLow && !s.boot.thermtrip then
    let s1 := s.trainCxl.modBoot fun b => b.begin_ s.uptime
    if s1.boot.sloe then s1.issueAlias else s1
  else s

/-- The straps are sampled as their pins stand (R451). [Log entry 101: DEDUCED] -/
def Boot.sample (b : Boot) : Boot := { b with strapSrc := b.pinSrc, strapClk := b.pinClk }

/-- The levels of the strap pins, sampled while the reset lasts. [Log entry 101: DEDUCED] -/
def Boot.straps (b : Boot) (bootSrc clkMode : Nat) : Boot := ({ b with pinSrc := bootSrc % 4, pinClk := clkMode % 4 } : Boot).sample

/-! ## Module scope (R446 to R448) -/

/-- The reset and boot block as a module-scope reset leaves it: the cause that ranks first, TRIAL ended by a watchdog reset, no
image staged, the straps sampled (R447, R448, R461, R463). -/
def Boot.hold (b : Boot) (src : ResetSource) (ft stall : Nat) (recovery : Bool) : Boot :=
  let b0 := if src = .powerOn || src = .tamper then b.clearRetained else b
  let b1 := if b.inReset && b.causeSource.rank ≤ src.rank then b0
    else { b0 with causeSource := src, causeFt := ft % 2 ^ 56, causeStall := stall, recovery := recovery }
  let b2 := if src = .watchdog && b1.trial then { b1 with slotB := !b1.slotB, trial := false } else b1
  let b3 := b2.sample
  { b3 with inReset := true, bringup := false, step := 1, bringupDone := false, sloe := false, reason := 0, standbyLost := false
            fallback := false, retainedErr := false, bootAddr := 0, bootLen := 0, loaded := none, running := {}, booted := {}, staged := none
            booking := none, handover := none, cpFailed := [], tileReset := [], coreReset := [], rolesOn16 := false
            resets := b.resets + 1 }

/-- A module-scope reset from a source. [Log entry 106: DEDUCED] -/
def State.moduleReset (s : State) (src : ResetSource) (stall : Nat := 0) (recovery : Bool := false) : State :=
  let ft := s.ftNow
  ((s.clearModule.loseMemory src).modBoot fun b => b.hold src ft stall recovery).release_

/-- RESET_SCOPE at module scope: every other dispatched packet replies INTERNAL before the reset (R81). [Log entry 106: DEDUCED] -/
def State.commandReset (s : State) (src : ResetSource) : State :=
  ((s.works.map fun w => w.pid).foldl (fun s p => s.complete p .internal 0x0010 0) s).moduleReset src

/-! ## Tile scope and core scope (R448 to R450) -/

/-- Cores are cleared: their memory, threads, weight tiles and copies go, their tests end, and their items run elsewhere (R448). -/
def State.clearCores (s : State) (gs : List Nat) : State :=
  let s1 := (s.stopTests gs.contains).recallItems fun _ i => match i.core with
    | some g => gs.contains g
    | none => false
  let s2 := gs.foldl (fun s g =>
    let s1 := { (s.eraseKeys (coreBase + g * 1572864) (coreBase + (g + 1) * 1572864)) with
      threads := s.threads.filter fun h => h.core != g, weights := s.weights.filter fun b => b.core != g }
    (List.range 4).foldl (fun s j => s.moveOwners j g) s1) (s1.unstage gs)
  opItemsAssign s2

/-- RST_LOCAL (R463). -/
def Boot.local_ (b : Boot) (scope : Nat) (src : ResetSource) (tile core : Nat) : Boot :=
  { b with localScope := scope, localSource := src.code, localTile := tile, localCore := core }

/-- A bucket whose reduction owner runs on the tile, or whose packet came through the tile's windows on its owner, fails on every
member (R449). -/
def State.failOwner (s : State) (t : Nat) (b : Bucket) : State :=
  match b.owner, s.work b.pid with
  | some o, some w =>
    match s.group b.slot b.group with
    | some g => if o.bufTile = t || w.tile = t then s.failBucket w g w.pkt.bdesc o .internal 0x0010 else s
    | none => s
  | _, _ => s

/-- A COMMIT_STEP ends by a reset: its reply is the step's boundary (R21), with a record of the step (R361); what the step has raised
stands, so that it does not commit (R449). [Log entry 105: DEDUCED] -/
def State.commitByReset (s : State) (slot pid : Nat) : State :=
  let j := s.job slot
  let r : StepRec := { step := j.step, raised := raisedBits (fun i => (lget j.lanes i none).isSome) false, status := Status.internal.code
                       ft := s.ftNow, gen := j.stp.gen }
  ((s.complete pid .internal 0x0010 0).modJob slot fun b =>
    { b.keepRecord r with commit := { b.commit with pids := b.commit.pids.filter fun p => p != pid } }).boundary slot

/-- A packet whose window a tile-scope reset disables ends (R449). -/
def State.endByReset (s : State) (w : Work) : State :=
  match w.slot with
  | none => s.endWork w .internal 0x0010 0
  | some j =>
    let s1 := s.raise j .internal 0x0010
    if (s.job j).commit.pids.contains w.pid then s1.commitByReset j w.pid else s1.endWork w .internal 0x0010 0

/-- The sessions opened through a window's ATTEST packets end (R480). [Log entry 105: DEDUCED] -/
def Sec.dropWindow (c : Sec) (w : Nat) : Sec := { c with sessions := c.sessions.filter fun x => x.via != .attest w }

/-- A window is disabled: packets found and not dispatched are discarded (R66, R449). -/
def Window.disabled (w : Window) : Window := { w with enable := false, found := none, queue := [], replyFull := false }

/-- A window whose tile is reset: ENABLE is cleared and its registers' other fields stay (R449, R529). -/
def Window.resetOff (w : Window) : Window := { w.disabled with replyFull := w.replyFull }

/-- A tile-scope reset (R449). [Log entry 105: DEDUCED] -/
def State.tileReset (s : State) (t : Nat) (src : ResetSource) : State :=
  if (t = 0 || t = 16) && s.boot.cpFailed.contains (16 - t) then s.moduleReset src
  else
    let s1 := s.buckets.foldl (fun s b => s.failOwner t b) s
    let mine := s1.works.filter fun w => w.tile == t
    let s2 := mine.foldl (fun s w => if (s.work w.pid).isSome then s.endByReset w else s) s1
    let s3 := { s2 with windows := vmod (vmod s2.windows t Window.resetOff) (t + 32) Window.resetOff
                        sec := (s2.sec.dropWindow t).dropWindow (t + 32) }
    let s4 := s3.modBoot fun b =>
      let b1 := b.local_ 1 src t 0
      { b1 with tileReset := b1.tileReset.filter (fun u => u != t) ++ [t], coreReset := b1.coreReset.filter (fun g => g / 16 != t)
                rolesOn16 := if t = 0 then true else if t = 16 then false else b1.rolesOn16
                booking := b1.booking.filter fun k => mine.all fun w => w.pid != k.pid }
    s4.clearCores ((List.range 16).map fun c => t * 16 + c)

/-- A core-scope reset (R450); one of a core whose tile is in reset is absorbed (R447). -/
def State.coreReset (s : State) (g : Nat) (src : ResetSource) : State :=
  if s.boot.tileReset.contains (g / 16) then s
  else
    (s.modBoot fun b =>
      let b1 := b.local_ 2 src (g / 16) (g % 16)
      { b1 with coreReset := b1.coreReset.filter (fun x => x != g) ++ [g] }).clearCores [g]

/-- A scope word's reserved and unused fields are 0 (R70, R464). -/
def scopeOk (w : Word) : Bool :=
  let used := match fld w 0 2 with | 0 => 3 | 1 => 0x1F03 | 2 => 0xF1F03 | _ => 0
  fld w 0 2 ≠ 3 && (w.toNat ||| used) == used

/-- The reset that a scope word names. -/
def State.scopedReset (s : State) (w : Word) (src : ResetSource) : State :=
  match fld w 0 2 with
  | 0 => s.moduleReset src
  | 1 => s.tileReset (fld w 8 5) src
  | _ => s.coreReset (fld w 8 5 * 16 + fld w 16 4) src

/-! ## The commands -/

/-- RESET_SCOPE replies DONE and then resets (R81). -/
def State.resetScope (w : Work) (s : State) : State :=
  let s1 := s.complete w.pid .done 0 0
  if fld (w.pkt.par 0) 0 2 = 0 then s1.commandReset .resetScope else s1.scopedReset (w.pkt.par 0) .resetScope

def execResetScope (dt pid : Nat) (s : State) : Host.Outcome State Fault Refusal := run dt (onHanded pid [0x03] State.resetScope) s

/-- PWR_GOOD rises: a power-on reset (R446, R511). -/
def opPowerOn (bootSrc clkMode : Nat) (s : State) : State :=
  let s1 := (s.clearModule.loseMemory .powerOn).modBoot fun b =>
    ({ b.hold .powerOn 0 0 false with powered := true, thermtrip := false, inReset := true } : Boot).straps bootSrc clkMode
  (s1.modBoot fun b => { b with causeSource := .powerOn, causeFt := 0, causeStall := 0 }).release_

def execPowerOn (dt bootSrc clkMode : Nat) (s : State) : Host.Outcome State Fault Refusal := run dt (opPowerOn bootSrc clkMode) s

/-- The events of unit history in the last second, which a power loss may lose (R406, R511): how many of them go is open.
[Log entry 97: DESIGN CHOICE] -/
def State.loseEvents (s : State) : State :=
  let late := (s.rel.hist.filter fun e => s.oph ≤ e.oph + 1).length
  let (n, s1) := s.free
  { s1 with rel := { s1.rel with hist := s1.rel.hist.take (s1.rel.hist.length - n % (late + 1)) } }

/-- P48V leaves its range and PWR_GOOD falls: the module loses power (R511). [Log entry 97: DESIGN CHOICE] -/
def opPowerLoss (s : State) : State :=
  if !s.boot.powered then s
  else (s.loseEvents.clearModule).modBoot fun b =>
    { b.hold .powerOn 0 0 false with powered := false, thermtrip := false, inReset := true }

def execPowerLoss (dt : Nat) (s : State) : Host.Outcome State Fault Refusal := run dt opPowerLoss s

/-- PERST# is asserted: a module-scope reset, held while it lasts (R446). -/
def opPerst (s : State) : State :=
  if s.boot.perstLow then s
  else if !s.boot.powered then s.modBoot fun b => { b with perstLow := true }
  else (s.modBoot fun b => { b with perstLow := true }).moduleReset .perst

def execPerst (dt : Nat) (s : State) : Host.Outcome State Fault Refusal := run dt opPerst s

/-- PERST# is deasserted: the straps are sampled and bring-up starts (R451, R452). -/
def opPerstRelease (bootSrc clkMode : Nat) (s : State) : State :=
  if !s.boot.perstLow then s
  else (s.modBoot fun b => ({ b with perstLow := false } : Boot).straps bootSrc clkMode).release_

def execPerstRelease (dt bootSrc clkMode : Nat) (s : State) : Host.Outcome State Fault Refusal :=
  run dt (opPerstRelease bootSrc clkMode) s

/-- A sensor reaches its trip point: the clocks stop, THERMTRIP_N is asserted, and the module resets (R441, R515). -/
def opThermalTrip (stack : Bool) (temp : Int) (s : State) : State :=
  if !s.boot.powered || temp < (if stack then 105 else 115) then s
  else (s.modBoot fun b => { b with thermtrip := true }).moduleReset .thermalTrip

def execThermalTrip (dt tile : Nat) (stack : Bool) (temp : Int) (s : State) : Host.Outcome State Fault Refusal :=
  runPart "tile" tile 32 dt (opThermalTrip stack temp) s

/-- The sensors have cooled: THERMTRIP_N is deasserted and the reset released (R515). -/
def opThermtripRelease (bootSrc clkMode : Nat) (s : State) : State :=
  if !s.boot.thermtrip then s
  else (s.modBoot fun b => ({ b with thermtrip := false } : Boot).straps bootSrc clkMode).release_

def execThermtripRelease (dt bootSrc clkMode : Nat) (s : State) : Host.Outcome State Fault Refusal :=
  run dt (opThermtripRelease bootSrc clkMode) s

/-- A control processor misses its watchdog (R19, R446). [Log entry 107: DEDUCED] -/
def opWatchdogMiss (t : Nat) (s : State) : State :=
  if !s.registersRun || s.boot.cpFailed.contains t || s.boot.tileReset.contains t then s
  else if t ≠ 0 && t ≠ 16 then s.tileReset t .watchdog
  else if s.boot.cpFailed.contains (16 - t) then s.moduleReset .watchdog
  else s.modBoot fun b =>
    { b with cpFailed := b.cpFailed ++ [t], rolesOn16 := t = 0, standbyLost := b.standbyLost || t = 16 }

def execWatchdogMiss (dt tile : Nat) (s : State) : Host.Outcome State Fault Refusal :=
  runPart "tile" tile 32 dt (opWatchdogMiss tile) s

/-- A tamper sensor fires: zeroisation, then a module-scope reset (R497). -/
def opTamper (sensor : Nat) (s : State) : State :=
  if !s.boot.powered || sensor = 0 || 4 < sensor then s
  else ({ s with sec := { s.sec.zeroised with tamperCode := sensor } } : State).moduleReset .tamper

def execTamper (dt sensor : Nat) (s : State) : Host.Outcome State Fault Refusal := run dt (opTamper sensor) s

/-- A tile-scope reset completes (R449). The module-level roles stay where the reset moved them (R19). [Log entry 123: DESIGN CHOICE] -/
def opTileResetDone (t : Nat) (s : State) : State := s.modBoot fun b => { b with tileReset := b.tileReset.filter fun u => u != t }

def execTileResetDone (dt tile : Nat) (s : State) : Host.Outcome State Fault Refusal :=
  runPart "tile" tile 32 dt (opTileResetDone tile) s

/-- A core-scope reset completes (R450). -/
def opCoreResetDone (g : Nat) (s : State) : State := s.modBoot fun b => { b with coreReset := b.coreReset.filter fun x => x != g }

def execCoreResetDone (dt core : Nat) (s : State) : Host.Outcome State Fault Refusal :=
  runPart "core" core 512 dt (opCoreResetDone core) s

end Sys2Proof.Machine
end

