-- ==== Sys2Proof/Machine/Firmware.lean ====
section
/-! DEFINITION. Firmware images, bring-up, failed starts, staging and live switch-over (16_reset_boot.md R452 to R464,
17_security.md R470 to R472, 13_mapping_jobs.md R388). -/

namespace Sys2Proof.Machine

/-! ## Images (R470, R471) -/

/-- A field of an image. -/
def imageField (b : List Byte) (off n : Nat) : List Byte := (b.drop off).take n

/-- "EFM-V32-768L" padded with zero bytes (R1, R470). -/
def partString : List Byte :=
  [0x45, 0x46, 0x4D, 0x2D, 0x56, 0x33, 0x32, 0x2D, 0x37, 0x36, 0x38, 0x4C, 0, 0, 0, 0]

/-- The first check of R471 that an image fails. -/
def imageFails (b : List Byte) (fused : Nat) : Option Nat :=
  let key := imageField b 112 1793
  let body := b.drop 4096
  if Config.shake256 key ≠ Config.vendorKeyDigest then some 1
  else if !Config.falconVerify key (Config.shake256 (b.take 1920)) (imageField b 1920 1280) then some 2
  else if Config.shake256 body ≠ imageField b 48 64 || b.length ≠ 4096 + bytesNat (imageField b 32 8) then some 3
  else if imageField b 16 16 ≠ partString then some 4
  else if bytesNat (imageField b 12 4) < fused then some 5
  else none

/-- An image that passed the checks. -/
def imageOf (b : List Byte) : Image :=
  { version := bytesNat (imageField b 8 4), svn := bytesNat (imageField b 12 4), bytes := b, ok := true }

/-- The flash slot that BOOT_SLOT names, or the other. -/
def Boot.slot (b : Boot) (other : Bool) : Image := if xor b.slotB other then b.flashB else b.flashA

/-- Write the flash slot that BOOT_SLOT does not name (R459). -/
def Boot.setOther (b : Boot) (i : Image) : Boot := if b.slotB then { b with flashA := i } else { b with flashB := i }

/-- Enter Sloe mode: links stop (R457). -/
def State.enterSloe (s : State) (reason : Nat) : State :=
  let s1 := s.issueAlias
  { s1 with boot := s.boot.enterSloe reason, ports := Vector.replicate 18 {}
            links := Vector.ofFn fun l : Fin 18 => (vget s.links l.val).afterReset l.val }

/-! ## Loading the boot image (R454) -/

/-- An image for this start has been read: it is kept for step 4, or the module enters Sloe mode. -/
def State.bootImage (s : State) (b : List Byte) : State :=
  if (imageFails b s.sec.svn).isSome then s.enterSloe 4
  else s.modBoot fun k => { k with loaded := some (imageOf b), step := max 3 k.step }

/-- The start waits for an image of this boot source. -/
def Boot.awaits (b : Boot) (src : Nat) : Bool := b.bringup && b.strapSrc == src && !b.recovery && b.loaded.isNone

/-- Read the boot image from host memory, where the module may issue the reads (R454, R507). -/
def State.loadBoot (s : State) : State :=
  if s.boot.awaits 1 && s.cxlOpen then s.bootImage (cellGetAll s.hostMem s.boot.bootAddr.toNat s.boot.bootLen) else s

/-- A write of ID_BOOT_LEN (R454, R462). [Log entry 108: DEDUCED] -/
def opBootLoad (len : Nat) (s : State) : State :=
  if !s.boot.powered || s.boot.inReset then s
  else
    let s1 := s.modBoot fun b => { b with bootLen := len % 2 ^ 32 }
    if s1.boot.awaits 1 && s1.boot.bootLen = 0 then s1.bootImage [] else s1.loadBoot

def execBootLoad (dt len : Nat) (hs : List Host.Cell) (s : State) : Host.Outcome State Fault Refusal := runHs dt hs (opBootLoad len) s

/-- BOOT_SRC 10 and no link has trained within 20 s (R454). -/
def opNeighbourBootTimeout (s : State) : State :=
  if s.boot.awaits 2 && s.boot.releasedAt + 20000000000 ≤ s.uptime && (List.range 18).all (fun l => (s.link l).st != .up) then
    s.enterSloe 4
  else s

def execNeighbourBootTimeout (dt : Nat) (s : State) : Host.Outcome State Fault Refusal := run dt opNeighbourBootTimeout s

/-! ## Bring-up (R452, R453, R493) -/

/-- The image of this start and whether the other slot gave it; a recovery boot takes flash (R454, R458). The operands say whether
the stored signature of each slot fails. -/
def State.bootChoice (s : State) (slotFails otherFails : Bool) : Option (Image × Bool) :=
  let b := s.boot
  let good (i : Image) (fails : Bool) : Bool := i.ok && !fails && decide (s.sec.svn ≤ i.svn)
  if b.recovery || b.strapSrc = 0 then
    if good (b.slot false) slotFails then some (b.slot false, false)
    else if good (b.slot true) otherFails then some (b.slot true, true)
    else none
  else b.loaded.map fun i => (i, false)

/-- While bring-up runs, how many of its steps have passed since they were last looked at is open; the module gets no further than
step 3 while it waits for an image (R452, R462). [Log entry 102: DEDUCED] -/
def State.drawStep (s : State) : State :=
  let b := s.boot
  let top := if b.awaits 1 || b.awaits 2 then 3 else 6
  if b.bringup && b.step < top then
    let (n, s1) := s.free
    s1.modBoot fun k => { k with step := k.step + n % (top + 1 - k.step) }
  else s

/-- The bring-up steps finish, with what their tests found (R452, R457, R493). -/
def opBringupDone (t0 t16 dramFault slotFails otherFails : Bool) (s : State) : State :=
  if !s.boot.bringup then s
  else if !t0 && !t16 then s.enterSloe 5
  else if s.boot.awaits 1 || s.boot.awaits 2 then s
  else match s.bootChoice slotFails otherFails with
    | none => s.enterSloe 4
    | some (i, fell) =>
      if dramFault then (s.modBoot fun b => { b with fallback := fell, booted := i }).enterSloe 6
      else
        ({ s with
          boot := { s.boot with bringup := false, bringupDone := true, doneAt := s.uptime, step := 6, running := i, booted := i
                                runSince := s.uptime, fallback := fell }
          sec := { s.sec with selfTestOk := t0 && t16, ok0 := t0, ok16 := t16, mirror := !t0 } } : State).issueAlias

def execBringupDone (dt : Nat) (selfTest0 selfTest16 dramFault slotFails otherFails : Bool) (s : State) :
    Host.Outcome State Fault Refusal :=
  run dt (opBringupDone selfTest0 selfTest16 dramFault slotFails otherFails) s

/-- Bring-up has not completed within 30 s: a watchdog reset that records the step (R453), at most 3 where no image came (R454).
[Log entry 102: DEDUCED] -/
def opBringupTimeout (step : Nat) (s : State) : State :=
  let top := if s.boot.awaits 1 || s.boot.awaits 2 then 3 else 6
  if s.boot.bringup && s.boot.releasedAt + 30000000000 ≤ s.uptime && s.boot.step ≤ step && step ≤ top then s.moduleReset .watchdog step
  else s

def execBringupTimeout (dt step : Nat) (s : State) : Host.Outcome State Fault Refusal := run dt (opBringupTimeout step) s

/-- BRINGUP_DONE has read 1 for 60 s: the start is good (R456). [Log entry 119: DEDUCED] -/
def opStartGood (s : State) : State :=
  if s.boot.bringupDone && s.boot.doneAt + 60000000000 ≤ s.uptime then s.modBoot fun b => { b with failedStarts := 0 } else s

def execStartGood (dt : Nat) (s : State) : Host.Outcome State Fault Refusal := run dt opStartGood s

/-! ## FW_STAGE (R459) -/

/-- What reading a packet's source gives: its bytes, a failure, or nothing yet. -/
inductive SourceRead where
  | bytes (bs : List (Byte × Bool))
  | failed (r : OpRes) (t off : Nat)
  | waits

/-- Read `n` bytes from a tile-local offset page by page (R207). -/
def State.readPieces (s : State) (x : OpCtx) (t off n : Nat) : Nat → SourceRead × State
  | 0 => (.bytes [], s)
  | fuel + 1 =>
    if n = 0 then (.bytes [], s)
    else
      let k := pieceLen off n
      match s.opCheck x .read t off with
      | .ok =>
        let (bs, s1) := s.readBytes t off k x
        match s1.readPieces x t (off + k) (n - k) fuel with
        | (.bytes more, s2) => (.bytes (bs ++ more), s2)
        | r => r
      | r => (.failed r t off, s)

/-- A packet's source of `n` bytes as a reader of the fabric sees it. -/
def sourceTensor (a : Word) (n : Nat) : Tensor :=
  { num := 0, slot := 15, tile := 0, page := 0, spill := some a, bytes := n, fmt := 3, cplx := false, life := 0, rows := 0, cols := 0, epoch := 0 }

/-- Read `n` bytes from a packet's source address: host memory under RES_HOST, this module, or another module (R67, R246).
[Log entry 109: DEDUCED] -/
def State.readSource (s : State) (w : Work) (x : OpCtx) (a : Word) (n : Nat) : SourceRead × State :=
  if w.pkt.resHost then
    if s.cxlOpen then (.bytes ((cellGetAll s.hostMem a.toNat n).map fun b => (b, false)), s) else (.waits, s)
  else match s.addrKind a with
    | .here t o => s.readPieces x t o n (n / 4096 + 2)
    | .remote _ _ _ =>
      let t := sourceTensor a n
      if s.rangeFetched w.pid t 0 n then
        let lo := a.toNat / 8
        let ws := (List.range ((a.toNat + n + 7) / 8 - lo)).map fun i => s.fetchedWord w.pid (8 * (lo + i))
        (.bytes (((ws.flatMap fun v => (wordBytes v.1).map fun b => (b, v.2)).drop (a.toNat % 8)).take n), s)
      else if w.tags.isEmpty then (.waits, s.fetchTensor x w.pid t 0 n)
      else (.waits, s)
    | .reg _ _ | .bad => (.failed .unbacked 0 0, s)

/-- An image that FW_STAGE has read is judged, stored and staged (R459, R471). [Log entry 109: DEDUCED] -/
def State.stageImage (s : State) (w : Work) (b : List Byte) : State :=
  match imageFails b s.sec.svn with
  | some 4 => s.complete w.pid .badParam 0x01B2 0
  | some 5 => s.complete w.pid .badParam 0x01C0 0
  | some _ => s.complete w.pid .badParam 0x0007 0
  | none =>
    let i := imageOf b
    (s.modBoot fun k => { k.setOther i with staged := some i }).complete w.pid .done 0 i.version

/-- FW_STAGE: a poisoned word of the image fails the packet. -/
def State.fwStage (w : Work) (s : State) : State :=
  if s.sec.error then s.complete w.pid .internal 0x01C0 0
  else if w.failed && w.tags.isEmpty then s.completeOuts w.pid
  else match s.finishMoves.readSource w (s.ctl w) (w.pkt.par 0) (w.pkt.par 1).toNat with
    | (.waits, s1) => s1
    | (.failed r t o, s1) => (s1.logRes (s.ctl w) r t o (s.globalAddr t o)).complete w.pid r.status.1 r.status.2 0
    | (.bytes bs, s1) =>
      if bs.any Prod.snd then s1.complete w.pid .checkMismatch 0x0140 0 else s1.stageImage w (bs.map Prod.fst)

def execFwStage (dt pid : Nat) (hs : List Host.Cell) (s : State) : Host.Outcome State Fault Refusal :=
  runHs dt hs (onHanded pid [0x04] State.fwStage) s

/-- A switch-over is booked, from the dispatch of its FW_SWITCH on (R460, R464). -/
def State.switchBooked (s : State) : Bool := s.boot.booking.isSome || s.works.any fun v => v.pkt.opcode == 0x05

/-- The first detail that rejects FW_STAGE outside the checks of its image (R241, R464). -/
def State.stageDetail (s : State) (p : Packet) : Option Nat :=
  minDetail [failIf s.switchBooked 0x01B1, s.resultDetail p (p.par 0) (p.par 1).toNat]

/-! ## FW_SWITCH and the switch-over (R458, R460, R461) -/

/-- The first detail that rejects FW_SWITCH (R42, R46, R464); none in Sloe mode, where P0 is ignored (R80). -/
def State.switchDetail (s : State) (p : Packet) : Option Nat :=
  let f := (p.par 0).toNat
  if s.boot.sloe then none
  else minDetail [failIf (f < p.stamp + 10000000 || s.ftNow + 2 ^ 52 < f) 0x0006, failIf s.boot.staged.isNone 0x01B0,
    failIf s.switchBooked 0x01B1]

/-- FW_SWITCH in Sloe mode replies and boots the staged image, or the slot that BOOT_SLOT names (R458). [Log entry 103: DEDUCED] -/
def State.recoverySwitch (s : State) (w : Work) : State :=
  let i := s.boot.staged.getD (s.boot.slot false)
  let s1 := (s.complete w.pid .done 0 i.version).modBoot fun b =>
    { b with failedStarts := 0, slotB := if b.staged.isSome then !b.slotB else b.slotB }
  ((s1.works.map fun v => v.pid).foldl (fun s p => s.complete p .internal 0x0010 0) s1).moduleReset .resetScope 0 true

/-- FW_SWITCH. -/
def State.fwSwitch (w : Work) (s : State) : State :=
  if s.sec.error then s.complete w.pid .internal 0x01C0 0
  else if s.boot.sloe then s.recoverySwitch w
  else (s.modWork w.pid fun v => { v with stage := .waiting }).modBoot fun b =>
    { b with booking := some { pid := w.pid, ft := (w.pkt.par 0).toNat } }

def execFwSwitch (dt pid : Nat) (s : State) : Host.Outcome State Fault Refusal := run dt (onHanded pid [0x05] State.fwSwitch) s

/-- A booked switch-over is due: refused under an alert, deferred while UNSYNCED, and otherwise made once no commit vote is in
progress (R37, R388, R460, R461). -/
def opSwitchOver (s : State) : State :=
  match s.boot.booking, s.boot.staged with
  | some k, some i =>
    if s.ftNow < k.ft then s
    else if s.alert then (s.modBoot fun b => { b with booking := none }).complete k.pid .internal 0x0181 0
    else if s.ft.unsynced || (List.range 4).any s.voting then s
    else s.modBoot fun b =>
      { b with booking := none, staged := none, running := i, slotB := !b.slotB, runSince := s.uptime, handover := some k.pid }
  | _, _ => s

/-- The hand-over ends: dispatch resumes, FW_SWITCH replies, TRIAL is set (R461). -/
def opHandoverEnd (s : State) : State :=
  match s.boot.handover with
  | none => s
  | some p => (s.modBoot fun b => { b with handover := none, trial := true }).complete p .done 0 s.boot.running.version

def execHandoverEnd (dt : Nat) (s : State) : Host.Outcome State Fault Refusal := run dt opHandoverEnd s

/-- The running image has run for 600 s. [Log entry 119: DEDUCED] -/
def State.ranLong (s : State) : Bool := s.boot.bringupDone && decide (s.boot.runSince + 600000000000 ≤ s.uptime)

/-- TRIAL clears (R461). -/
def opTrialEnd (s : State) : State := if s.ranLong then s.modBoot fun b => { b with trial := false } else s

def execTrialEnd (dt : Nat) (s : State) : Host.Outcome State Fault Refusal := run dt opTrialEnd s

/-- Fuse bits are blown up to the image's SVN, never during TRIAL (R472). -/
def opSvnFuse (s : State) : State :=
  if s.ranLong && !s.boot.trial then { s with sec := { s.sec with svn := max s.sec.svn (min 64 s.boot.running.svn) } } else s

def execSvnFuse (dt : Nat) (s : State) : Host.Outcome State Fault Refusal := run dt opSvnFuse s

end Sys2Proof.Machine
end

