-- ==== Sys2Proof/Machine/Booked.lean ====
section
/-! DEFINITION. Booked happenings and their order at one FT: deadlines and the ends of windows, safe points, a switch-over, phase boundaries,
the opening of windows, barrier slots (02_fabric_time.md R43, R44, R46). -/

namespace Sys2Proof.Machine

/-! ## What comes first (R44)

Each of these happenings, where it is due, is taken before the command that comes after it in R44's order. [Log entry 138: DEDUCED] -/

/-- Deadlines that are due are judged, and windows whose end is due close. [Log entry 138: DEDUCED] -/
def State.settleDeadlines (s : State) : State :=
  let s1 := (List.range 4).foldl (fun s j => s.judgeBuckets j s.ftNow) s
  let s2 := (s1.colls.map fun c => c.pid).foldl (fun s p => opCollectiveDeadline p s) s1
  let s3 := (List.range 4).foldl (fun s j => opCommitDeadline j s) s2
  (s3.rel.windows.map fun w => w.num).foldl (fun s n => opTestWindowEnd n s) s3

/-- And safe points that are due are taken. [Log entry 138: DEDUCED] -/
def State.settleSafePoints (s : State) : State := (List.range 4).foldl (fun s j => opSafeDeadline j s) s.settleDeadlines

/-- And a switch-over that is due is made. -/
def State.settleSwitch (s : State) : State := opSwitchOver s.settleSafePoints

/-- And windows that are due open. -/
def State.settleWindows (s : State) : State :=
  let s1 := s.settleSwitch
  (s1.rel.windows.map fun w => w.num).foldl (fun s n => opTestWindowOpen n s) s1

/-! ## The rows -/

/-- COMMIT_DEADLINE: the job's bucket deadlines come before it (R357). -/
def execCommitDeadline (dt slot : Nat) (s : State) : Host.Outcome State Fault Refusal :=
  runPart "slot" slot 4 dt (fun s => opCommitDeadline slot (s.judgeBuckets slot s.ftNow)) s

/-- SAFE_DEADLINE (R384). -/
def execSafeDeadline (dt slot : Nat) (s : State) : Host.Outcome State Fault Refusal :=
  runPart "slot" slot 4 dt (fun s => opSafeDeadline slot s.settleDeadlines) s

/-- SWITCH_OVER (R460). -/
def execSwitchOver (dt : Nat) (s : State) : Host.Outcome State Fault Refusal := run dt State.settleSwitch s

/-- PHASE_BOUNDARY (R45). -/
def execPhaseBoundary (dt : Nat) (peaks temps : List Nat) (s : State) : Host.Outcome State Fault Refusal :=
  run dt (fun s => opPhaseBoundary peaks temps s.settleSwitch) s

/-- TEST_WINDOW_OPEN (R410). -/
def execTestWindowOpen (dt window : Nat) (s : State) : Host.Outcome State Fault Refusal :=
  run dt (fun s => opTestWindowOpen window s.settleSwitch) s

/-- BARRIER_SLOT (R49). -/
def execBarrierSlot (dt slot k : Nat) (s : State) : Host.Outcome State Fault Refusal :=
  runPart "slot" slot 4 dt (fun s => opBarrierSlot slot k s.settleWindows) s

end Sys2Proof.Machine
end

