-- ==== Sys2Proof/Machine/Security.lean ====
section
/-! DEFINITION. Roles, SPDM sessions, access-table writes, zeroisation and the security controllers (17_security.md R466 to
R500). -/

namespace Sys2Proof.Machine

/-- Change the security block. -/
def State.modSec (s : State) (f : Sec → Sec) : State := { s with sec := f s.sec }

/-! ## Roles (R479, R495, R498) -/

/-- A window has the officer role. -/
def State.officer (s : State) (w : Nat) : Bool :=
  !s.sec.error && match s.sec.officer with
    | none => w == 0
    | some d => s.sec.sessions.any fun x => x.via == .attest w && x.finished && x.root == some d

/-- SEC_STATUS.APPROVED (R498). -/
def State.approved (s : State) : Bool :=
  s.sec.selfTestOk && !s.sec.error && !s.boot.sloe && s.sec.officer.isSome && s.sec.fmKey.isSome && s.sec.ideIo && s.sec.ideCm
    && s.sec.jtagLocked && !s.sec.diagUsed

/-! ## SPDM (R473 to R478) -/

/-- The words of an access-table entry (R489). -/
def AtEntry.words (e : AtEntry) : List Word :=
  [wd (flag e.valid 0 + flag e.read 1 + flag e.write 2 + flag e.atomic 3 + flag e.accum 4 + flag e.matchJob 5 + at_ e.cls 4 8
      + at_ e.id 12 16 + at_ e.idMask 12 32), wd e.job, e.base, e.limit]

/-- The bytes of every access table, in order of target selector and entry (R476). -/
def State.tableBytes (s : State) : List Byte :=
  (List.range 97).flatMap fun t => (List.range 256).flatMap fun i => (s.accessEntry t i).words.flatMap wordBytes

/-- The measurement blocks (R476). -/
def State.measurements (s : State) : List (List Byte) :=
  let b := s.boot
  let h := Config.shake256
  [Config.bootRomDigest, h (Config.securitySection b.booted.bytes), h (Config.voxongSection b.running.bytes),
   match b.staged with
   | some i => h i.bytes
   | none => List.replicate 64 0,
   h ((wordBytes (wd b.strapSrc)) ++ wordBytes (wd b.strapClk) ++ wordBytes (wd s.sec.svn)), h s.tableBytes,
   h (s.sec.officer.getD (List.replicate 64 0) ++ [BitVec.ofNat 8 (b2n s.sec.fmKey.isSome)])]

/-- Certificate slot `n`: slot 0 holds the root, the device identity and this start's alias certificate, the others nothing (R475).
[Log entry 137: DEDUCED] -/
def State.certSlot (s : State) (n : Nat) : List (List Byte) :=
  if n = 0 then [Config.rootCert, Config.deviceCert Config.serial] ++ (s.sec.alias_.map fun a => Config.aliasCert a.1 a.2).toList else []

/-- A session on its own transport. -/
def Sec.session (c : Sec) (n : Nat) (via : Transport) : Option Session := c.sessions.find? fun x => x.num == n && x.via == via

/-- Change a session. -/
def Sec.modSession (c : Sec) (n : Nat) (f : Session → Session) : Sec := { c with sessions := updFirst (fun x => x.num == n) f c.sessions }

/-- A session ends: its keys go, and with a DOE session the IDE keys (R469). [Log entry 111: DEDUCED] -/
def Sec.endSession (c : Sec) (x : Session) : Sec :=
  let c1 := { c with sessions := c.sessions.filter fun y => y.num != x.num }
  if x.via = .doe then { c1 with ideIo := false, ideCm := false } else c1

/-- What a request does to the sessions, and whether it is accepted (R473, R474, R477, R479, R482); a session needs the derived keys and
the random bit generator (R469). -/
def Sec.request (c : Sec) (r : SpdmRequest) (via : Transport) (now : Nat) : Bool × Sec :=
  match r with
  | .plain => (true, c)
  | .unsupported => (false, c)
  | .keyExchange =>
    if !c.keys || !c.drbg || 4 ≤ c.sessions.length then (false, c)
    else
      let x : Session := { num := c.nextSession, via := via, lastBeat := now }
      (true, { c with sessions := c.sessions ++ [x], nextSession := c.nextSession + 1 })
  | .finish n root =>
    match c.session n via with
    | some _ => (true, c.modSession n fun x => { x with finished := true, root := some root, lastBeat := now })
    | none => (false, c)
  | .heartbeat n =>
    match c.session n via with
    | some _ => (true, c.modSession n fun x => { x with lastBeat := now })
    | none => (false, c)
  | .endSession n =>
    match c.session n via with
    | some x => (true, c.endSession x)
    | none => (false, c)
  | .ideKm n cm go =>
    match c.session n via with
    | some x =>
      if x.via = .doe && x.finished then (true, if cm then { c with ideCm := go } else { c with ideIo := go }) else (false, c)
    | none => (false, c)

/-- An SPDM request is answered: the response, and the state after it. In the security error state nothing is granted (R495). -/
def State.spdm (s : State) (req : List Byte) (via : Transport) : List Byte × State :=
  let (ok, c) := if s.sec.error then (false, s.sec) else s.sec.request (Config.spdmRequest req) via s.uptime
  let (n, s1) := s.free
  ((Config.spdmResponse req s.measurements ((List.range 8).map s.certSlot) (s.sec.sessions.map fun x => x.num) s.sec.keys ok n).take 65536, s1.modSec fun _ => c)

/-- The request of an ATTEST payload: its length in bytes, and the bytes (R478). -/
def Packet.attestLen (p : Packet) : Nat := fld (p.pay 0) 0 16
def Packet.attestReq (p : Packet) : List Byte := ((p.payload.drop 1).flatMap wordBytes).take p.attestLen

/-- The first detail that rejects ATTEST (R478, R500). [Log entry 110: DEDUCED] -/
def State.attestDetail (s : State) (p : Packet) : Option Nat :=
  let n := p.attestLen
  minDetail [failIf (n < 4 || 16312 < n || fld (p.pay 0) 16 48 ≠ 0 || p.slots ≠ ceilDiv (n + 8) 64) 0x01C4,
    s.resultDetail p (p.par 0) 65536]

/-- ATTEST: the response is written, RESULT is its length (R478). -/
def State.attest (w : Work) (s : State) : State :=
  if s.sec.error then s.complete w.pid .internal 0x01C0 0
  else
    let (r, s1) := s.spdm w.pkt.attestReq (.attest w.pkt.window)
    ((s1.writeResult w (s1.ctl w) (w.pkt.par 0) r false).modWork w.pid fun v => { v with result := r.length }).finishRemote w.pid

def execAttest (dt pid : Nat) (s : State) : Host.Outcome State Fault Refusal := run dt (onHanded pid [0xA0] State.attest) s

/-- An SPDM request arrives through the DOE mailbox (R477). -/
def opDoeRequest (req : List Byte) (s : State) : State :=
  if !s.registersRun || !s.cxl.linkUp then s
  else
    let (r, s1) := s.spdm req .doe
    { s1 with cxl := { s1.cxl with lastDoe := r } }

def execDoeRequest (dt : Nat) (request : List Byte) (s : State) : Host.Outcome State Fault Refusal := run dt (opDoeRequest request) s

/-- No HEARTBEAT for 60 s: the session ends (R480). [Log entry 111: DEDUCED] -/
def opHeartbeatTimeout (n : Nat) (s : State) : State :=
  match s.sec.sessions.find? fun x => x.num == n with
  | none => s
  | some x => if s.uptime < x.lastBeat + 60000000000 then s else s.modSec fun c => { c with sessions := c.sessions.filter fun y => y.num != n }

def execHeartbeatTimeout (dt session : Nat) (s : State) : Host.Outcome State Fault Refusal := run dt (opHeartbeatTimeout session) s

/-! ## ACCESS_TABLE_WRITE (R489 to R492, R500) -/

/-- KIND, TILE and entry index of the packet. -/
def Packet.atKind (p : Packet) : Nat := fld (p.par 0) 0 4
def Packet.atTile (p : Packet) : Nat := fld (p.par 0) 4 5
def Packet.atTarget (p : Packet) : Nat := if p.atKind = 3 then 96 else p.atKind * 32 + p.atTile

/-- The entry in the payload (R489). -/
def Packet.atEntry (p : Packet) : AtEntry :=
  let w0 := p.pay 0
  { valid := bitOf w0 0, read := bitOf w0 1, write := bitOf w0 2, atomic := bitOf w0 3, accum := bitOf w0 4, matchJob := bitOf w0 5
    cls := fld w0 8 4, id := fld w0 16 12, idMask := fld w0 32 12, job := fld (p.pay 1) 0 32, base := p.pay 2, limit := p.pay 3 }

/-- The range of a target's offsets (R486). [Log entry 112: DEDUCED] -/
def targetRange : Nat → Nat × Nat
  | 0 => (0, 0x600000000)
  | 1 => (0x40000000000, 0x40004000000)
  | 2 => (0x60000000000, 0x60010000000)
  | _ => (0, 0x1000000)

/-- The payload's words that R491 requires to be 0 are 0. -/
def Packet.zeroFrom (p : Packet) (i : Nat) : Bool := (List.range (8 - i)).all fun k => p.pay (i + k) = 0

/-- The entry is malformed (R500 0x01C2). -/
def Packet.atBad (p : Packet) : Bool :=
  let e := p.atEntry
  let (lo, hi) := targetRange p.atKind
  fld (p.pay 0) 6 2 ≠ 0 || fld (p.pay 0) 12 4 ≠ 0 || fld (p.pay 0) 28 4 ≠ 0 || fld (p.pay 0) 44 20 ≠ 0 || fld (p.pay 1) 32 32 ≠ 0
    || 8 ≤ e.cls || e.base.toNat % 4096 ≠ 0 || e.limit.toNat % 4096 ≠ 0 || !p.zeroFrom 4 || 255 < (p.par 1).toNat
    || (e.valid && (e.limit.toNat ≤ e.base.toNat || e.base.toNat < lo || hi < e.limit.toNat))

/-- The entry grants a right that R492 forbids. [Log entry 112: DEDUCED] -/
def Packet.atForbidden (p : Packet) : Bool :=
  let e := p.atEntry
  let meets (lo hi : Nat) : Bool := e.base.toNat < hi && lo < e.limit.toNat
  let change := e.write || e.atomic || e.accum
  e.valid &&
    ((p.atKind = 1 && change && meets 0x40003D80000 0x40003F00000)
      || (p.atKind = 3 && change && meets 0x60000 0x70000)
      || ((p.atKind = 2 || p.atKind = 3) && (e.atomic || e.accum))
      || ((e.read || change) && ((e.cls = 6 && p.atKind ≠ 3) || e.cls = 7)))

/-- The first detail that rejects ACCESS_TABLE_WRITE. [Log entry 110: DEDUCED] -/
def tableDetail (p : Packet) : Option Nat :=
  let k := p.atKind
  let special := k = 8 || k = 9 || k = 15
  if 0x1FF < (p.par 0).toNat || !(k ≤ 3 || special) || (3 ≤ k && p.atTile ≠ 0) || (special && p.par 1 ≠ 0) then some 0x01C1
  else if special then failIf (!p.zeroFrom (if k = 8 then 4 else if k = 9 then 8 else 0)) 0x01C2
  else minDetail [failIf p.atBad 0x01C2, failIf p.atForbidden 0x01C3]

/-- The operation on a handed ACCESS_TABLE_WRITE of a kind; in the security error state it replies INTERNAL (R495). -/
def onTable (ok : Nat → Bool) (pid : Nat) (f : Work → State → State) (s : State) : State :=
  onHanded pid [0xA1] (fun w s =>
    if !ok w.pkt.atKind then s else if s.sec.error then s.complete w.pid .internal 0x01C0 0 else f w s) s

/-- An entry is written in every controller that checks the target (R491). -/
def State.writeTable (w : Work) (s : State) : State :=
  let k := w.pkt.atTarget * 256 + (w.pkt.par 1).toNat % 256
  let e := w.pkt.atEntry
  let old := defaultAt w.pkt.atTarget ((w.pkt.par 1).toNat % 256)
  (s.modSec fun c => { c with tables := kvPut c.tables k (if e = old then none else some e) }).complete w.pid .done 0 0

def execAccessTableWrite (dt pid : Nat) (s : State) : Host.Outcome State Fault Refusal :=
  run dt (onTable (fun k => k ≤ 3) pid State.writeTable) s

/-- The fabric-manager key is installed and the counter reset (R484, R491). -/
def State.installFmKey (w : Work) (s : State) : State :=
  (s.modSec fun c => { c with fmKey := some ((w.pkt.payload.take 4).flatMap wordBytes), fmCounter := 0 }).complete w.pid .done 0 0

def execFmKeyInstall (dt pid : Nat) (s : State) : Host.Outcome State Fault Refusal := run dt (onTable (fun k => k = 8) pid State.installFmKey) s

/-- The officer root digest is installed (R479, R491). -/
def State.installOfficer (w : Work) (s : State) : State :=
  (s.modSec fun c => { c with officer := some ((w.pkt.payload.take 8).flatMap wordBytes) }).complete w.pid .done 0 0

def execOfficerRootInstall (dt pid : Nat) (s : State) : Host.Outcome State Fault Refusal :=
  run dt (onTable (fun k => k = 9) pid State.installOfficer) s

/-- Zeroisation by command: it replies DONE, then acts (R496). -/
def State.zeroise (w : Work) (s : State) : State := (s.complete w.pid .done 0 0).modSec Sec.zeroised

def execZeroise (dt pid : Nat) (s : State) : Host.Outcome State Fault Refusal := run dt (onTable (fun k => k = 15) pid State.zeroise) s

/-! ## Vendor diagnostics (R70, R498, R517) -/

/-- The statuses a final reply may carry (R74). [Log entry 44: DESIGN CHOICE] -/
def finalStatuses : List Status :=
  [.done, .badOpcode, .badParam, .noResource, .accessDenied, .nanTrap, .scaleRange, .staleGeneration, .lateExcluded,
   .poisonedContribution, .checkMismatch, .replayedOk, .sloeOnly, .internal]

/-- A diagnostic packet: DIAG_USED is set; what it answers, and whether it unlocks JTAG, is open. [Log entry 44: DESIGN CHOICE] -/
def State.diagnose (w : Work) (s : State) : State :=
  let (a, s1) := s.free
  let (b, s2) := s1.free
  let (c, s3) := s2.free
  let (d, s4) := s3.free
  (s4.modSec fun k => { k with diagUsed := true, jtagLocked := k.jtagLocked && a % 2 == 0 }).complete w.pid
    (lget finalStatuses (b % 14) .done) (c % 65536) (d % 2 ^ 32)

def execVendorDiagnostic (dt pid : Nat) (s : State) : Host.Outcome State Fault Refusal :=
  run dt (onHanded pid ((List.range 16).map fun i => 0xF0 + i) State.diagnose) s

/-! ## The controllers (R467, R494, R495) -/

/-- A security controller halts or fails a self-test: the other goes on, or the module enters the security error state. -/
def opControllerFail (t : Nat) (s : State) : State :=
  if t ≠ 0 && t ≠ 16 then s
  else s.modSec fun c =>
    let c1 := if t = 0 then { c with ok0 := false } else { c with ok16 := false }
    if !c1.ok0 && !c1.ok16 then { c1 with error := true, sessions := [], ideIo := false, ideCm := false, drbg := false }
    else { c1 with mirror := !c1.ok0 }

def execControllerFail (dt tile : Nat) (s : State) : Host.Outcome State Fault Refusal :=
  runPart "tile" tile 32 dt (opControllerFail tile) s

end Sys2Proof.Machine
end

