-- ==== Sys2Proof/Machine/Registers.lean ====
section
/-! DEFINITION. The register space: what every register reads as, and what a write of each does (19_register_map.md R522 to R534
and the field maps of the owning chapters). -/

namespace Sys2Proof.Machine

/-! ## What registers read as -/

/-- ID_RESOURCES (R526). -/
def State.resources (s : State) : Word :=
  let arrays := ((List.range 512).filter fun g => !s.retired (.core g)).flatMap fun g =>
    (List.range 4).filter fun a => !s.retired (.array g a)
  wd (at_ s.coresInService 10 0 + at_ arrays.length 12 10
    + at_ ((List.range 18).filter fun l => !(s.link l).retired).length 5 22)

/-- FT_STATUS.STATE (R530). -/
def LockState.code : LockState → Nat
  | .unset => 0 | .acquiring => 1 | .locked => 2 | .holdover => 3 | .freerun => 4

/-- FT_STATUS.SOURCE (R530). -/
def FtSource.code : FtSource → Nat
  | .none => 0 | .ownSync => 1 | .linkTransfer => 2 | .refAlone => 3

/-- One bit for each of the four job slots. -/
def slotBits (p : Nat → Bool) : Nat := ((List.range 4).map fun j => flag (p j) j).foldl (· + ·) 0

/-- ID_STATE (R462): STALL_STEP is the step that bring-up has reached. [Log entry 102: DEDUCED] -/
def State.idState (s : State) : Word :=
  let b := s.boot
  let step := if b.bringup then b.step else 0
  wd (flag b.bringupDone 0 + flag b.sloe 1 + flag b.rolesOn16 2 + flag b.standbyLost 3 + flag b.fallback 4 + flag b.retainedErr 5
    + at_ b.reason 8 8 + at_ step 3 16)

/-- ID_SUMMARY (R528). -/
def State.idSummary (s : State) : Word :=
  wd (at_ s.ft.state.code 3 0 + flag s.ft.unsynced 3 + at_ (slotBits s.jobOpen) 4 4
    + at_ (slotBits fun j => (s.job j).opened && (s.job j).site != .running) 4 8 + flag s.site.asserted 12 + flag s.approved 13
    + flag s.sec.error 14)

/-- The capability page's first two words (R527). -/
def capWord (i : Nat) : Word :=
  if i = 0 then wd (at_ 4 8 0 + at_ 64 8 8 + at_ 64 8 16 + at_ 20 8 24 + at_ 64 8 32 + at_ 3 8 40 + at_ 256 16 48)
  else if i = 1 then wd (at_ 256 16 0 + at_ 256 16 16 + at_ 256 16 32 + at_ 1024 16 48)
  else 0

/-- ID_FW.RUNNING: 0 until step 3 of bring-up has loaded an image (R526). [Log entry 102: DEDUCED] -/
def State.shownVersion (s : State) : Nat :=
  let b := s.boot
  let image := if b.bringupDone then some b.running
    else if b.loaded.isSome then b.loaded
    else if b.bringup && 4 ≤ b.step then (s.bootChoice false false).map Prod.fst else none
  (image.map fun i => i.version).getD 0

/-- The identity and status block (R462, R526 to R528). -/
def State.idWord (s : State) (off : Nat) : Word :=
  match off with
  | 0x00 => 0x2D3233562D4D4645
  | 0x08 => 0x000000004C383637
  | 0x10 => Config.serial
  | 0x18 => wd (at_ Config.stepping 8 0 + at_ Config.packageBuild 8 8)
  | 0x20 => wd (at_ s.shownVersion 32 0
      + at_ ((s.boot.staged.map fun i => i.version).getD 0) 32 32)
  | 0x28 => wd (at_ s.fabric.mod 12 0 + flag s.fabric.modValid 12)
  | 0x30 => s.resources
  | 0x200 => s.idState
  | 0x208 => s.idSummary
  | 0x210 => s.boot.bootAddr
  | 0x218 => wd (at_ s.boot.bootLen 32 0)
  | _ => if 0x100 ≤ off && off < 0x140 then capWord ((off - 0x100) / 8) else 0

/-- A window's register set (R64, R529). -/
def Window.regWord (w : Window) (off : Nat) : Word :=
  match off with
  | 0x00 => wd (flag w.enable 0 + flag w.ringInHost 1 + at_ w.pollUs 10 16)
  | 0x08 => wd w.ringAddr
  | 0x10 => wd w.replyAddr
  | 0x18 => wd (at_ w.head 12 0 + flag w.headPhase 12 + at_ w.nextSeq 32 32)
  | 0x20 => wd (at_ w.tail 12 0 + flag w.tailPhase 12)
  | 0x28 => wd (at_ w.ack 12 0)
  | 0x30 => wd (flag w.replyFull 0 + flag w.cfgErr 1 + flag w.ackErr 2 + at_ w.seqErr 8 8)
  | _ => 0

/-- A shadow set (R375). -/
def ShadowSet.regWord (h : ShadowSet) (off : Nat) : Word :=
  match off with
  | 0x00 => wd (flag h.enable 0 + at_ h.content 2 1 + flag h.stall 3 + flag h.fabric 4 + at_ h.every 16 8 + at_ h.rate 10 24)
  | 0x08 => h.base
  | 0x10 => wd h.bytes
  | 0x18 => wd (flag h.cfgErr 0 + flag h.copy.isSome 1 + at_ h.skipped 16 16 + at_ h.lastGen 32 32)
  | _ => 0

/-- SA_STATUS.JOB_STATE of a job (R382). -/
def Job.siteCode (j : Job) : Nat := match j.site with | .running => 0 | .safing => 1 | .parked => 2

/-- The command processor block (R375, R382, R529). [Log entry 120: DEDUCED] -/
def State.cpWord (s : State) (off : Nat) : Word :=
  if off = 0x10000 then 0xFFFF000000
  else if 0x11000 ≤ off && off < 0x12000 then (vget s.windows ((off - 0x11000) / 0x40)).regWord ((off - 0x11000) % 0x40)
  else if 0x12000 ≤ off && off < 0x12100 then (s.job ((off - 0x12000) / 0x40)).shadow.regWord ((off - 0x12000) % 0x40)
  else if off = 0x13000 then wd (flag s.site.enable 0 + at_ s.site.limitMs 8 8)
  else if off = 0x13008 then
    wd (flag s.site.asserted 0 + flag s.site.latched 1
      + ((List.range 4).map fun j => at_ (if (s.job j).opened then (s.job j).siteCode else 0) 2 (8 + 2 * j)).foldl (· + ·) 0)
  else if off = 0x13010 then wd s.site.stamp
  else 0

/-- The reset and boot block (R463). -/
def State.bootWord (s : State) (off : Nat) : Word :=
  let b := s.boot
  if off = 0x20000 then wd (at_ b.causeSource.code 3 0 + flag b.recovery 3 + at_ b.causeStall 3 4 + at_ b.causeFt 56 8)
  else if off = 0x20008 then wd (at_ b.localScope 2 0 + at_ b.localSource 3 2 + at_ b.localTile 5 5 + at_ b.localCore 4 10)
  else if off = 0x20010 then
    wd (at_ b.failedStarts 2 0 + flag b.slotB 2 + flag b.trial 3 + flag b.staged.isSome 4 + at_ b.strapSrc 2 8 + at_ b.strapClk 2 10)
  else if 0x20100 ≤ off && off < 0x20180 then vget b.bkp ((off - 0x20100) / 8)
  else 0

/-- The Fabric Time block (R530, R531). -/
def State.ftWord (s : State) (off : Nat) : Word :=
  let f := s.ft
  match off with
  | 0x30000 => wd s.ftNow
  | 0x30008 => wd (at_ f.state.code 3 0 + at_ f.source.code 2 3 + at_ f.srcLink 5 5 + flag f.unsynced 10 + at_ f.rejected 16 16)
  | 0x30010 => wd f.boundNs
  | 0x30018 => wd f.phasePeriod
  | 0x30020 => wd f.releaseLead
  | 0x30028 => wd (at_ f.lateRelease 32 0)
  | _ =>
    if 0x30100 ≤ off && off < 0x30190 then
      let l := (off - 0x30100) / 8
      wd (toTwos 48 (vget f.links l).offsetPs + flag (s.linkTimeValid l) 63)
    else if 0x30200 ≤ off && off < 0x30290 then wd (toTwos 32 (vget f.links ((off - 0x30200) / 8)).asymPs)
    else 0

/-- The arithmetic clock of an operating point in MHz (R429). -/
def opClock (k : Nat) : Nat := lget [940, 880, 820, 760, 700, 640, 560, 470] k 0

/-- PWR_TILE word 0 (R443). -/
def State.tileWord0 (s : State) (t : Nat) : Word :=
  let x := s.ptile t
  wd (at_ x.op 3 0 + flag (x.vcoreEvt || x.vsramEvt) 3 + flag (decide (x.alloc < x.floor)) 4 + flag x.learnt 5 + at_ (toTwos 8 (s.hottest t)) 8 8
    + at_ (toTwos 8 x.stackC) 8 16 + at_ x.budget 12 32)

/-- The power block (R442, R443). PWR_TILE word 1 reports measured currents, which are open. -/
def State.powerWord (s : State) (off : Nat) : Word :=
  let p := s.power
  if off = 0x40000 then wd (at_ p.cap 13 0 + at_ p.computeCap 13 16)
  else if off = 0x40008 then wd (flag p.learnEn 0 + at_ p.learnPeriods 8 8 + at_ p.staticPct 8 16 + at_ p.profilePct 8 24)
  else if off = 0x40010 then
    wd (at_ p.inputW 13 0 + flag p.railEvt 16 + flag p.thermEvt 17 + flag p.overrun 18 + flag p.vlinkEvt 19
      + at_ (satAdd 16 0 (p.profiles.filter fun f => decide (p.learnPeriods ≤ f.periods)).length) 16 32)
  else if off = 0x40018 then wd (at_ p.railCount 16 0 + at_ p.throttles 16 16 + at_ p.discards 16 32 + at_ p.overruns 16 48)
  else if 0x40100 ≤ off && off < 0x40140 then
    let k := (off - 0x40100) / 8
    wd (at_ (opClock k) 10 0 + at_ (Config.vcoreMv k) 10 16 + at_ (Config.fullDw k) 12 32)
  else if 0x40200 ≤ off && off < 0x40220 then wd (at_ (s.job ((off - 0x40200) / 8)).phase 8 0)
  else if 0x40400 ≤ off && off < 0x40800 then
    let j := (off - 0x40400) / 0x100
    wd (((List.range 8).map fun i => at_ ((kvGet (s.job j).prefs ((off - 0x40400) % 0x100 + i)).getD 0) 3 (8 * i)).foldl (· + ·) 0)
  else if 0x41000 ≤ off && off < 0x41400 then
    let t := (off - 0x41000) / 0x20
    if off % 0x20 = 0 then s.tileWord0 t
    else if off % 0x20 = 8 then
      wd (Config.freeNat s.freeCount % 2 ^ 48 &&& 0xFFFF03FF03FF)
    else 0
  else 0

/-- The words of an error log record (R237). -/
def LogRec.words (r : LogRec) : List Word :=
  [wd (at_ r.kind 4 0 + at_ r.memory 3 4 + at_ r.tile 5 8 + at_ r.core 4 13 + at_ r.channel 5 17 + at_ r.page 14 22 + at_ r.job 4 36
      + at_ r.master 16 40), r.addr, wd r.ft,
   wd (at_ r.synd 15 0 + at_ r.bit0 7 16 + at_ r.bit1 7 24 + at_ r.seq 32 32)]

/-- The words of JSC_POISON_REC (R369). -/
def PoisonRec.words (r : PoisonRec) : List Word :=
  [wd (at_ r.bucket 32 0 + at_ r.rank 12 32 + at_ r.mod 12 44), wd r.step, wd r.ft, wd (at_ r.element 32 0 + flag r.poisoned 32)]

/-- Retired physical pages of a tile whose moves are still to come (R239, R240). -/
def State.pendingOn (s : State) (t : Nat) : Nat :=
  (s.usedPages.filter fun (h, l) =>
    let e := s.pageEntry h l
    e.backed && e.tile == t && s.physRetired e.tile e.channel e.page).length

/-- Physical pages of a tile's stack in service (R236, R533). -/
def State.pagesInService (s : State) (t : Nat) : Nat := 393216 - s.retiredOn t + s.pendingOn t

/-- The pages in service of the module. -/
def State.capacity (s : State) : Nat := ((List.range 32).map s.pagesInService).foldl (· + ·) 0

/-- The reliability block (R107 to R110, R234 to R237, R368, R369, R416, R417). -/
def State.relWord (s : State) (off : Nat) : Word :=
  let r := s.rel
  let m := s.memErr
  if off = 0x50000 then wd (flag r.sampleEn 0 + flag r.gate 1 + at_ r.log2 4 8 + at_ r.stress 4 16)
  else if off = 0x50008 then
    wd (flag r.retiredNew 0 + flag r.histDrop 1 + flag r.suspectNew 2 + at_ (r.tests.filter fun t => t.started).length 8 8
      + at_ r.windows.length 16 16)
  else if off = 0x50010 then wd (at_ r.sampled 32 0 + at_ r.mismatches 16 32 + at_ r.samplerFaults 16 48)
  else if off = 0x50018 then wd (at_ r.passed 16 0 + at_ r.failed 16 16 + at_ r.skipped 16 32 + at_ r.ended 16 48)
  else if off = 0x50020 then wd (at_ r.hist.length 17 0 + at_ s.oph 32 32)
  else if 0x50200 ≤ off && off < 0x50240 then
    let u := (s.job ((off - 0x50200) / 0x10)).sus
    if off % 0x10 = 0 then wd u.fromGen else wd (flag u.valid 0 + flag u.nominal 1 + at_ u.core 9 16)
  else if 0x50400 ≤ off && off < 0x50600 then
    let n := (s.job ((off - 0x50400) / 0x80)).num
    let o := off % 0x80
    if o = 0 then n.statusWord else if o = 8 then wd (flag n.nanHalt 0)
    else if o < 0x30 then lget n.nanRec.words ((o - 0x10) / 8) 0
    else if o < 0x50 then lget n.rangeRec.words ((o - 0x30) / 8) 0 else 0
  else if 0x50600 ≤ off && off < 0x50800 then
    let c := (s.job ((off - 0x50600) / 0x80)).stp
    let o := off % 0x80
    if o = 0 then wd (at_ c.grace 24 0) else if o = 8 then wd c.gen
    else if o = 0x10 then wd (flag c.genOpen 0 + flag c.poisonTrap 1 + at_ c.late 16 16 + at_ c.retract 16 32 + at_ c.recollect 16 48)
    else if 0x20 ≤ o && o < 0x40 then lget c.poisonRec.words ((o - 0x20) / 8) 0 else 0
  else if off = 0x50800 then wd (flag m.ueSeen 0 + flag m.overflow 1 + flag (!s.deferred.isEmpty) 2)
  else if off = 0x50808 then wd (at_ m.ce 32 0 + at_ m.ue 32 32)
  else if off = 0x50810 then wd (at_ m.next 5 0 + at_ m.valid 6 8)
  else if off = 0x50818 then wd (flag m.scrubEn 0 + flag m.logCe 1 + at_ m.hours 8 8 + at_ m.mins 8 16)
  else if off = 0x50820 then wd (at_ s.capacity 32 0 + at_ (12582912 - s.capacity) 32 32)
  else if 0x50900 ≤ off && off < 0x50D00 then lget (vget m.log ((off - 0x50900) / 0x20)).words (off % 0x20 / 8) 0
  else 0

/-- The target number of a selector, where it is valid (R486). -/
def selectorTarget (n : Nat) : Option Nat :=
  if n % 16 ≤ 2 then some (n % 16 * 32 + n / 16 % 32) else if n = 3 then some 96 else none

/-- The security block (R499). -/
def State.secWord (s : State) (off : Nat) : Word :=
  let c := s.sec
  if off = 0x60000 then
    wd (flag s.approved 0 + flag c.selfTestOk 1 + flag c.error 2 + flag c.mirror 3 + flag c.officer.isSome 4 + flag c.fmKey.isSome 5
      + flag c.ideIo 6 + flag c.ideCm 7 + flag c.diagUsed 8 + at_ c.fmReject 16 16 + at_ c.svn 7 32)
  else if off = 0x60008 then wd (((List.range 64).map fun w => flag (s.officer w) w).foldl (· + ·) 0)
  else if off = 0x60010 then wd (at_ c.tamperCode 4 0)
  else if off = 0x60020 then wd (at_ c.atTarget 9 0 + at_ c.atEntry 8 16)
  else if 0x60028 ≤ off && off < 0x60048 then
    match selectorTarget c.atTarget with
    | some t => lget (s.accessEntry t c.atEntry).words ((off - 0x60028) / 8) 0
    | none => 0
  else 0

/-- LINK_STATUS.STATE (R300). -/
def LinkState.code : LinkState → Nat
  | .off => 0 | .down => 1 | .training => 2 | .up => 3

/-- A link's registers (R300). -/
def State.linkWord (s : State) (l off : Nat) : Word :=
  let k := s.link l
  match off with
  | 0x00 => wd (flag k.enable 0 + at_ k.port 5 8)
  | 0x08 =>
    wd (at_ k.st.code 2 0 + at_ k.width 2 2 + at_ k.laneFault 4 4 + flag k.widthDrop 8 + flag (!s.formed k.port) 9 + flag k.peerErr 10
      + flag k.retired 11 + at_ k.peerModule 12 16 + at_ k.peerLink 5 28 + flag k.peerValid 33)
  | 0x10 => wd (at_ k.wVc0 8 0 + at_ k.wVc2 8 8 + at_ k.wVc3 8 16)
  | 0x18 => wd (at_ k.cwCorrected 32 0 + at_ k.cwUncorr 32 32)
  | 0x20 => wd (at_ k.rowanDiscard 16 0 + at_ k.replays 16 16 + at_ k.transitDrop 16 32 + at_ k.unreachDrop 16 48)
  | _ => 0

/-- The links block: links and fabric registers (R291, R299 to R301). -/
def State.fabWord (s : State) (off : Nat) : Word :=
  let f := s.fabric
  if off < 0x92000 then s.linkWord ((off - 0x80000) / 0x1000) (off % 0x1000)
  else if off = 0x98000 then wd (at_ f.mod 12 0 + flag f.modValid 12 + at_ (b2n f.legacy) 2 13 + flag f.transitEn 15)
  else if off = 0x98008 then
    wd (((List.range 18).map fun p => flag (s.portUp p) p).foldl (· + ·) 0 + flag f.resErr 18 + flag s.resScaled 19 + at_ f.localDrop 16 20)
  else if 0x9A000 ≤ off && off < 0x9A400 then
    let r := vget f.res ((off - 0x9A000) / 0x10)
    if off % 0x10 = 0 then wd (at_ r.job 32 0 + at_ r.inPort 5 32 + at_ r.outPort 5 37 + flag r.valid 42) else wd (at_ r.rate 13 0)
  else if 0x9C000 ≤ off && off < 0x9D000 then
    wd (((List.range 8).map fun i => at_ (s.route (off - 0x9C000 + i)) 8 (8 * i)).foldl (· + ·) 0)
  else 0

/-- A job slot that a core's drain still waits for, if any: the register of R533 names no job, and a core that any job may still use has
not been drained. [Log entry 132: DESIGN CHOICE] -/
def State.lastUser (s : State) (g : Nat) : Nat := (((s.rel.tests.find? fun t => t.core == g).bind fun t => t.waits.head?)).getD 0

/-- A tile block (R533). -/
def State.tileBlock (s : State) (t off : Nat) : Word :=
  let cores := (List.range 16).map fun c => t * 16 + c
  match off with
  | 0x00 =>
    let link := ((List.range 18).find? fun l => linkTile l == t).getD 31
    wd (at_ t 5 0 + at_ link 5 5 + flag (t == 0) 10 + flag (t == 0 || t == 16) 11
      + flag (!s.boot.cpFailed.contains t && !s.boot.tileReset.contains t) 12 + flag (t == (if s.boot.rolesOn16 then 16 else 0)) 13
      + flag (s.boot.tileReset.contains t) 14)
  | 0x08 =>
    wd ((cores.map fun g => at_ (s.coreState (s.lastUser g) g) 2 (2 * (g % 16)) + flag (s.boot.coreReset.contains g) (32 + g % 16)).foldl (· + ·) 0)
  | 0x10 =>
    wd ((cores.flatMap fun g => (List.range 4).map fun a => flag (s.retired (.array g a)) (4 * (g % 16) + a)).foldl (· + ·) 0)
  | 0x18 => wd (((List.range 8).map fun i => at_ (toTwos 8 (lget (s.ptile t).sensors i 0)) 8 (8 * i)).foldl (· + ·) 0)
  | 0x20 =>
    wd (((List.range 32).map fun c => flag (s.retired (.channel t c)) c).foldl (· + ·) 0 + at_ (s.pagesInService t) 19 32
      + at_ (toTwos 8 (s.ptile t).stackC) 8 56)
  | _ => 0

/-- The block at an offset answers: all while the module runs, the identity and status block always, and in Sloe mode the set of
window 0 (R452, R457, R523). [Log entry 103: DEDUCED] -/
def State.answers (s : State) (off : Nat) : Bool :=
  off < 0x1000 || s.registersRun || (s.boot.sloe && 0x11000 ≤ off && off < 0x11040)

/-- The word at an offset of register space, a multiple of 8; an unassigned one reads 0 (R523, R524). [Log entry 33: DEDUCED] -/
def State.regValue (s : State) (off : Nat) : Word :=
  if !s.answers off then 0
  else if off < 0x1000 then s.idWord off
  else if 0x10000 ≤ off && off < 0x14000 then s.cpWord off
  else if 0x20000 ≤ off && off < 0x21000 then s.bootWord off
  else if 0x30000 ≤ off && off < 0x31000 then s.ftWord off
  else if 0x40000 ≤ off && off < 0x42000 then s.powerWord off
  else if 0x50000 ≤ off && off < 0x51000 then s.relWord off
  else if 0x60000 ≤ off && off < 0x61000 then s.secWord off
  else if 0x80000 ≤ off && off < 0x9D000 then s.fabWord off
  else if 0xC0000 ≤ off && off < 0xD0000 then wd (bytesNat (cellGetAll s.boot.sram (off - 0xC0000) 8))
  else if 0x100000 ≤ off && off < 0x300000 then s.tileBlock ((off - 0x100000) / 0x10000) (off % 0x10000)
  else 0

/-- A read of a word: one of an error log record's word 0 marks the record as read (R235). -/
def State.regRead (s : State) (off : Nat) : Word × State :=
  let s0 := if off = 0x200 then s.drawStep else s
  let v := s0.regValue off
  let s1 := { s0 with freeCount := s0.freeCount + 1 }
  if s.answers off && 0x50900 ≤ off && off < 0x50D00 && off % 0x20 = 0 then
    (v, { s1 with memErr := { s1.memErr with log := vmod s1.memErr.log ((off - 0x50900) / 0x20) fun r => { r with seen := true } } })
  else (v, s1)

/-! ## Windows (R62, R64 to R66) -/

/-- Change a window. -/
def State.modWindow (s : State) (w : Nat) (f : Window → Window) : State := { s with windows := vmod s.windows w f }

/-- The first word key of a window's device-memory ring (R195). -/
def ringKey (w : Nat) : Nat := sharedBase + w % 32 * 8388608 + (0x3F80000 + w / 32 * 0x40000) / 8

/-- The free reply entries that are not reserved (R77). -/
def Window.freeEntries (w : Window) : Nat := 4095 - (w.tail + 4096 - w.ack) % 4096 - w.reserved

/-- A window as enabling leaves it (R65). -/
def Window.enabled (w : Window) : Window :=
  { w with enable := true, head := 0, headPhase := true, nextSeq := 0, tail := 0, tailPhase := true, ack := 0, seqErr := 0
           replyFull := false, found := none, queue := [] }

/-- ENABLE goes from 0 to 1 with the other fields as written (R64, R65); in Sloe mode only a device-memory ring serves (R80). -/
def State.enableWindow (s : State) (w : Nat) (host : Bool) (poll : Nat) : State :=
  let s1 := s.modWindow w fun x => { x with ringInHost := host, pollUs := poll }
  if host && (poll = 0 || 1000 < poll || s.boot.sloe) then s1.modWindow w fun x => { x with cfgErr := true }
  else
    let s2 := s1.modWindow w Window.enabled
    if host then s2 else s2.eraseKeys (ringKey w) (ringKey w + 32768)

/-- ENABLE goes from 1 to 0 (R66, R480). -/
def State.disableWindow (s : State) (w : Nat) : State := (s.modWindow w Window.disabled).modSec fun c => c.dropWindow w

/-- A write of CMDW_CTRL (R64 to R66). -/
def State.writeCmdwCtrl (s : State) (w : Nat) (v : Word) : State :=
  if (vget s.windows w).enable then (if bitOf v 0 then s else s.disableWindow w)
  else if bitOf v 0 then s.enableWindow w (bitOf v 1) (fld v 16 10)
  else s.modWindow w fun x => { x with ringInHost := bitOf v 1, pollUs := fld v 16 10 }

/-- A write of CMDW_REPLY_ACK (R62). -/
def State.writeAck (s : State) (w index : Nat) : State :=
  s.modWindow w fun x =>
    if (index + 4096 - x.ack) % 4096 ≤ (x.tail + 4096 - x.ack) % 4096 then
      let y := { x with ack := index }
      { y with replyFull := y.replyFull && decide (y.freeEntries < 3) }
    else { x with ackErr := true }

/-! ## Writes (R9, R522, R524) -/

/-- A register write: the registers' RW fields as the write leaves them, the written bits, and which bits it writes. -/
structure RegWrite where
  nv   : Word
  set_ : Word
  mask : Word

/-- The bits of a register's fields that span both halves, which a 4-byte write leaves unchanged (R522). -/
def spanBits (off : Nat) : Word :=
  let whole : Word := 0xFFFFFFFFFFFFFFFF
  if off = 0x210 || (0x20100 ≤ off && off < 0x20180) || (0xC0000 ≤ off && off < 0xD0000) then whole
  else if 0x11000 ≤ off && off < 0x12000 && (off % 0x40 = 0x08 || off % 0x40 = 0x10) then whole
  else if 0x12000 ≤ off && off < 0x12100 then
    (if off % 0x40 = 0 then 0x3FF000000 else if off % 0x40 = 0x08 || off % 0x40 = 0x10 then whole else 0)
  else if 0x50600 ≤ off && off < 0x50800 && off % 0x80 = 0x08 then whole
  else 0

/-- A write of 8 bytes, or of one half, to the word at `off` (a multiple of 8). -/
def State.merge (s : State) (off : Nat) (half : Option Bool) (v : Word) : RegWrite :=
  let m : Word := match half with
    | none => 0xFFFFFFFFFFFFFFFF
    | some hi => (if hi then 0xFFFFFFFF00000000 else 0x00000000FFFFFFFF) &&& ~~~(spanBits off)
  { nv := (s.regValue off &&& ~~~m) ||| (v &&& m), set_ := v &&& m, mask := m }

/-- Any job is open: some registers ignore writes (R301, R530). -/
def State.anyOpen (s : State) : Bool := (List.range 4).any fun j => (s.job j).opened

/-- Writes of the identity and status block (R454, R462). -/
def State.writeId (s : State) (off : Nat) (w : RegWrite) : State :=
  match off with
  | 0x200 => s.modBoot fun b => { b with retainedErr := b.retainedErr && !bitOf w.set_ 5 }
  | 0x210 => s.modBoot fun b => { b with bootAddr := w.nv }
  | 0x218 => if bitOf w.mask 0 then opBootLoad (fld w.nv 0 32) s else s
  | _ => s

/-- A write of SA_CTRL (R382, R387). -/
def State.writeSaCtrl (s : State) (w : RegWrite) : State :=
  let s1 := { s with site := { s.site with enable := bitOf w.nv 0, limitMs := if fld w.nv 8 8 = 0 then s.site.limitMs else fld w.nv 8 8 } }
  opSaRelease (fld w.set_ 16 4) s1

/-- Writes of the command processor block (R62, R64, R375, R382, R529). -/
def State.writeCp (s : State) (off : Nat) (w : RegWrite) : State :=
  if 0x11000 ≤ off && off < 0x12000 then
    let n := (off - 0x11000) / 0x40
    let on := (vget s.windows n).enable
    match off % 0x40 with
    | 0x00 => s.writeCmdwCtrl n w.nv
    | 0x08 => if on then s else s.modWindow n fun x => { x with ringAddr := w.nv.toNat / 4096 * 4096 }
    | 0x10 => if on then s else s.modWindow n fun x => { x with replyAddr := w.nv.toNat / 4096 * 4096 }
    | 0x28 => if bitOf w.mask 0 then s.writeAck n (fld w.nv 0 12) else s
    | 0x30 => s.modWindow n fun x => { x with cfgErr := x.cfgErr && !bitOf w.set_ 1, ackErr := x.ackErr && !bitOf w.set_ 2 }
    | _ => s
  else if 0x12000 ≤ off && off < 0x12100 then
    let j := (off - 0x12000) / 0x40
    let on := (s.job j).shadow.enable
    match off % 0x40 with
    | 0x00 => opShadowEnable j w.nv s
    | 0x08 => if on then s else s.modJob j fun b => { b with shadow := { b.shadow with base := w.nv } }
    | 0x10 => if on || w.nv.toNat % 64 ≠ 0 then s else s.modJob j fun b => { b with shadow := { b.shadow with bytes := w.nv.toNat } }
    | 0x18 => s.modJob j fun b => { b with shadow := { b.shadow with cfgErr := b.shadow.cfgErr && !bitOf w.set_ 0 } }
    | _ => s
  else if off = 0x13000 then s.writeSaCtrl w
  else if off = 0x13008 then { s with site := { s.site with latched := s.site.latched && !bitOf w.set_ 1 } }
  else s

/-- Writes of the Fabric Time block (R530, R531). -/
def State.writeFt (s : State) (off : Nat) (w : RegWrite) : State :=
  if off = 0x30018 then
    let p := fld w.nv 0 20
    if s.anyOpen || p % 10000 ≠ 0 || p < 10000 || 1000000 < p then s else s.modFt fun f => { f with phasePeriod := p }
  else if off = 0x30020 then
    let p := fld w.nv 0 17
    if s.anyOpen || p % 100 ≠ 0 || p < 500 || 100000 < p then s else s.modFt fun f => { f with releaseLead := p }
  else if 0x30200 ≤ off && off < 0x30290 then
    s.modFt fun f => { f with links := vmod f.links ((off - 0x30200) / 8) fun k => { k with asymPs := fromTwos 32 (fld w.nv 0 32) } }
  else s

/-- Writes of the power block (R443). -/
def State.writePower (s : State) (off : Nat) (w : RegWrite) : State :=
  if off = 0x40008 then
    let (n, st, pr) := (fld w.nv 8 8, fld w.nv 16 8, fld w.nv 24 8)
    if n < 4 || st < 5 || 20 < st || 20 < pr then s
    else
      let s1 := s.modPower fun p => { p with learnEn := bitOf w.nv 0, learnPeriods := n, staticPct := st, profilePct := pr }
      if bitOf w.set_ 1 then opProfileClear s1 else s1
  else if off = 0x40010 then
    s.modPower fun p => { p with railEvt := p.railEvt && !bitOf w.set_ 16, thermEvt := p.thermEvt && !bitOf w.set_ 17
                                 overrun := p.overrun && !bitOf w.set_ 18, vlinkEvt := p.vlinkEvt && !bitOf w.set_ 19 }
  else s

/-- Writes of the reliability block (R108, R109, R235, R236, R368, R416, R417). -/
def State.writeRel (s : State) (off : Nat) (w : RegWrite) : State :=
  if off = 0x50000 then
    if 12 < fld w.nv 8 4 || 10 < fld w.nv 16 4 then s
    else { s with rel := { s.rel with sampleEn := bitOf w.nv 0, gate := bitOf w.nv 1, log2 := fld w.nv 8 4, stress := fld w.nv 16 4 } }
  else if off = 0x50008 then
    { s with rel := { s.rel with retiredNew := s.rel.retiredNew && !bitOf w.set_ 0, histDrop := s.rel.histDrop && !bitOf w.set_ 1
                                 suspectNew := s.rel.suspectNew && !bitOf w.set_ 2 } }
  else if 0x50200 ≤ off && off < 0x50240 then
    if off % 0x10 = 8 && bitOf w.set_ 0 then
      s.modJob ((off - 0x50200) / 0x10) fun j => { j with sus := { j.sus with valid := false, nominal := false } }
    else s
  else if 0x50400 ≤ off && off < 0x50600 then
    let j := (off - 0x50400) / 0x80
    if off % 0x80 = 0 then opJnsStatusWrite j w.set_ s
    else if off % 0x80 = 8 then s.modJob j fun b => { b with num := { b.num with nanHalt := bitOf w.nv 0 } }
    else s
  else if 0x50600 ≤ off && off < 0x50800 then
    let j := (off - 0x50600) / 0x80
    match off % 0x80 with
    | 0x00 => s.modJob j fun b => { b with stp := { b.stp with grace := if fld w.nv 0 24 = 0 then b.stp.grace else fld w.nv 0 24 } }
    | 0x08 => if bitOf w.mask 0 then opJscGenWrite j w.nv s else s
    | 0x10 => s.modJob j fun b => { b with stp := { b.stp with poisonTrap := b.stp.poisonTrap && !bitOf w.set_ 1 } }
    | _ => s
  else if off = 0x50800 then
    { s with memErr := { s.memErr with ueSeen := s.memErr.ueSeen && !bitOf w.set_ 0, overflow := s.memErr.overflow && !bitOf w.set_ 1 } }
  else if off = 0x50818 then
    { s with memErr := { s.memErr with
        scrubEn := bitOf w.nv 0, logCe := bitOf w.nv 1
        hours := if fld w.nv 8 8 = 0 then s.memErr.hours else fld w.nv 8 8
        mins := if fld w.nv 16 8 = 0 then s.memErr.mins else fld w.nv 16 8 } }
  else s

/-- A write of LINK_CTRL (R300): a port above 17 leaves the register as it is. -/
def State.writeLinkCtrl (s : State) (l : Nat) (w : RegWrite) : State :=
  let p := fld w.nv 8 5
  if 17 < p then s
  else
    let k := s.link l
    let s1 := opLinkPort l p s
    let s2 := if bitOf w.nv 0 = k.enable then s1 else opLinkEnable l (bitOf w.nv 0) s1
    if bitOf w.set_ 1 then opLinkRetrain l s2 else s2

/-- A write of FAB_CTRL (R301): a mode of 2 or 3 leaves the register as it is. [Log entry 73: DEDUCED] -/
def State.writeFabCtrl (s : State) (w : RegWrite) : State :=
  if 2 ≤ fld w.nv 13 2 then s
  else
    let old := s.fabric
    let f := { old with transitEn := bitOf w.nv 15 }
    if s.anyOpen then { s with fabric := f }
    else
      let s1 : State := { s with fabric := { f with mod := fld w.nv 0 12, modValid := bitOf w.nv 12, legacy := fld w.nv 13 2 = 1 } }
      if s1.fabric.mod ≠ old.mod || s1.fabric.modValid ≠ old.modValid then s1.tellPeers else s1

/-- Writes of the links block (R291, R295, R300, R301). -/
def State.writeFab (s : State) (off : Nat) (w : RegWrite) : State :=
  if off < 0x92000 then
    let l := (off - 0x80000) / 0x1000
    match off % 0x1000 with
    | 0x00 => s.writeLinkCtrl l w
    | 0x08 => s.modLink l fun k => { k with widthDrop := k.widthDrop && !bitOf w.set_ 8 }
    | 0x10 => s.modLink l fun k =>
        { k with wVc0 := if fld w.nv 0 8 = 0 then k.wVc0 else fld w.nv 0 8, wVc2 := if fld w.nv 8 8 = 0 then k.wVc2 else fld w.nv 8 8
                 wVc3 := if fld w.nv 16 8 = 0 then k.wVc3 else fld w.nv 16 8 }
    | _ => s
  else if off = 0x98000 then s.writeFabCtrl w
  else if off = 0x98008 then { s with fabric := { s.fabric with resErr := s.fabric.resErr && !bitOf w.set_ 18 } }
  else if 0x9A000 ≤ off && off < 0x9A400 then s.writeReservation ((off - 0x9A000) / 0x10) (off % 0x10 / 8) w.nv
  else if 0x9C000 ≤ off && off < 0x9D000 then
    (List.range 8).foldl (fun s i =>
      let e := fld w.nv (8 * i) 6
      { s with fabric := { s.fabric with routes := kvPut s.fabric.routes (off - 0x9C000 + i) (if e = 0x1F then none else some e) } }) s
  else s

/-- A write of the word at an offset of register space; the bits of an unassigned offset go nowhere (R523, R524).
[Log entry 116: DEDUCED] -/
def State.regStore (s : State) (off : Nat) (half : Option Bool) (v : Word) : State :=
  let w := s.merge off half v
  if !s.answers off then s
  else if off < 0x1000 then s.writeId off w
  else if 0x10000 ≤ off && off < 0x14000 then s.writeCp off w
  else if 0x20100 ≤ off && off < 0x20180 then s.modBoot fun b => { b with bkp := vset b.bkp ((off - 0x20100) / 8) w.nv }
  else if 0x30000 ≤ off && off < 0x31000 then s.writeFt off w
  else if 0x40000 ≤ off && off < 0x42000 then s.writePower off w
  else if 0x50000 ≤ off && off < 0x51000 then s.writeRel off w
  else if off = 0x60020 then s.modSec fun c => { c with atTarget := fld w.nv 0 9, atEntry := fld w.nv 16 8 }
  else if 0x80000 ≤ off && off < 0x9D000 then s.writeFab off w
  else if 0xC0000 ≤ off && off < 0xD0000 then s.modBoot fun b => { b with sram := cellSetAll b.sram (off - 0xC0000) (wordBytes w.nv) }
  else s

/-! ## Accesses with their checks (R198, R487, R499, R522) -/

/-- The table allows an access of a register; SEC_AT_INDEX is written where the block may be read (R499). -/
def State.regAllowed (s : State) (x : OpCtx) (off : Nat) (op : MemOp) : Bool :=
  s.accessAllowed 96 x.master x.fjob off op
    || (op = .write && off = 0x60020 && (x.master = mHost || x.master = mFabricManager) && s.accessAllowed 96 x.master x.fjob off .read)

/-- Log a register access that was not performed (R237 MEMORY 6). -/
def State.logReg (s : State) (x : OpCtx) (kind off : Nat) : State :=
  s.log (({ kind := kind, memory := 6, addr := wd (at_ 2 4 60 + at_ s.fabric.mod 12 48 + at_ off 24 0), bit0 := 0x7F, bit1 := 0x7F } :
    LogRec).by_ x)

/-- A master reads an aligned word of register space. -/
def State.readReg (s : State) (x : OpCtx) (off : Nat) : OpRes × Word × State :=
  if s.answers off && !s.regAllowed x off .read then (.denied, 0, s.logReg x 5 off)
  else
    let (v, s1) := s.regRead off
    (.ok, v, s1)

/-- The host reads 4 or 8 bytes of register space, naturally aligned (R522); the low half of FT_NOW latches the high half (R29). A read of
another size or alignment, or one denied, gives 0. [Log entry 33: DEDUCED] -/
def State.hostRead (s : State) (off size : Nat) : OpRes × Word × State :=
  let x : OpCtx := { master := mHost }
  let low := off % 8 = 0
  if !((size = 8 || size = 4) && off % size = 0) then (.unbacked, 0, s.logReg x 8 off)
  else
    let (r, v, s1) := s.readReg x (off / 8 * 8)
    if size = 8 || r ≠ .ok then (r, v, s1)
    else if off = 0x30000 && s.answers off then (r, wd (v.toNat % 2 ^ 32), { s1 with ft := { s1.ft with highLatch := v.toNat / 2 ^ 32 } })
    else if off = 0x30004 && s.answers 0x30000 then (r, wd s1.ft.highLatch, s1)
    else (r, wd (if low then v.toNat % 2 ^ 32 else v.toNat / 2 ^ 32), s1)

/-- A host read of a register, its value kept. -/
def opRegisterRead (off size : Nat) (s : State) : State :=
  let (_, v, s1) := s.hostRead off size
  { s1 with lastData := [(v, false)], cxl := { s1.cxl with lastReg := v } }

/-- A master writes register space, an aligned word or, for the host, an aligned half (R522). [Log entry 116: DEDUCED] -/
def State.writeReg (s : State) (x : OpCtx) (off size : Nat) (v : Word) : OpRes × State :=
  let okSize := (size = 8 && off % 8 = 0) || (x.master = mHost && size = 4 && off % 4 = 0)
  if !s.answers (off / 8 * 8) then (.ok, s)
  else if !okSize then (.unbacked, s.logReg x 8 off)
  else if !s.regAllowed x (off / 8 * 8) .write then (.denied, s.logReg x 5 off)
  else if size = 8 then (.ok, s.regStore off none v)
  else
    let hi := off % 8 = 4
    (.ok, s.regStore (off / 8 * 8) (some hi) (if hi then v <<< 32 else v))

/-- An operation of register space that acts while the module is powered and out of reset. -/
def whenPowered (op : State → State) (s : State) : State := if s.boot.powered && !s.boot.inReset then op s else s

/-- REGISTER_WRITE (R522). -/
def execRegisterWrite (dt master offset size : Nat) (value : Word) (s : State) : Host.Outcome State Fault Refusal :=
  runPart "register" offset 0x1000000 dt (whenPowered fun s => (s.writeReg { master := master } offset size value).2) s

/-- RESERVATION_WRITE (R295). -/
def execReservationWrite (dt master index word : Nat) (value : Word) (s : State) : Host.Outcome State Fault Refusal :=
  runPart "reservation" index 64 dt
    (whenPowered fun s => (s.writeReg { master := master } (0x9A000 + index * 0x10 + word % 2 * 8) 8 value).2) s

/-- CMDW_ENABLE: the host writes CMDW_CTRL (R65). -/
def execCmdwEnable (dt w : Nat) (value : Word) (s : State) : Host.Outcome State Fault Refusal :=
  runPart "window" w 64 dt (whenPowered fun s => (s.writeReg { master := mHost } (0x11000 + w * 0x40) 8 (value ||| 1)).2) s

/-- CMDW_DISABLE: the host writes ENABLE 0 (R66). -/
def execCmdwDisable (dt w : Nat) (s : State) : Host.Outcome State Fault Refusal :=
  runPart "window" w 64 dt (whenPowered fun s =>
    (s.writeReg { master := mHost } (0x11000 + w * 0x40) 8 (s.regValue (0x11000 + w * 0x40) &&& ~~~(1 : Word))).2) s

/-- CMDW_REPLY_ACK: the host writes the index of the next reply it will read (R62). -/
def execCmdwReplyAck (dt w index : Nat) (s : State) : Host.Outcome State Fault Refusal :=
  runPart "window" w 64 dt (whenPowered fun s => (s.writeReg { master := mHost } (0x11000 + w * 0x40 + 0x28) 8 (wd (at_ index 12 0))).2) s

/-! ## IDENTIFY, STATUS, QUERY_CAPS (R71, R527, R528) -/

/-- The words of a range of the identity and status block. -/
def State.idRange (s : State) (off n : Nat) : List Word := (List.range n).map fun i => s.regValue (off + 8 * i)

/-- Write a packet's result and complete with a RESULT. -/
def State.answerWith (s : State) (w : Work) (ws : List Word) (result : Nat) : State :=
  ((s.writeResult w (s.ctl w) (w.pkt.par 0) (ws.flatMap wordBytes) false).modWork w.pid fun v => { v with result := result }).finishRemote w.pid

/-- IDENTIFY. -/
def State.identify (w : Work) (s : State) : State := s.answerWith w (s.idRange 0 64) s.coresInService

def execIdentify (dt pid : Nat) (s : State) : Host.Outcome State Fault Refusal := run dt (onHanded pid [0x00] State.identify) s

/-- STATUS. -/
def State.status (w : Work) (s : State) : State := (s.answerWith w (s.idRange 0x200 64) s.ft.state.code)

def execStatus (dt pid : Nat) (s : State) : Host.Outcome State Fault Refusal := run dt (onHanded pid [0x01] State.status) s

/-- QUERY_CAPS. -/
def State.queryCaps (w : Work) (s : State) : State :=
  s.answerWith w (if w.pkt.par 1 = 0 then s.idRange 0x100 8 else List.replicate 8 0) 1

def execQueryCaps (dt pid : Nat) (s : State) : Host.Outcome State Fault Refusal := run dt (onHanded pid [0x02] State.queryCaps) s

end Sys2Proof.Machine
end

