-- ==== Sys2Proof/Machine/HostLink.lean ====
section
/-! DEFINITION. The host link's condition, the SMBus sideband and the debug port (18_host_and_package.md R503 to R517). -/

namespace Sys2Proof.Machine

/-- Set or clear a condition under which the module holds its CXL requests (R507). -/
def CxlSt.setHold (c : CxlSt) (why : CxlHold) (on : Bool) : CxlSt :=
  match why with
  | .linkDown => { c with linkUp := !on }
  | .noBme => { c with bme := !on }
  | .d3hot => { c with d3 := on }

/-- The CXL link drops, Bus Master Enable goes to 0, or the function enters D3hot (R507). -/
def opCxlLinkDown (why : CxlHold) (s : State) : State := { s with cxl := s.cxl.setHold why true }

def execCxlLinkDown (dt : Nat) (why : CxlHold) (s : State) : Host.Outcome State Fault Refusal := run dt (opCxlLinkDown why) s

/-- PCIe link status: the trained speed and width (R504). [Log entry 139: PRESUMED] -/
def CxlSt.linkStatus (c : CxlSt) : Nat := (if c.speed = 64 then 6 else if c.speed = 32 then 5 else 4) + at_ c.width 6 4

/-- A condition of R507 ends: what waited goes out when the command lands, and a waiting boot load is made; a link
that was down trains anew. With CLK_MODE 10 the
link needs REFCLK156 (R512). -/
def opCxlResume (why : CxlHold) (s : State) : State :=
  if why = .linkDown && s.boot.strapClk = 2 && !s.ft.refPresent then s
  else
    let s1 := if why = .linkDown && !s.cxl.linkUp then s.trainCxl else s
    ({ s1 with cxl := s1.cxl.setHold why false } : State).loadBoot

def execCxlResume (dt : Nat) (why : CxlHold) (s : State) : Host.Outcome State Fault Refusal := run dt (opCxlResume why) s

/-! ## The sideband (R516) -/

/-- The module answers MCTP: PWR_GOOD is asserted, and no power-on reset is in progress. [Log entry 113: DEDUCED] -/
def Boot.sideband (b : Boot) : Bool := b.powered && !(b.inReset && b.causeSource == .powerOn)

/-- Bring-up step 2 is complete; in Sloe mode the reason tells (R452, R457). -/
def Boot.selfTested (b : Boot) : Bool := b.bringupDone || (b.sloe && (b.reason == 4 || b.reason == 6)) || (b.bringup && 3 ≤ b.step)

/-- The hottest junction sensor. -/
def State.junctionC (s : State) : Int :=
  ((List.range 32).flatMap fun t => (s.ptile t).sensors).foldl max (lget (s.ptile 0).sensors 0 0)
/-- The hottest stack. -/
def State.hotStackC (s : State) : Int := ((List.range 32).map fun t => (s.ptile t).stackC).foldl max (s.ptile 0).stackC

/-- The PLDM sensors 1 to 4. -/
def State.pldmSensors (s : State) : List Nat :=
  [s.power.inputW, toTwos 32 s.junctionC, toTwos 32 s.hotStackC, fld s.idState 0 16]

/-- The last MCTP answer. [Log entry 113: DEDUCED] -/
def State.mctpAnswer (s : State) (bs : List Byte) : State := { s with cxl := { s.cxl with lastMctp := bs } }

/-- An MCTP message (R516): control, PLDM, SPDM, or an 8-byte read of the identity and status block whose offset its first four bytes
hold. Another type or offset is not answered. -/
def opMctpMessage (kind : Nat) (body : List Byte) (s : State) : State :=
  if !s.boot.sideband then s
  else if kind = 0x00 then
    let s1 := match Config.mctpEndpoint body with
      | some e => s.modSec fun c => { c with endpoint := e }
      | none => s
    s1.mctpAnswer (Config.mctpResponse kind body [s1.sec.endpoint])
  else if kind = 0x01 then s.drawStep.mctpAnswer (Config.mctpResponse kind body s.drawStep.pldmSensors)
  else if kind = 0x05 || kind = 0x06 then
    let s1 := s.drawStep
    if s1.boot.selfTested then
      let (r, s2) := s1.spdm body .mctp
      s2.mctpAnswer r
    else s1
  else if kind = 0x7E then
    let off := bytesNat (body.take 4)
    if off < 0x400 && off % 8 = 0 then s.drawStep.mctpAnswer (wordBytes (s.drawStep.regValue off)) else s
  else s

def execMctpMessage (dt kind : Nat) (body : List Byte) (s : State) : Host.Outcome State Fault Refusal := run dt (opMctpMessage kind body) s

/-! ## Debug (R517) -/

/-- The instruction the debug port acts on: EXTEST only under PERST#, debug only while JTAG is unlocked. [Log entry 114: DEDUCED] -/
def State.jtagActs (s : State) : JtagIns :=
  match s.cxl.jtag with
  | .extest => if s.boot.perstLow then .extest else .bypass
  | .debug => if s.sec.jtagLocked then .bypass else .debug
  | i => i

/-- What the debug port's data register captures: IDCODE, or the bypass bit. -/
def State.jtagCapture (s : State) : Option Nat :=
  match s.jtagActs with
  | .idcode => some 0x1E3204D7
  | .bypass => some 0
  | _ => none

/-- A JTAG instruction is loaded. [Log entry 114: DEDUCED] -/
def opJtagInstruction (ins : JtagIns) (s : State) : State :=
  if s.boot.powered then { s with cxl := { s.cxl with jtag := ins } } else s

def execJtagInstruction (dt : Nat) (ins : JtagIns) (s : State) : Host.Outcome State Fault Refusal := run dt (opJtagInstruction ins) s

end Sys2Proof.Machine
end

