-- ==== Sys2Proof/Machine/MemoryOps.lean ====
section
/-! DEFINITION. Memory operations of masters and of arriving messages, scrubbing, the end of page moves, the arrival of messages and
the fabric manager's operations (08_memory.md R198 to R209, R233, R239; 10_links.md R276, R277, R297; 17_security.md R484). -/

namespace Sys2Proof.Machine

/-! ## At the target -/

/-- A request on register space: READ and WRITE of one aligned 8-byte word (R198); the host's reads are those of R522. -/
def State.reqReg (s : State) (x : OpCtx) (off : Nat) (q : MemReq) : OpRes × List (Word × Bool) × State :=
  match q with
  | .read n =>
    if x.master = mHost then
      let (r, v, s1) := s.hostRead off n
      (r, [(v, false)], s1)
    else if n = 8 && off % 8 = 0 then
      let (r, v, s1) := s.readReg x off
      (r, [(v, false)], s1)
    else (.unbacked, [], s.logReg x 8 off)
  | .write bs =>
    if bs.length = 8 && off % 8 = 0 && bs.all Option.isSome then
      let (r, s1) := s.writeReg x off 8 (mergeBytes 0 bs)
      (r, [], s1)
    else (.unbacked, [], s.logReg x 8 off)
  | _ => (.unbacked, [], s.logReg x 8 off)

/-- A request is performed at this module, its target. -/
def State.performReq (s : State) (x : OpCtx) (a : Word) (q : MemReq) : OpRes × List (Word × Bool) × State :=
  match s.addrKind a with
  | .here t off => s.reqHere x t off a q
  | .reg m off => if m = s.fabric.mod then s.reqReg x off q else (.unbacked, [], s.logBad x a)
  | _ => (.unbacked, [], s.logBad x a)

/-- A master of this module sends its request to another module (R209). -/
def State.issueReq (s : State) (x : OpCtx) (a : Word) (q : MemReq) : State :=
  match q with
  | .read n => if spanOk (addrOff a) n then s.issueRead x none a n none none else s.logBad x a
  | .write bs => if spanOk (addrOff a) bs.length then s.issueWrite x none a bs else s.logBad x a
  | .atomic k v w _ =>
    let ops := if k = .cas then [(v, false), (w, false)] else [(v, false)]
    s.issue x none { s.blank .atomic 0 with word2 := a, len := 7, subop := atomicCode k, data := cwsOf ops } none none
  | .accumulate ls =>
    if lanesOk (addrOff a) ls.length then
      s.issue x none { s.blank .accumulate 0 with word2 := a, len := 8 * ls.length - 1, data := cwsOf ls } none none
    else s.logBad x a
  | .malformed => s.logBad x a

/-- An operation reaches its target: this module's memory, where it is held while its page moves, its register space, or another
module. -/
def State.operate (s : State) (h : HeldOp) : State :=
  let (x, a, q) := s.heldReq h
  match s.addrKind a with
  | .here t off => s.serveHere h t off
  | k => match h with
    | .arrived d =>
      let (r, ws, s1) := s.performReq x a q
      s1.answerReq d.msg r ws
    | .own _ =>
      let away := match k with
        | .remote _ _ _ => true
        | .reg m _ => m ≠ s.fabric.mod
        | _ => false
      if away then s.issueReq x a q
      else
        let (r, ws, s1) := s.performReq x a q
        if r = .ok then { s1 with lastData := ws } else s1

/-- An operation of a master of this module, or the oldest arrived message of an operation. -/
def opMemory (op : MsgOp) (src : OpSource) (i : Instr) (s : State) : State :=
  match src with
  | .arrived => s.takeDelivered (fun m => m.op == op) fun d s => s.operate (.arrived d)
  | .own master _ _ _ => if ownMaster master then s.operate (.own i) else s

/-- The register of this module that a read by the host names (R522). [Log entry 33: DEDUCED] -/
def State.hostReg (s : State) (src : OpSource) (addr : Word) : Option Nat :=
  match src, s.addrKind addr with
  | .own master _ _ _, .reg m off => if master = mHost && m = s.fabric.mod then some off else none
  | _, _ => none

/-- A READ. The host's register reads are answered as R452 and R523 say; other operations while the registers run. -/
def opMemoryRead (src : OpSource) (addr : Word) (len : Nat) (i : Instr) (s : State) : State :=
  match s.hostReg src addr with
  | some off => whenPowered (opRegisterRead off len) s
  | none => whenRegisters (opMemory .read src i) s

def execMemoryRead (dt : Nat) (src : OpSource) (addr : Word) (len : Nat) (s : State) : Host.Outcome State Fault Refusal :=
  run dt (opMemoryRead src addr len (.memoryRead dt src addr len)) s

def execMemoryWrite (dt : Nat) (src : OpSource) (addr : Word) (len : Nat) (mask data : List Word) (s : State) :
    Host.Outcome State Fault Refusal :=
  run dt (whenRegisters (opMemory .write src (.memoryWrite dt src addr len mask data))) s

def execMemoryAtomic (dt : Nat) (src : OpSource) (addr : Word) (kind : AtomicOp) (operand operand2 : Word) (s : State) :
    Host.Outcome State Fault Refusal :=
  run dt (whenRegisters (opMemory .atomic src (.memoryAtomic dt src addr kind operand operand2))) s

def execMemoryAccumulate (dt : Nat) (src : OpSource) (addr : Word) (lanes : List Word) (s : State) :
    Host.Outcome State Fault Refusal :=
  run dt (whenRegisters (opMemory .accumulate src (.memoryAccumulate dt src addr lanes))) s

/-! ## No response (R209) -/

/-- The job slot whose due shadow copy waits for this operation's answer (R378). -/
def State.askingSlot (s : State) (tag : Nat) : Option Nat :=
  (List.range 4).find? fun j => match (s.job j).shadow.asking with | some (t, _) => t == tag | none => false

/-- A remote operation has had no response for 2 ms. -/
def opNoResponse (tag : Nat) (s : State) : State :=
  let s1 := opRemoteTimeout tag s
  if s1.remotes.length = s.remotes.length then s1
  else match s.askingSlot tag with
    | some j => s1.ackArrived j none
    | none => s1

def execRemoteTimeout (dt tag : Nat) (s : State) : Host.Outcome State Fault Refusal := run dt (opNoResponse tag) s

/-! ## Scrubbing (R233) -/

/-- The global address of a stored word; none for a DRAM word of a page that backs no logical page. [Log entry 58: DEDUCED] -/
def State.placeAddr (s : State) : Place → Option Word
  | .dram t c p w => (s.pageOwner t c p).map fun o => s.wordAddr o.1 (o.2 * 65536 + 8 * w)
  | .shared t w => some (s.wordAddr t (0x40000000000 + 8 * w))
  | .core t c w => some (s.wordAddr t (0x60000000000 + c * 0x1000000 + 8 * w))

/-- The scrubber checks one word. [Log entry 58: DEDUCED] -/
def opScrub (p : Place) (s : State) : State :=
  let tile := match p with | .dram t _ _ _ => t | .shared t _ => t | .core t _ _ => t
  if !s.memErr.scrubEn || !placeOk p then s
  else match s.placeAddr p with
    | none => s
    | some a =>
      let x : OpCtx := { master := mControl tile }
      let c := s.storedCw p
      match eccCheck c with
      | .clean => s
      | .corrected bs => (s.storeCw p (flipBits c bs)).noteCorrected p a x (eccSyndrome c) bs
      | .uncorrectable => s.noteUncorrectable p 3 a x c

def execScrub (dt : Nat) (place : Place) (s : State) : Host.Outcome State Fault Refusal := run dt (whenRegisters (opScrub place)) s

/-! ## The end of a page move (R202, R239) -/

def execPageMoveDone (dt tile page : Nat) (s : State) : Host.Outcome State Fault Refusal :=
  runPart "tile" tile 32 dt (State.finishMove tile page) s

/-! ## Messages that arrive (R227, R297, R301) -/

/-- The words of an arriving message are checked: corrected, or poisoned (R227, R228). [Log entry 60: DEDUCED] -/
def State.checkWords (s : State) (l : Nat) (m : Msg) : List Codeword × State :=
  let x := msgCtx s m
  let r (i : Nat) : LogRec :=
    ({ memory := 3, tile := linkTile l, addr := if opAddressed m.op then m.word2 + wd (8 * i) else 0 } : LogRec).by_ x
  let one (acc : List Codeword × State) (ic : Nat × Codeword) : List Codeword × State :=
    let (cs, s) := acc
    match eccCheck ic.2 with
    | .clean => (cs ++ [ic.2], s)
    | .corrected bs =>
      let s1 := { s with memErr := { s.memErr with ce := satInc 32 s.memErr.ce } }
      let note : LogRec := { r ic.1 with kind := 0, synd := eccSyndrome ic.2, bit0 := lget bs 0 0x7F, bit1 := lget bs 1 0x7F }
      (cs ++ [flipBits ic.2 bs], if s.memErr.logCe then (s1.log note).linkEvent l 0 7 else s1)
    | .uncorrectable =>
      let s1 := { s with memErr := { s.memErr with ue := satInc 32 s.memErr.ue } }
      let note : LogRec := { r ic.1 with kind := 4, synd := eccSyndrome ic.2, bit0 := 0x7F, bit1 := 0x7F }
      (cs ++ [encodeWord (cwData ic.2) true], (s1.log note).linkEvent l 2 7)
  (m.data.mapIdx fun i c => (i, c)).foldl one ([], s)

/-- A message waits for the command that acts on it. -/
def State.deliver (s : State) (l : Nat) (m : Msg) : State :=
  { s with delivered := s.delivered ++ [{ link := l, stamp := s.ftNow, msg := m }] }

/-- Acknowledge a message (R319). -/
def State.ackMsg (s : State) (m : Msg) : State := s.answer m .ack [] 0

/-- A response's data is written to memory once no page moves (R202). [Log entry 55: DEDUCED] -/
def State.readyFor (s : State) (m : Msg) : State :=
  if s.remotes.any fun r => r.tag == m.tag && r.dst.isSome then s.finishMoves else s

/-- A response goes to the operation or message it answers (R209, R319, R378). -/
def State.response (s : State) (m : Msg) : State :=
  let s := s.readyFor m
  match s.askingSlot m.tag with
  | some j => if s.remotes.any fun r => r.tag == m.tag && r.msg.dest == m.src then
      (s.respond m).ackArrived j (match m.op, wordsOf m.data with | .data, w :: _ => some w.1.toNat | _, _ => none)
    else s.acked m
  | none => (s.respond m).acked m

/-- A CONTROL message (R277, R305, R330, R246). -/
def State.controlHere (s : State) (l : Nat) (m : Msg) : State :=
  match m.ctl with
  | .none | .bootImage _ => s
  | .peer m k v => s.peerHere l m k v
  | .time _ _ | .xferReq _ | .xferAns _ _ _ _ _ | .fmOp _ _ _ _ | .fmReset _ _ | .notice _ _ _ _ => s.deliver l m
  | .bindReq _ | .bindOut _ _ _ _ _ | .vcQuery _ _ | .vcFree _ _ _ | .vcMark _ _ _ _ | .vcMarked _ _ _ _ | .vcWithdraw _ _ _
  | .vcRelease _ _ _ => (s.ackMsg m).deliver l m
  | .rowan ws => match frameFlit ws with
    | none => s.discardFlit (some l)
    | some f => if f.kind = 2 then s.resendFlits f (some m.src) else s.flitHere (some l) f
  | .spill fjob ws => s.spillQuery m.src fjob ws

/-- A COLLECTIVE message, which is acknowledged: a flit of a Rowan reduction in legacy mode, or collective data, kept where its group is
defined here with its sender, or being bound (R298, R319, R488). [Log entry 76: DEDUCED] -/
def State.collectiveHere (s : State) (l : Nat) (m : Msg) : State :=
  let s1 := s.ackMsg m
  if m.vc = 1 then
    match frameFlit m.data with
    | none => s1.discardFlit (some l)
    | some f => s1.flitHere (some l) f
  else if s.fromMember m || s.bindsGroup m then s1.deliver l m else s1

/-- A message for this module, its words checked. [Log entry 70: DEDUCED] -/
def State.arrive (s : State) (l : Nat) (m : Msg) : State :=
  let (cs, s1) := s.checkWords l m
  let m1 := { m with data := cs }
  match m.op with
  | .idle => s1
  | .read | .write | .atomic | .accumulate => s1.deliver l m1
  | .data | .ack | .nack => s1.response m1
  | .control => if m.vc = 0 then s1.controlHere l m1 else s1
  | .collective => s1.collectiveHere l m1

/-- A running image is asked for, or arrives for this start (R454). -/
def State.bootExchange (s : State) (l : Nat) (image : List Byte) : State :=
  if image.isEmpty then
    (if s.registersRun then s.sendPeer l { s.blank .control 0 with ctl := .bootImage s.boot.running.bytes } else s)
  else if s.boot.awaits 2 then s.bootImage image else s

/-- A VC0 CONTROL message of the link's peer (R278, R301). -/
def State.fromPeer (s : State) (l : Nat) (m : Msg) : Bool :=
  isPeerMsg m || (m.vc == 0 && m.op == .control && (s.link l).peerValid && m.src == (s.link l).peerModule)

/-- The message is for this module: it names it, or it comes from the link's peer; without a module number only that peer's VC0 CONTROL
messages are accepted (R297, R301). -/
def State.forMe (s : State) (l : Nat) (m : Msg) : Bool :=
  isPeerMsg m || (if s.fabric.modValid then m.dest == s.fabric.mod else s.fromPeer l m)

/-- A whole message arrives on a link. A port that is not formed carries only the peer's VC0 CONTROL messages (R278). -/
def opMessageArrival (l : Nat) (m : Msg) (s : State) : State :=
  if (s.link l).st ≠ .up || !s.forMe l m then s
  else if !s.formed (s.link l).port && !s.fromPeer l m then s
  else
    let (new, s1) := s.takeNumber l m
    if !new then s
    else match m.ctl with
      | .bootImage b => s1.bootExchange l b
      | _ => if s1.registersRun then s1.arrive l m else s1

def execMessageArrival (dt link : Nat) (m : Msg) (s : State) : Host.Outcome State Fault Refusal :=
  runPart "link" link 18 dt (whenLinks (opMessageArrival link m)) s

/-! ## The fabric manager (R446, R484) -/

/-- The header words of a message (R276). -/
def msgHeader (m : Msg) : List Word :=
  let op := match m.op with
    | .idle => 0 | .read => 1 | .write => 2 | .atomic => 3 | .accumulate => 4 | .data => 5 | .ack => 6 | .nack => 7 | .control => 8
    | .collective => 9
  [wd (at_ m.vc 5 0 + at_ m.cls 1 5 + at_ m.dest 12 6 + at_ m.src 12 18 + at_ m.job 32 32),
   wd (at_ op 4 0 + at_ m.subop 4 4 + at_ m.len 12 8 + at_ m.master 16 20 + at_ m.tag 28 36), m.word2, wd (m.pseq % 2 ^ 32)]

/-- The payload of a fabric-manager message before its trailer, and the trailer. [Log entry 72: PRESUMED] -/
def fmParts : Ctl → Option (List Word × Option FmTrailer)
  | .fmOp w off v t => some ([wd (b2n w), wd off, v], t)
  | .fmReset scope t => some ([scope], t)
  | _ => none

/-- A fabric-manager message is authentic (R484). -/
def State.fmAuthentic (s : State) (key : List Byte) (m : Msg) : Bool :=
  match fmParts m.ctl with
  | some (ws, some t) =>
    s.sec.fmCounter < t.counter && t.tag = Config.kmac256 key ((msgHeader m ++ ws ++ [wd t.counter]).flatMap wordBytes)
  | _ => false

/-- The counter of an accepted message. -/
def fmCounterOf (c : Ctl) (old : Nat) : Nat :=
  match fmParts c with
  | some (_, some t) => t.counter
  | _ => old

/-- An accepted message acts and its counter is kept; another is discarded and, with a key installed, counted. Without a key a reset is
discarded. -/
def State.fmAccept (s : State) (reset : Bool) (m : Msg) (f : State → State) : State :=
  match s.sec.fmKey with
  | none => if reset then s else f s
  | some k =>
    if s.fmAuthentic k m then f (s.modSec fun c => { c with fmCounter := fmCounterOf m.ctl c.fmCounter })
    else s.modSec fun c => { c with fmReject := satInc 16 c.fmReject }

/-- A register operation of the fabric manager, an aligned 8-byte word, answered on VC0. -/
def State.fmRegister (s : State) (m : Msg) (write : Bool) (off : Nat) (v : Word) : State :=
  let x : OpCtx := { master := mFabricManager }
  let (r, ws, s1) := s.reqReg x (off % 2 ^ 24) (if write then .write ((wordBytes v).map fun b => some (b, false)) else .read 8)
  match r with
  | .ok => if write then s1.answer m .ack [] 0 else s1.answer m .data (cwsOf ws) 0
  | r => s1.nack m r

def isFmOp (m : Msg) : Bool := match m.ctl with | .fmOp _ _ _ _ => true | _ => false
def isFmReset (m : Msg) : Bool := match m.ctl with | .fmReset _ _ => true | _ => false

/-- The next register operation of the fabric manager. [Log entry 72: PRESUMED] -/
def opFmRegister (s : State) : State :=
  s.takeDelivered isFmOp fun d s => match d.msg.ctl with
    | .fmOp w off v _ => s.fmAccept false d.msg fun s => s.fmRegister d.msg w off v
    | _ => s

def execFmRegisterOp (dt : Nat) (s : State) : Host.Outcome State Fault Refusal := run dt (whenRegisters opFmRegister) s

/-- The next reset message of the fabric manager: it resets the scope it names, where its word is laid out as RESET_SCOPE's P0. -/
def opFmReset (s : State) : State :=
  s.takeDelivered isFmReset fun d s => match d.msg.ctl with
    | .fmReset scope _ => s.fmAccept true d.msg fun s => if scopeOk scope then s.scopedReset scope .fabricManager else s
    | _ => s

def execFmReset (dt : Nat) (s : State) : Host.Outcome State Fault Refusal := run dt (whenRegisters opFmReset) s

end Sys2Proof.Machine
end

