-- ==== Sys2Proof/Machine/Windows.lean ====
section
/-! DEFINITION. Host accesses of device memory, and the command windows up to a packet's consumption (03_commands.md R52 to R59,
R536; 08_memory.md R204, R205; 16_reset_boot.md R452). -/

namespace Sys2Proof.Machine

/-! ## Windows and their rings -/

/-- Window `w` is served: the module runs its windows, in Sloe mode window 0 alone, and the control processor works (R80). -/
def State.serves (s : State) (w : Nat) : Bool :=
  let t := s.serverTile w
  (s.registersRun || (s.boot.powered && !s.boot.inReset && s.boot.sloe && w == 0))
    && !s.boot.cpFailed.contains t && !s.boot.tileReset.contains t

/-- The tile-local offset of window `w`'s device-memory ring, on tile w mod 32 (R53, R195). -/
def ringOff (w : Nat) : Nat := 0x40003F80000 + w / 32 * 0x40000

/-- The command processor that serves a window, as the tile's table checks it (R206). -/
def State.ringCtx (s : State) (w : Nat) : OpCtx := { master := mControl (s.serverTile w) }

/-- The words of ring slot `slot` as the command processor reads them; none where the tile's table denies the read (R206).
[Log entry 35: DEDUCED] -/
def State.readSlot (s : State) (w slot : Nat) : Option (List Word) × State :=
  let x := vget s.windows w
  let o := ringOff w + 64 * slot
  if x.ringInHost then (some (bytesWords 8 (cellGetAll s.hostMem (x.ringAddr + 64 * slot) 64)), s)
  else
    let (r, ws, s1) := s.doRead (s.ringCtx w) (w % 32) o 64 (s.globalAddr (w % 32) o)
    (if r = .ok then some (ws.map Prod.fst) else none, s1)

/-- The command processor looks at the expected header slot: a header with the expected phase is a packet, stamped now (R56, R59). -/
def State.look (s : State) (w : Nat) : State :=
  let x := vget s.windows w
  if !x.enable || !s.serves w || x.found.isSome || (x.ringInHost && !s.cxlOpen) then s
  else
    let (h, s1) := s.readSlot w x.head
    match h with
    | none => s1
    | some h =>
      if bitOf (lget h 0 0) 8 = x.headPhase then s1.modWindow w fun y => { y with found := some { window := w, hdr := h, stamp := s1.ftNow } }
      else s1

/-- The phase of the lap in which the slot `i` places after the head lies (R536). -/
def Window.lapPhase (x : Window) (i : Nat) : Bool := if 4096 ≤ x.head + i then !x.headPhase else x.headPhase

/-- Retire the slot `i` places after the head (R536); the tile's table judges the write (R206). -/
def State.retireSlot (w : Nat) (x : Window) (s : State) (i : Nat) : State :=
  let slot := (x.head + i) % 4096
  let v := wd (flag (x.lapPhase i) 8)
  let o := ringOff w + 64 * slot
  if x.ringInHost then s.post (x.ringAddr + 64 * slot) (wordBytes v)
  else (s.doWrite (s.ringCtx w) (w % 32) o ((wordBytes v).map fun b => some (b, false)) (s.globalAddr (w % 32) o)).2

/-- The payload words of a found packet, in ring order (R54). [Log entry 35: DEDUCED] -/
def State.readPayload (s : State) (w head : Nat) : Nat → Option (List Word) × State
  | 0 => (some [], s)
  | n + 1 =>
    let (a, s1) := s.readSlot w ((head + 1) % 4096)
    let (b, s2) := s1.readPayload w (head + 1) n
    (a.bind fun a => b.map fun b => a ++ b, s2)

/-- The found packet is consumed: its payload copied, its slots retired, the head moved on, and the next slot looked at (R56, R57). During
the hand-over of a switch-over packets stay in their rings (R25); one whose payload cannot be read stays too. [Log entry 35: DEDUCED] -/
def opConsume (w : Nat) (s : State) : State :=
  let x := vget s.windows w
  match x.found with
  | none => s
  | some p =>
    if !x.enable || !s.serves w || s.boot.handover.isSome || (x.ringInHost && !s.cxlOpen) then s
    else match s.readPayload w x.head p.slots with
      | (none, s1) => s1
      | (some pay, s1) =>
        let s2 := (List.range (p.slots + 1)).foldl (State.retireSlot w x) s1
        let n := p.slots + 1
        (s2.modWindow w fun y =>
          { y with head := (x.head + n) % 4096, headPhase := x.lapPhase n, found := none, queue := y.queue ++ [{ p with payload := pay }] }).look w

/-- PACKET_CONSUME (R57). -/
def execPacketConsume (dt w : Nat) (hs : List (Nat × Byte)) (s : State) : Host.Outcome State Fault Refusal :=
  runPart "window" w 64 dt (opConsume w) (if w < 64 then s.hostStores hs else s)

/-- A poll of a host-memory ring, at an FT that is a multiple of POLL_US × 1,000 ns (R59). [Log entry 36: DEDUCED] -/
def opPoll (w : Nat) (s : State) : State :=
  let x := vget s.windows w
  if x.ringInHost && s.onGrid (1000 * x.pollUs) then s.look w else s

/-- RING_POLL (R59). -/
def execRingPoll (dt w : Nat) (hs : List (Nat × Byte)) (s : State) : Host.Outcome State Fault Refusal :=
  runPart "window" w 64 dt (opPoll w) (if w < 64 then s.hostStores hs else s)

/-! ## Host accesses of device memory (R204, R205) -/

/-- CP_CMD_BASE. -/
def cmdBase : Nat := 0xFFFF000000

/-- The tile and tile-local offset that an HDM offset names, and the ring slot it lies in where it is in the command region. -/
def hdmPlace (off : Nat) : Option (Nat × Nat × Option (Nat × Nat)) :=
  if cmdBase ≤ off && off < 2 ^ 40 then
    let w := (off - cmdBase) / 0x40000
    some (w % 32, ringOff w + (off - cmdBase) % 0x40000, some (w, (off - cmdBase) % 0x40000 / 64))
  else if off < cmdBase && off % 2 ^ 35 < 0x600000000 then some (off / 2 ^ 35, off % 2 ^ 35, none)
  else none

/-- The module decodes an HDM access: while it runs, and in Sloe mode the ring of window 0 (R80, R452). -/
def State.decodesHdm (s : State) (ring : Option (Nat × Nat)) : Bool :=
  s.registersRun || (s.boot.sloe && match ring with | some (w, _) => w == 0 | none => false)

/-- The record of a host access that was not performed: MEMORY 5 (R237). [Log entry 54: DEDUCED] -/
def State.logHost (s : State) (kind off : Nat) : State :=
  s.log (({ kind := kind, memory := 5, tile := off / 2 ^ 35 % 32, addr := wd off, bit0 := 0x7F, bit1 := 0x7F } : LogRec).by_ { master := mHost })

/-- The line a host read returns, and whether it comes with CXL poison. [Log entries 37: DEDUCED; 54: DEDUCED] -/
def State.hostLine (s : State) (bs : List Byte) (poison : Bool) : State := { s with cxl := { s.cxl with lastRead := bs, lastPoison := poison } }

/-- A host read of the line of 64 bytes at an offset. -/
def opHostRead (offset : Nat) (s : State) : State :=
  let off := offset / 64 * 64
  let x : OpCtx := { master := mHost }
  if !s.boot.powered || s.boot.inReset || !s.cxl.linkUp then s
  else match hdmPlace off with
    | none => s.hostLine (List.replicate 64 0) true
    | some (t, o, ring) =>
      if !s.decodesHdm ring then s.hostLine (List.replicate 64 0) true
      else match s.opCheck x .read t o with
        | .ok =>
          let (ws, s1) := s.finishMoves.readWords t o x 8
          s1.hostLine (ws.flatMap fun w => wordBytes w.1) (ws.any Prod.snd)
        | .denied => (s.logHost 5 off).hostLine (List.replicate 64 0) true
        | .unbacked => s.hostLine (List.replicate 64 0) true

/-- A host write of the line of 64 bytes at an offset; one that fills the expected header slot of a device-memory ring is looked at
(R56). [Log entry 37: DEDUCED] -/
def opHostWrite (offset : Nat) (line : List Byte) (s : State) : State :=
  let off := offset / 64 * 64
  let x : OpCtx := { master := mHost }
  if !s.boot.powered || s.boot.inReset || !s.cxl.linkUp then s
  else match hdmPlace off with
    | none => if s.registersRun then s.logHost 8 off else s
    | some (t, o, ring) =>
      if !s.decodesHdm ring then s
      else match s.opCheck x .write t o with
        | .ok =>
          let s1 := s.finishMoves.writeWords t o ((bytesWords 8 line).map fun w => (w, false))
          match ring with
          | none => s1
          | some (w, slot) => if !(vget s1.windows w).ringInHost && slot = (vget s1.windows w).head then s1.look w else s1
        | .denied => s.logHost 5 off
        | .unbacked => s.logHost 8 off

/-- HOST_MEM_READ (R205). -/
def execHostMemRead (dt offset : Nat) (s : State) : Host.Outcome State Fault Refusal :=
  runPart "HDM offset" offset (2 ^ 40) dt (opHostRead offset) s

/-- HOST_MEM_WRITE (R205). -/
def execHostMemWrite (dt offset : Nat) (line : List Byte) (s : State) : Host.Outcome State Fault Refusal :=
  runPart "HDM offset" offset (2 ^ 40) dt (opHostWrite offset line) s

/-- The write of a header, eight words, into ring slot `slot` of window `w` (R55, R56). -/
def opHeaderWrite (w slot : Nat) (words : List Word) (s : State) : State :=
  opHostWrite (cmdBase + w * 0x40000 + 64 * slot) (words.flatMap wordBytes) s

/-- HEADER_WRITE (R56). -/
def execHeaderWrite (dt w slot : Nat) (words : List Word) (s : State) : Host.Outcome State Fault Refusal :=
  if w < 64 then runPart "ring slot" slot 4096 dt (opHeaderWrite w slot words) s else .fault (.noSuchPart "window")

end Sys2Proof.Machine
end

