-- ==== Sys2Proof/Machine/CommandProcessor.lean ====
section
/-! DEFINITION. The command processor's checks of a packet and its dispatch (03_commands.md R67 to R80 and the checks of the owning
chapters; 08_memory.md R538). -/

namespace Sys2Proof.Machine

/-! ## The opcode table (R70) -/

/-- An opcode that R70 assigns. -/
def opAssigned (op : Nat) : Bool :=
  op ≤ 0x05 || (0x10 ≤ op && op ≤ 0x15) || (0x30 ≤ op && op ≤ 0x36) || (0x50 ≤ op && op ≤ 0x5A) || (0x70 ≤ op && op ≤ 0x76)
    || op = 0x80 || op = 0x81 || (0x90 ≤ op && op ≤ 0x92) || op = 0xA0 || op = 0xA1 || 0xF0 ≤ op

/-- JOB must name an open job slot. -/
def opHasJob (op : Nat) : Bool :=
  (0x10 ≤ op && op ≤ 0x15) || (0x30 ≤ op && op ≤ 0x36) || (0x50 ≤ op && op ≤ 0x5A) || (0x71 ≤ op && op ≤ 0x76) || op = 0x80

/-- The opcode needs the officer role. -/
def opOfficer (op : Nat) : Bool := [0x03, 0x04, 0x05, 0x81, 0x90, 0x92, 0xA1].contains op || 0xF0 ≤ op

/-- The number of parameter words an opcode uses, from P0 on. -/
def opParams (op : Nat) : Nat :=
  if [0x33, 0x34, 0x71].contains op then 0
  else if [0x00, 0x01, 0x03, 0x05, 0x10, 0x11, 0x15, 0x30, 0x31, 0x51, 0x58, 0x72, 0x74, 0x76, 0x81, 0x92, 0xA0].contains op then 1
  else if [0x02, 0x04, 0x14, 0x32, 0x35, 0x52, 0x53, 0x54, 0x55, 0x56, 0x57, 0x75, 0x80, 0x91, 0xA1].contains op then 2
  else if [0x12, 0x13, 0x36, 0x59, 0x5A, 0x70, 0x90].contains op then 3
  else if [0x50, 0x73].contains op then 4
  else 6

/-- PAYLOAD_SLOTS is what the opcode requires (R70); a VECTOR_PROGRAM with P1 = 0 has ceil(0 / 4) = 0 slots (R127), and is rejected for
P1 itself. [Log entry 128: DEDUCED] -/
def Packet.slotsOk (p : Packet) : Bool :=
  let op := p.opcode
  if 0xF0 ≤ op then true
  else if op = 0xA0 then p.slots ≠ 0
  else if op = 0x35 then p.slots = ceilDiv (p.par 1).toNat 4
  else if op = 0x50 then p.slots = p.bindSlots
  else if 0x30 ≤ op && op ≤ 0x32 then p.slots = 2
  else if op = 0x10 || op = 0x33 || op = 0x34 || (0x52 ≤ op && op ≤ 0x57) || op = 0x59 || op = 0x5A || op = 0xA1 then p.slots = 1
  else p.slots = 0

/-- Some bit outside the first `n` bits of a word is set. -/
def above (w : Word) (n : Nat) : Bool := 2 ^ n ≤ w.toNat

/-- A reserved header bit, an unused parameter, or a reserved bit of a parameter that has no detail of its own (R75 0x0002). -/
def Packet.reservedSet (p : Packet) : Bool :=
  let op := p.opcode
  fld (p.word 0) 12 4 ≠ 0 || fld (p.word 0) 28 4 ≠ 0 || ((List.range 6).drop (opParams op)).any (fun i => p.par i ≠ 0)
    || (op = 0x02 && above (p.par 1) 4)
    || (op = 0x03 && p.par 0 &&& ~~~0xF1F03 ≠ 0)
    || (op = 0x15 && above (p.par 0) 2)
    || (0x30 ≤ op && op ≤ 0x32 && above (p.par 0) 32)
    || (op = 0x36 && above (p.par 2) 1)
    || ((op = 0x51 || op = 0x58) && above (p.par 0) 6)
    || (op = 0x70 && (above (p.par 0) 32 || fld (p.par 2) 2 6 ≠ 0 || above (p.par 2) 9))

/-! ## Details of the owning chapters -/

/-- The global byte range that an address names, as one number: its module, tile and offset. -/
def State.normAddr (s : State) (a : Word) : Option Nat :=
  match s.addrKind a with
  | .here t o => some (s.fabric.mod * 2 ^ 48 + t * 2 ^ 43 + o)
  | .remote m t o => some (m * 2 ^ 48 + t * 2 ^ 43 + o)
  | _ => none

/-- The least detail that rejects COPY (R215, R241). -/
def State.copyDetail (s : State) (p : Packet) : Option Nat :=
  let n := p.copyLen
  let lap := match s.normAddr (p.par 0), s.normAddr (p.par 1) with
    | some a, some b => !p.resHost && overlaps a n b n
    | _, _ => false
  minDetail
    [if p.copyFromHost then none else s.addrDetail (p.par 0) n, if p.copyToHost then none else s.addrDetail (p.par 1) n,
     failIf (n = 0 || 2 ^ 34 < n) 0x0143, failIf lap 0x0146,
     failIf ((!p.resHost && bitOf (p.par 2) 48) || fld (p.par 2) 35 13 ≠ 0 || fld (p.par 2) 49 15 ≠ 0) 0x0147]

/-- The least detail that rejects FILL (R216, R241). -/
def State.fillDetail (s : State) (p : Packet) : Option Nat :=
  let n := (p.par 2).toNat
  minDetail
    [s.resultDetail p (p.par 0) (min n (2 ^ 34)), failIf ((p.par 0).toNat % 8 ≠ 0 || n % 8 ≠ 0) 0x0142,
     failIf (n = 0 || 2 ^ 34 < n) 0x0143]

/-- The least detail that rejects TRANSPOSE_COPY (R112, R217, R241). -/
def State.transposeDetail (s : State) (p : Packet) : Option Nat :=
  match s.tensor p.job (p.par 0), s.tensor p.job (p.par 1) with
  | some a, some b =>
    minDetail [failIf (a.fmt ≠ b.fmt || a.cplx ≠ b.cplx) 0x0105,
      failIf (a.rows = 0 || b.rows = 0 || a.rows ≠ b.cols || a.cols ≠ b.rows) 0x0145]
  | _, _ => some 0x0005

/-- The details of memory packets. -/
def State.memDetail (s : State) (p : Packet) : Option Nat :=
  let op := p.opcode
  if op = 0x10 then minDetail [s.resultDetail p (p.par 0) 8, failIf (descBad (p.payload.take 8)) 0x0144]
  else if op = 0x11 then failIf (s.tensor p.job (p.par 0)).isNone 0x0005
  else if op = 0x12 then s.copyDetail p
  else if op = 0x13 then s.fillDetail p
  else if op = 0x14 then s.transposeDetail p
  else none

/-- The details of products, kernels and programs, given the words that steer them. -/
def State.computeDetail (s : State) (p : Packet) (ws : List Word) : Option Nat :=
  let op := p.opcode
  if op ≤ 0x32 then s.prodDetail p.job p (lget ws 0 0)
  else if op ≤ 0x34 then s.kernDetail p.job p
  else if op = 0x35 then s.vprogDetail p.job p ws
  else
    minDetail [match s.tensor p.job (p.par 0) with
        | none => some 0x0005
        | some t => failIf (t.fmt = 3 || t.cplx) 0x0121,
      s.resultDetail p (p.par 1) 16]

/-- An FT that a packet books lies more than 2^52 ns ahead (R42). -/
def State.tooFar (s : State) (ft : Word) : Option Nat := failIf (s.ftNow + 2 ^ 52 < ft.toNat) 0x0006

/-- The details of groups and collectives. -/
def State.groupDetail (s : State) (p : Packet) (ws : List Word) : Option Nat :=
  let op := p.opcode
  if op = 0x50 then s.bindDetail p.job p
  else if op = 0x51 || op = 0x58 then failIf (s.group p.job p.group).isNone 0x0160
  else if op ≤ 0x57 then minDetail [s.tooFar (p.par 1), s.collDetail p.job p ws]
  else if op = 0x59 then if p.declares then s.declDetail p.job p else minDetail [s.tooFar (p.par 1), s.bucketDetail p.job p]
  else s.rowanDetail p.job p

/-- The bytes of the record that a PLACEMENT_HINT query writes (R260, R261). -/
def State.queryBytes (s : State) (p : Packet) : Nat :=
  let left := min (fld (p.par 2) 32 16) (s.queryTotal p.job p - fld (p.par 2) 0 32)
  32 + (if p.plKind = 0x20 || p.plKind = 0x23 then 4 * left else if p.plKind = 0x21 then 512 else 16 * (s.job p.job).rules.length)

/-- The details of jobs, placement, commit and safe points. -/
def State.jobDetail (s : State) (p : Packet) : Option Nat :=
  let op := p.opcode
  let j := s.job p.job
  if op = 0x72 then phaseDetail p
  else if op = 0x73 then
    minDetail [s.placeDetail p.job p, if p.plAction = 3 then s.resultDetail p (p.par 3) (s.queryBytes p) else none]
  else if op = 0x74 then
    minDetail [failIf (s.group p.job 0).isNone 0x0160, failIf ((p.par 0).toNat ≠ j.step) 0x0175]
  else if op = 0x75 then s.resultDetail p (p.par 1) 32
  else if op = 0x76 then s.tooFar (p.par 0)
  else none

/-- The details of identity, reset, firmware, power, test and security packets. -/
def State.systemDetail (s : State) (p : Packet) : Option Nat :=
  let op := p.opcode
  if op ≤ 0x01 then s.resultDetail p (p.par 0) 512
  else if op = 0x02 then s.resultDetail p (p.par 0) 64
  else if op = 0x03 then failIf (!scopeOk (p.par 0)) 0x01B3
  else if op = 0x04 then s.stageDetail p
  else if op = 0x05 then s.switchDetail p
  else if op = 0x80 then preferDetail p
  else if op = 0x81 then failIf (above (p.par 0) 13) 0x01A1
  else if op = 0x90 then s.scheduleDetail p
  else if op = 0x91 then s.historyDetail p
  else if op = 0x92 then retireDetail p
  else if op = 0xA0 then s.attestDetail p
  else if op = 0xA1 then tableDetail p
  else none

/-- JOB is what the opcode requires (R75 0x0004). -/
def State.jobFieldOk (s : State) (p : Packet) : Bool := if opHasJob p.opcode then s.jobOpen p.job else p.job = 0xF

/-- The detail of BAD_PARAM, the lowest that applies, given the words that steer the packet's work. [Log entry 38: DEDUCED] -/
def State.paramDetail (s : State) (p : Packet) (ws : List Word) : Option Nat :=
  let op := p.opcode
  minDetail
    [failIf p.reservedSet 0x0002, failIf (!p.slotsOk) 0x0003, failIf (!s.jobFieldOk p) 0x0004,
     if op ≤ 0x05 || 0x80 ≤ op then s.systemDetail p else if op ≤ 0x15 then s.memDetail p else if op ≤ 0x36 then s.computeDetail p ws
     else if op ≤ 0x5A then s.groupDetail p ws else s.jobDetail p]

/-- The detail of NO_RESOURCE at dispatch (R75, R80, R332 and the owning chapters). [Log entry 43: DEDUCED] -/
def State.resourceDetail (s : State) (p : Packet) : Option Nat :=
  let op := p.opcode
  let opening := (s.works.filter fun w => w.pkt.opcode == 0x70).length
  minDetail
    [failIf (0x0F < op && (s.ft.state = .unset || s.ft.state = .acquiring)) 0x0003,
     failIf (op = 0x70 && 4 ≤ ((List.range 4).filter fun j => (s.job j).opened).length + opening) 0x0002,
     if op = 0x50 then s.bindNoRes p.job p else none,
     if op = 0x59 && !p.declares then s.bucketNoRes p.job p else none,
     if op = 0x5A then s.rowanNoRes p (s.job p.job).fjob else none,
     if op = 0x73 then s.placeNoRes p.job p else none,
     failIf (isCollective op && !p.declares && 256 ≤ s.queueLoad p.job p.group) 0x0162]

/-- The generation that a packet names is no longer kept (R74). -/
def State.stale (s : State) (p : Packet) : Bool :=
  ((p.opcode = 0x54 || p.opcode = 0x55) && s.gatherStale p.job p) || (p.opcode = 0x75 && s.queryStale p.job p)

/-- In Sloe mode window 0 dispatches these packets only (R80). -/
def Packet.sloeOk (p : Packet) : Bool := [0x00, 0x01, 0x04, 0x05].contains p.opcode || (p.opcode = 0x03 && fld (p.par 0) 0 2 = 0)

/-- The opcodes that the security error state answers INTERNAL, which no role check forestalls (R495). [Log entry 110: DEDUCED] -/
def Packet.errorOp (p : Packet) : Bool := [0xA0, 0xA1, 0x04, 0x05].contains p.opcode

/-- The checks of R76 after the SEQ check: the first failure, or none. [Log entry 38: DEDUCED] -/
def State.checkPacket (s : State) (p : Packet) (ws : List Word) : Option (Status × Nat) :=
  if s.boot.sloe && !p.sloeOk then some (.sloeOnly, 0)
  else if !opAssigned p.opcode then some (.badOpcode, 0)
  else match s.paramDetail p ws with
    | some d => some (.badParam, d)
    | none =>
      if opOfficer p.opcode && !s.boot.sloe && !(s.sec.error && p.errorOp) && !s.officer p.window then some (.accessDenied, 1)
      else match s.resourceDetail p with
        | some d => some (.noResource, d)
        | none => if s.stale p then some (.staleGeneration, 0) else none

/-! ## Tensors that steer the work (R177, R322, R353, R538) -/

/-- The rank of this module in the packet's group is the bucket's owner. -/
def State.ownsBucket (s : State) (p : Packet) : Bool :=
  p.opcode = 0x59 && !p.declares && match s.group p.job p.group with
    | some g => g.rank s.fabric.mod = p.bdesc.owner
    | none => false

/-- The tensor that steers a packet's work, where it is long enough to be read. -/
def State.steerTensor (s : State) (p : Packet) : Option Tensor :=
  let op := p.opcode
  if op = 0x32 then s.tensor p.job (p.par 1)
  else if op = 0x35 then (s.tensor p.job (p.par 0)).filter fun t => t.bytes % 16 = 0 && t.bytes ≤ 16384
  else if op = 0x56 then
    (s.tensor p.job p.cdesc.map).filter fun t => match s.group p.job p.group with
      | some g => 4 * g.size * p.cdesc.chunks ≤ t.bytes
      | none => false
  else if s.ownsBucket p && p.bdesc.force then s.tensor p.job p.bdesc.mask
  else none

/-- What steers a packet: the state after the reading, the words, why they cannot be used, whether they were read again from home,
and whether a spilled tensor is still on its way. -/
structure Steering where
  st     : State
  words  : List Word := []
  fail   : Option (Status × Nat) := none
  reread : Bool := false
  waits  : Bool := false

/-- Read the tensor that steers a packet, whole and before its work starts. [Log entry 40: DEDUCED] -/
def State.readSteering (s : State) (p : Packet) : Steering :=
  let x : OpCtx := { master := mControl (s.serverTile p.window), slot := p.job, fjob := (s.job p.job).fjob, seq := p.seq, pid := 2 ^ 40 + 16 + p.window }
  match s.steerTensor p with
  | none => { st := s }
  | some t =>
    let s := s.finishMoves
    match s.tensorCheck x .read t t.bytes with
    | some (r, o) => { st := s.logRes x r t.tile o (s.globalAddr t.tile o), fail := some r.status }
    | none => match s.fetchRanges x [(t, 0, t.bytes)] with
      | some s1 => { st := s1, waits := true }
      | none =>
        let q := s.steer t (s.serverTile p.window * 16) t.bytes x
        { st := q.st.dropFetched x.pid, words := q.words, fail := failIf q.bad 0x0140 |>.map fun d => (.checkMismatch, d), reread := q.reread }

/-- A packet and steering words that no check of their contents faults, for a tensor that cannot be read (R538). [Log entry 39: DEDUCED] -/
def State.standIn (s : State) (p : Packet) : Packet × List Word :=
  match p.opcode with
  | 0x32 => ({ p with hdr := p.hdr.set 3 0 }, [])
  | 0x35 => (p, [wd (0x10 + at_ 0x800 12 8 + at_ 0xFFF 12 20), 0])
  | 0x56 =>
    let n := ((s.group p.job p.group).map fun g => g.size).getD 0
    let k := p.cdesc.chunks
    let e (i : Nat) : Nat := if i < n * k then i / k + i % k * 65536 else 0
    (p, (List.range (ceilDiv (n * k) 2)).map fun i => wd (e (2 * i) + e (2 * i + 1) * 2 ^ 32))
  | _ => (p, [])

/-! ## Dispatch (R76 to R79) -/

/-- The epochs of a packet's tensors at dispatch, the lower of the two, or its bucket's (R366). -/
def State.packetEpoch (s : State) (p : Packet) : Nat :=
  if p.opcode = 0x59 then p.bdesc.epoch
  else if 0x52 ≤ p.opcode && p.opcode ≤ 0x57 then min (s.epochOf p.job p.cdesc.src) (s.epochOf p.job p.cdesc.dst)
  else 0

/-- The reply entries a packet reserves (R77). -/
def Packet.reserves (p : Packet) : Nat := 1 + b2n p.replyOnAccept + b2n (p.opcode == 0x56 && p.cdesc.adv)

/-- The work of a packet as dispatch makes it (R149, R151). -/
def State.newWork (s : State) (p : Packet) (ws : List Word) (sampled : List SampleUnit) : Work :=
  let j := s.job p.job
  let yes := opHasJob p.opcode
  let step := if yes then j.step else 0
  let key := packetKey step (fld (p.par 0) 0 32) j.seed
  { pid := s.nextPid, pkt := p, slot := if yes then some p.job else none, fjob := if yes then j.fjob else 0, step := step
    pk0 := key.1, pk1 := key.2, dispFt := s.ftNow, reserve := p.reserves, mask := ws, sampled := sampled, epoch := s.packetEpoch p }

/-- GEN_OPEN clears when a packet of these opcodes is first dispatched (R368). -/
def Job.closeGen (j : Job) (op : Nat) : Job :=
  if j.stp.genOpen && ((0x30 ≤ op && op ≤ 0x3F) || (0x52 ≤ op && op ≤ 0x5A) || (0x74 ≤ op && op ≤ 0x76)) then
    { j with stp := { j.stp with genOpen := false }, genAtOpen := j.stp.gen }
  else j

/-- A bucket enters its step's records at dispatch (R340, R341). -/
def Job.noteBucket (j : Job) (d : BDesc) (own : Bool) : Job :=
  { j with buckets := j.buckets ++ [d.inStep own]
           scales := if (j.scaleGroup d.sgroup).isSome then j.scales else j.scales ++ [d.scale] }

/-- What dispatch itself does beyond making the work (R79, R310, R340, R368). -/
def State.onDispatch (s : State) (p : Packet) (pid : Nat) : State :=
  let op := p.opcode
  let s1 := if opHasJob op then s.modJob p.job fun j => j.closeGen op else s
  let s2 := if op = 0x11 then
      { s1 with tensors := updAll (fun t => t.num == handleNum (p.par 0) && t.slot == p.job) (fun t => { t with freed := true }) s1.tensors }
    else if op = 0x71 then s1.modJob p.job fun j => { j with closing := true }
    else if op = 0x59 && !p.declares then s1.modJob p.job fun j => j.noteBucket p.bdesc (s.ownsBucket p)
    else s1
  if isCollective op && !p.declares then s2.enqueue p.job p.group pid else s2

/-- A packet that passed every check is handed to its unit; one whose steering tensor cannot be used fails at once (R538). -/
def State.takeIn (s : State) (p : Packet) (q : Steering) : State :=
  let (smp, s1) := s.drawSamples p (s.ownsBucket p)
  let w := s1.newWork p q.words (if q.fail.isSome then [] else smp)
  let s2 := ({ s1 with works := s1.works ++ [w], nextPid := s1.nextPid + 1 } : State).modWindow p.window fun x =>
    { x with reserved := x.reserved + w.reserve }
  let s3 := (if p.replyOnAccept then s2.interim w.pid .accepted else s2).onDispatch p w.pid
  let s4 := if q.reread then s3.noteReplay w.pid else s3
  match q.fail with
  | none => s4
  | some (st, d) =>
    let s5 := s4.noteFail w.pid st d
    match s5.work w.pid with
    | some v => s5.endWork v st d 0
    | none => s5

/-- The packet at the head of its window's queue leaves it. -/
def State.popPacket (s : State) (w : Nat) : State := s.modWindow w fun x => { x with queue := x.queue.tail }

/-- The packet at the head of a window's queue, which nothing holds back: checked, and answered or dispatched (R68, R76). A packet whose
steering tensor lies on a spill module waits until it has been read. [Log entry 39: DEDUCED] -/
def State.takePacket (s : State) (p : Packet) : State :=
  let x := vget s.windows p.window
  if p.seq ≠ x.nextSeq then
    ((s.popPacket p.window).modWindow p.window fun y => { y with seqErr := satInc 8 y.seqErr }).reply p .badParam true 1 0
  else
    let next (s : State) : State := (s.popPacket p.window).modWindow p.window fun y => { y with nextSeq := (y.nextSeq + 1) % 2 ^ 32 }
    let q := s.readSteering p
    if q.waits && (s.checkPacket (s.standIn p).1 (s.standIn p).2).isNone then q.st
    else
      let c := if q.fail.isSome || q.waits then s.checkPacket (s.standIn p).1 (s.standIn p).2 else s.checkPacket p q.words
      match c with
      | some (st, d) => (next s).reply p st true d 0
      | none => (next q.st).takeIn p q

/-- The packet's job holds it in the ring (R383, R384). -/
def State.jobHolds (s : State) (p : Packet) : Bool :=
  p.job < 4 && (s.job p.job).opened && match (s.job p.job).site with
    | .running => false
    | .safing => !([0x71, 0x74, 0x75, 0x76].contains p.opcode)
    | .parked => !([0x71, 0x75, 0x76].contains p.opcode)

/-- Something holds the packet at the head of a window's queue (R67, R68, R80, R222). -/
def State.heldBack (s : State) (w : Nat) (p : Packet) : Bool :=
  !s.serves w || !(vget s.windows w).enable || s.boot.handover.isSome
    || s.works.any (fun v => v.pkt.window == w && (p.ordered || v.pkt.opcode == 0x15)) || s.jobHolds p

/-- A reply of the window waits for the host link (R507). [Log entry 42: DEDUCED] -/
def State.replyWaits (s : State) (w : Nat) : Bool :=
  let x := vget s.windows w
  s.cxl.held.any fun h => x.replyAddr ≤ h.addr && h.addr < x.replyAddr + 131072

/-- DISPATCH: the command processor takes the packet whose turn it is (R76, R77, R507). [Log entry 42: DEDUCED] -/
def opDispatch (w : Nat) (s : State) : State :=
  match (vget s.windows w).queue with
  | [] => s
  | p :: _ =>
    if s.heldBack w p then s
    else if (vget s.windows w).freeEntries < 3 then s.modWindow w fun x => { x with replyFull := true }
    else
      let s1 := (s.modWindow w fun x => { x with replyFull := false }).takePacket p
      if s.cxlOpen || (!s.replyWaits w && (vget s1.windows w).tail = (vget s.windows w).tail) then s1 else s

def execDispatch (dt w : Nat) (s : State) : Host.Outcome State Fault Refusal := runPart "window" w 64 dt (opDispatch w) s

end Sys2Proof.Machine
end

