-- ==== Sys2Proof/Machine/Dispatch.lean ====
section
/-! DEFINITION. The dispatch: one arm per command of spec/opcode_table.json, each a direct call of its meaning. -/

namespace Sys2Proof.Machine

/-- The effect of a command on everything but the queue. -/
def exec (i : Instr) (s : State) : Host.Outcome State Fault Refusal :=
  match i with
  | .headerWrite dt w slot words => Sys2Proof.Machine.execHeaderWrite dt w slot words s
  | .ringPoll dt w hs => Sys2Proof.Machine.execRingPoll dt w hs s
  | .packetConsume dt w hs => Sys2Proof.Machine.execPacketConsume dt w hs s
  | .dispatch dt w => Sys2Proof.Machine.execDispatch dt w s
  | .cmdwEnable dt w value => Sys2Proof.Machine.execCmdwEnable dt w value s
  | .cmdwDisable dt w => Sys2Proof.Machine.execCmdwDisable dt w s
  | .cmdwReplyAck dt w index => Sys2Proof.Machine.execCmdwReplyAck dt w index s
  | .registerWrite dt master offset size value => Sys2Proof.Machine.execRegisterWrite dt master offset size value s
  | .ftNowLowRead dt => Sys2Proof.Machine.execFtNowLowRead dt s
  | .identify dt pid => Sys2Proof.Machine.execIdentify dt pid s
  | .status dt pid => Sys2Proof.Machine.execStatus dt pid s
  | .queryCaps dt pid => Sys2Proof.Machine.execQueryCaps dt pid s
  | .resetScope dt pid => Sys2Proof.Machine.execResetScope dt pid s
  | .fwStage dt pid hs => Sys2Proof.Machine.execFwStage dt pid hs s
  | .fwSwitch dt pid => Sys2Proof.Machine.execFwSwitch dt pid s
  | .tensorCreate dt pid => Sys2Proof.Machine.execTensorCreate dt pid s
  | .tensorFree dt pid => Sys2Proof.Machine.execTensorFree dt pid s
  | .copy dt pid hs poisoned => Sys2Proof.Machine.execCopy dt pid hs poisoned s
  | .fill dt pid => Sys2Proof.Machine.execFill dt pid s
  | .transposeCopy dt pid => Sys2Proof.Machine.execTransposeCopy dt pid s
  | .fence dt pid => Sys2Proof.Machine.execFence dt pid s
  | .matmul dt pid => Sys2Proof.Machine.execMatmul dt pid s
  | .matmulBwdData dt pid => Sys2Proof.Machine.execMatmulBwdData dt pid s
  | .matmulBwdWeight dt pid => Sys2Proof.Machine.execMatmulBwdWeight dt pid s
  | .fusedNormBwd dt pid => Sys2Proof.Machine.execFusedNormBwd dt pid s
  | .fusedSoftmaxBwd dt pid => Sys2Proof.Machine.execFusedSoftmaxBwd dt pid s
  | .vectorProgram dt pid => Sys2Proof.Machine.execVectorProgram dt pid s
  | .reduceMaxmin dt pid => Sys2Proof.Machine.execReduceMaxmin dt pid s
  | .groupBind dt pid => Sys2Proof.Machine.execGroupBind dt pid s
  | .groupUnbind dt pid => Sys2Proof.Machine.execGroupUnbind dt pid s
  | .allreduce dt pid => Sys2Proof.Machine.execAllreduce dt pid s
  | .reduceScatter dt pid => Sys2Proof.Machine.execReduceScatter dt pid s
  | .allgather dt pid => Sys2Proof.Machine.execAllgather dt pid s
  | .broadcast dt pid => Sys2Proof.Machine.execBroadcast dt pid s
  | .permute dt pid => Sys2Proof.Machine.execPermute dt pid s
  | .alltoall dt pid => Sys2Proof.Machine.execAlltoall dt pid s
  | .barrier dt pid => Sys2Proof.Machine.execBarrier dt pid s
  | .igrBucket dt pid => Sys2Proof.Machine.execIgrBucket dt pid s
  | .shardDeclare dt pid => Sys2Proof.Machine.execShardDeclare dt pid s
  | .rowanReduce dt pid => Sys2Proof.Machine.execRowanReduce dt pid s
  | .jobOpen dt pid => Sys2Proof.Machine.execJobOpen dt pid s
  | .jobClose dt pid => Sys2Proof.Machine.execJobClose dt pid s
  | .phaseMark dt pid => Sys2Proof.Machine.execPhaseMark dt pid s
  | .placementHint dt pid => Sys2Proof.Machine.execPlacementHint dt pid s
  | .placementForbid dt pid => Sys2Proof.Machine.execPlacementForbid dt pid s
  | .forbidComplied dt pid => Sys2Proof.Machine.execForbidComplied dt pid s
  | .placementWithdraw dt pid => Sys2Proof.Machine.execPlacementWithdraw dt pid s
  | .placementQuery dt pid => Sys2Proof.Machine.execPlacementQuery dt pid s
  | .commitStep dt pid => Sys2Proof.Machine.execCommitStep dt pid s
  | .generationQuery dt pid => Sys2Proof.Machine.execGenerationQuery dt pid s
  | .safePoint dt pid => Sys2Proof.Machine.execSafePoint dt pid s
  | .opPrefer dt pid => Sys2Proof.Machine.execOpPrefer dt pid s
  | .capSet dt pid => Sys2Proof.Machine.execCapSet dt pid s
  | .fieldTestSchedule dt pid => Sys2Proof.Machine.execFieldTestSchedule dt pid s
  | .historyRead dt pid => Sys2Proof.Machine.execHistoryRead dt pid s
  | .unitRetire dt pid => Sys2Proof.Machine.execUnitRetire dt pid s
  | .attest dt pid => Sys2Proof.Machine.execAttest dt pid s
  | .accessTableWrite dt pid => Sys2Proof.Machine.execAccessTableWrite dt pid s
  | .fmKeyInstall dt pid => Sys2Proof.Machine.execFmKeyInstall dt pid s
  | .officerRootInstall dt pid => Sys2Proof.Machine.execOfficerRootInstall dt pid s
  | .zeroise dt pid => Sys2Proof.Machine.execZeroise dt pid s
  | .vendorDiagnostic dt pid => Sys2Proof.Machine.execVendorDiagnostic dt pid s
  | .memoryRead dt src addr len => Sys2Proof.Machine.execMemoryRead dt src addr len s
  | .memoryWrite dt src addr len mask data => Sys2Proof.Machine.execMemoryWrite dt src addr len mask data s
  | .memoryAtomic dt src addr kind operand operand2 => Sys2Proof.Machine.execMemoryAtomic dt src addr kind operand operand2 s
  | .memoryAccumulate dt src addr lanes => Sys2Proof.Machine.execMemoryAccumulate dt src addr lanes s
  | .hostMemRead dt offset => Sys2Proof.Machine.execHostMemRead dt offset s
  | .hostMemWrite dt offset line => Sys2Proof.Machine.execHostMemWrite dt offset line s
  | .remoteTimeout dt tag => Sys2Proof.Machine.execRemoteTimeout dt tag s
  | .scrub dt place => Sys2Proof.Machine.execScrub dt place s
  | .pageMove dt tile page toTile toChannel toPage => Sys2Proof.Machine.execPageMove dt tile page toTile toChannel toPage s
  | .pageMoveDone dt tile page => Sys2Proof.Machine.execPageMoveDone dt tile page s
  | .workItemDone dt core errs => Sys2Proof.Machine.execWorkItemDone dt core errs s
  | .itemsAssign dt => Sys2Proof.Machine.execItemsAssign dt s
  | .recomputeDone dt sample core errs => Sys2Proof.Machine.execRecomputeDone dt sample core errs s
  | .thirdComputeDone dt sample core errs => Sys2Proof.Machine.execThirdComputeDone dt sample core errs s
  | .rerunDone dt sample => Sys2Proof.Machine.execRerunDone dt sample s
  | .jnsStatusWrite dt slot value => Sys2Proof.Machine.execJnsStatusWrite dt slot value s
  | .barrierSlot dt slot k => Sys2Proof.Machine.execBarrierSlot dt slot k s
  | .ftsyncEdge dt errPs => Sys2Proof.Machine.execFtsyncEdge dt errPs s
  | .timeMessage dt => Sys2Proof.Machine.execTimeMessage dt s
  | .timeTransfer dt link t1 t2 t3 t4 peerLocked hops => Sys2Proof.Machine.execTimeTransfer dt link t1 t2 t3 t4 peerLocked hops s
  | .ftMillisecond dt inputW overTiles => Sys2Proof.Machine.execFtMillisecond dt inputW overTiles s
  | .referenceLoss dt => Sys2Proof.Machine.execReferenceLoss dt s
  | .referenceReturn dt => Sys2Proof.Machine.execReferenceReturn dt s
  | .phaseBoundary dt peaks temps => Sys2Proof.Machine.execPhaseBoundary dt peaks temps s
  | .lightDetect dt link lane => Sys2Proof.Machine.execLightDetect dt link lane s
  | .trainingDone dt link ok peerModule peerLink peerValid => Sys2Proof.Machine.execTrainingDone dt link ok peerModule peerLink peerValid s
  | .trainingRetry dt link => Sys2Proof.Machine.execTrainingRetry dt link s
  | .laneFault dt link lane => Sys2Proof.Machine.execLaneFault dt link lane s
  | .linkRetrain dt link => Sys2Proof.Machine.execLinkRetrain dt link s
  | .linkEnable dt link enable => Sys2Proof.Machine.execLinkEnable dt link enable s
  | .linkPort dt link port => Sys2Proof.Machine.execLinkPort dt link port s
  | .bulkCodeword dt link intact corrected seq ack flags worstLane => Sys2Proof.Machine.execBulkCodeword dt link intact corrected seq ack flags worstLane s
  | .replayTimeout dt link => Sys2Proof.Machine.execReplayTimeout dt link s
  | .rowanFrame dt link intact frame => Sys2Proof.Machine.execRowanFrame dt link intact frame s
  | .rowanResendTimer dt tag => Sys2Proof.Machine.execRowanResendTimer dt tag s
  | .rowanResendRequest dt link words => Sys2Proof.Machine.execRowanResendRequest dt link words s
  | .messageArrival dt link m => Sys2Proof.Machine.execMessageArrival dt link m s
  | .transitMessage dt link m => Sys2Proof.Machine.execTransitMessage dt link m s
  | .portHoldEnd dt port => Sys2Proof.Machine.execPortHoldEnd dt port s
  | .reservationWrite dt master index word value => Sys2Proof.Machine.execReservationWrite dt master index word value s
  | .fmRegisterOp dt => Sys2Proof.Machine.execFmRegisterOp dt s
  | .fmReset dt => Sys2Proof.Machine.execFmReset dt s
  | .collectiveStart dt slot group => Sys2Proof.Machine.execCollectiveStart dt slot group s
  | .collectiveData dt => Sys2Proof.Machine.execCollectiveData dt s
  | .collectiveDeadline dt pid => Sys2Proof.Machine.execCollectiveDeadline dt pid s
  | .collectiveResend dt pid tag => Sys2Proof.Machine.execCollectiveResend dt pid tag s
  | .bindRequest dt => Sys2Proof.Machine.execBindRequest dt s
  | .bindMark dt => Sys2Proof.Machine.execBindMark dt s
  | .bindOutcome dt => Sys2Proof.Machine.execBindOutcome dt s
  | .bindTimeout dt slot group => Sys2Proof.Machine.execBindTimeout dt slot group s
  | .bindMemberTimeout dt pid => Sys2Proof.Machine.execBindMemberTimeout dt pid s
  | .contributionChunk dt own errs => Sys2Proof.Machine.execContributionChunk dt own errs s
  | .voidNotice dt => Sys2Proof.Machine.execVoidNotice dt s
  | .bucketDeadline dt pid => Sys2Proof.Machine.execBucketDeadline dt pid s
  | .retractNotice dt => Sys2Proof.Machine.execRetractNotice dt s
  | .laneCheck dt pid => Sys2Proof.Machine.execLaneCheck dt pid s
  | .recollectNotice dt => Sys2Proof.Machine.execRecollectNotice dt s
  | .optimizerStart dt pid => Sys2Proof.Machine.execOptimizerStart dt pid s
  | .optimizerDone dt pid errs => Sys2Proof.Machine.execOptimizerDone dt pid errs s
  | .outcomeNotice dt => Sys2Proof.Machine.execOutcomeNotice dt s
  | .commitVote dt slot => Sys2Proof.Machine.execCommitVote dt slot s
  | .commitDeadline dt slot => Sys2Proof.Machine.execCommitDeadline dt slot s
  | .shadowCopyDone dt slot => Sys2Proof.Machine.execShadowCopyDone dt slot s
  | .shadowEnable dt slot value => Sys2Proof.Machine.execShadowEnable dt slot value s
  | .jscGenWrite dt slot value => Sys2Proof.Machine.execJscGenWrite dt slot value s
  | .siteAlertAssert dt => Sys2Proof.Machine.execSiteAlertAssert dt s
  | .siteAlertDeassert dt => Sys2Proof.Machine.execSiteAlertDeassert dt s
  | .safeDeadline dt slot => Sys2Proof.Machine.execSafeDeadline dt slot s
  | .saRelease dt mask => Sys2Proof.Machine.execSaRelease dt mask s
  | .testWindowOpen dt window => Sys2Proof.Machine.execTestWindowOpen dt window s
  | .testStart dt core => Sys2Proof.Machine.execTestStart dt core s
  | .drainTimeout dt core => Sys2Proof.Machine.execDrainTimeout dt core s
  | .testWindowEnd dt window => Sys2Proof.Machine.execTestWindowEnd dt window s
  | .testPassDone dt core result => Sys2Proof.Machine.execTestPassDone dt core result s
  | .railLimit dt rail tile => Sys2Proof.Machine.execRailLimit dt rail tile s
  | .railRelease dt rail tile => Sys2Proof.Machine.execRailRelease dt rail tile s
  | .junctionHot dt tile sensor temp => Sys2Proof.Machine.execJunctionHot dt tile sensor temp s
  | .thermalFloorTimer dt tile => Sys2Proof.Machine.execThermalFloorTimer dt tile s
  | .stackHot dt tile temp => Sys2Proof.Machine.execStackHot dt tile temp s
  | .stackCool dt tile temp => Sys2Proof.Machine.execStackCool dt tile temp s
  | .thermalTrip dt tile stack temp => Sys2Proof.Machine.execThermalTrip dt tile stack temp s
  | .profileClear dt => Sys2Proof.Machine.execProfileClear dt s
  | .powerOn dt bootSrc clkMode => Sys2Proof.Machine.execPowerOn dt bootSrc clkMode s
  | .perst dt => Sys2Proof.Machine.execPerst dt s
  | .watchdogMiss dt tile => Sys2Proof.Machine.execWatchdogMiss dt tile s
  | .tamper dt sensor => Sys2Proof.Machine.execTamper dt sensor s
  | .tileResetDone dt tile => Sys2Proof.Machine.execTileResetDone dt tile s
  | .coreResetDone dt core => Sys2Proof.Machine.execCoreResetDone dt core s
  | .bringupDone dt selfTest0 selfTest16 dramFault slotFails otherFails => Sys2Proof.Machine.execBringupDone dt selfTest0 selfTest16 dramFault slotFails otherFails s
  | .bringupTimeout dt step => Sys2Proof.Machine.execBringupTimeout dt step s
  | .startGood dt => Sys2Proof.Machine.execStartGood dt s
  | .bootLoad dt len hs => Sys2Proof.Machine.execBootLoad dt len hs s
  | .switchOver dt => Sys2Proof.Machine.execSwitchOver dt s
  | .handoverEnd dt => Sys2Proof.Machine.execHandoverEnd dt s
  | .trialEnd dt => Sys2Proof.Machine.execTrialEnd dt s
  | .svnFuse dt => Sys2Proof.Machine.execSvnFuse dt s
  | .doeRequest dt request => Sys2Proof.Machine.execDoeRequest dt request s
  | .mctpMessage dt kind body => Sys2Proof.Machine.execMctpMessage dt kind body s
  | .heartbeatTimeout dt session => Sys2Proof.Machine.execHeartbeatTimeout dt session s
  | .controllerFail dt tile => Sys2Proof.Machine.execControllerFail dt tile s
  | .cxlLinkDown dt why => Sys2Proof.Machine.execCxlLinkDown dt why s
  | .cxlResume dt why => Sys2Proof.Machine.execCxlResume dt why s
  | .jtagInstruction dt ins => Sys2Proof.Machine.execJtagInstruction dt ins s
  | .thermtripRelease dt bootSrc clkMode => Sys2Proof.Machine.execThermtripRelease dt bootSrc clkMode s
  | .powerLoss dt => Sys2Proof.Machine.execPowerLoss dt s
  | .perstRelease dt bootSrc clkMode => Sys2Proof.Machine.execPerstRelease dt bootSrc clkMode s
  | .neighbourBootTimeout dt => Sys2Proof.Machine.execNeighbourBootTimeout dt s
  | .vcoreSettled dt tile => Sys2Proof.Machine.execVcoreSettled dt tile s
  | .markReply dt => Sys2Proof.Machine.execMarkReply dt s

end Sys2Proof.Machine
end

