-- ==== Sys2Proof/Machine/Step.lean ====
section
/-! DEFINITION. The step: the command at the front of the queue is performed with the queue's rest; on an empty queue the module idles
(log entry 14). -/

namespace Sys2Proof.Machine

/-- One step. [Log entries 1: DESIGN CHOICE; 14: DESIGN CHOICE] -/
def step (s : State) : Host.Outcome State Fault Refusal :=
  match s.pending with
  | [] => .next s
  | c :: rest => exec c { s with pending := rest }

/-- `s` with the command that a word spells in front of its queue; no word spells one. [Log entries 1: DESIGN CHOICE; 13: DEDUCED] -/
def State.withFetchWord (s : State) (nbits w : Nat) : State :=
  match decodeTableWord nbits w with
  | none => s
  | some c => { s with pending := c :: s.pending }

end Sys2Proof.Machine
end

