-- ==== Sys2Proof/Safety.lean ====
section
/-! DEFINITION. What counts as a safe run, in the terms the claims use: the canonical form of the memories, nothing left over between
commands, runs of several commands, what a command leaves unchanged, and the reply that ends a packet. -/

namespace Sys2Proof.Machine

/-- The state between commands: both memories in canonical form, no store of a command still to land, and no posted write or MSI-X
vector waiting while the module may issue its CXL requests (R507). -/
def State.Inv (s : State) : Prop :=
  Memory.wf s.mem = true ∧ Memory.wf s.hostMem = true ∧ s.stores = []
    ∧ (s.cxlOpen = true → s.cxl.held = [] ∧ s.cxl.msixHeld = [])

/-- A step answers a next state. -/
def State.goesOn (s : State) : Prop := ∃ t, step s = .next t

/-- A state reached from another by steps that answer a next state. -/
inductive Reaches : State → State → Prop where
  | refl (s : State) : Reaches s s
  | step {s t u : State} (h : Reaches s t) (h' : Machine.step t = .next u) : Reaches s u

/-- Host memory as it will be once every posted write has reached it (R61, R507). -/
def State.hostView (s : State) : List Host.Cell := s.cxl.held.foldl applyHostWrite s.hostMem

/-! ## Frames -/

/-- The parts of the module that a frame speaks of. The count of free values used is the model's own and is none of them. -/
inductive Part where
  | queue | clock | ft | windows | works | jobs | tensors | shards | memory | hostMemory | pageMap | moves | staged | access
  | memErr | itemMaps | threads | gathered | fetched | remotes | lastData | colls | buckets | rowan | binds | vcMarks | ramps | links
  | ports | fabric | delivered | rel | power | boot | sec | hostLink | site
  deriving DecidableEq, Repr

/-- A part is the same in two states: of a memory, every byte of it. -/
def Part.same (s t : State) : Part → Prop
  | .queue => t.pending = s.pending
  | .clock => t.uptime = s.uptime
  | .ft => t.ft = s.ft
  | .windows => t.windows = s.windows
  | .works => t.works = s.works ∧ t.nextPid = s.nextPid
  | .jobs => t.jobs = s.jobs
  | .tensors => t.tensors = s.tensors
  | .shards => t.shards = s.shards
  | .memory => ∀ a, cellGet t.mem a = cellGet s.mem a
  | .hostMemory => ∀ a, cellGet t.hostView a = cellGet s.hostView a
  | .pageMap => t.pageMap = s.pageMap ∧ t.deferred = s.deferred
  | .moves => t.moves = s.moves
  | .staged => t.staged = s.staged
  | .access => t.access = s.access
  | .memErr => t.memErr = s.memErr
  | .itemMaps => t.itemMaps = s.itemMaps
  | .threads => t.threads = s.threads ∧ t.weights = s.weights
  | .gathered => t.gathered = s.gathered
  | .fetched => t.fetched = s.fetched
  | .remotes => t.remotes = s.remotes ∧ t.nextTag = s.nextTag
  | .lastData => t.lastData = s.lastData
  | .colls => t.colls = s.colls
  | .buckets => t.buckets = s.buckets
  | .rowan => t.rowan = s.rowan ∧ t.rowanEarly = s.rowanEarly ∧ t.tagUses = s.tagUses
  | .binds => t.binds = s.binds ∧ t.bindSent = s.bindSent
  | .vcMarks => t.vcMarks = s.vcMarks
  | .ramps => t.ramps = s.ramps
  | .links => t.links = s.links
  | .ports => t.ports = s.ports
  | .fabric => t.fabric = s.fabric
  | .delivered => t.delivered = s.delivered
  | .rel => t.rel = s.rel
  | .power => t.power = s.power
  | .boot => t.boot = s.boot
  | .sec => t.sec = s.sec
  | .hostLink => t.cxl.linkUp = s.cxl.linkUp ∧ t.cxl.speed = s.cxl.speed ∧ t.cxl.width = s.cxl.width ∧ t.cxl.bme = s.cxl.bme ∧ t.cxl.d3 = s.cxl.d3 ∧ t.cxl.lastRead = s.cxl.lastRead
      ∧ t.cxl.lastPoison = s.cxl.lastPoison ∧ t.cxl.lastReg = s.cxl.lastReg ∧ t.cxl.lastDoe = s.cxl.lastDoe
      ∧ t.cxl.lastMctp = s.cxl.lastMctp ∧ t.cxl.jtag = s.cxl.jtag
  | .site => t.site = s.site

/-- The parts that reading memory may change: accesses are counted, words are corrected and logged, and a unit whose errors are counted may
retire (R226 to R239, R243). -/
def Part.readers : List Part := [.access, .works, .jobs, .memory, .pageMap, .staged, .memErr, .links, .threads, .rel]

/-- The parts that the end of page moves and the operations held for them may change besides (R202). -/
def Part.movers : List Part := Part.readers ++ [.fabric, .ports, .gathered, .lastData, .moves]

/-- From `s` to `t` only the named parts change. -/
def State.only (s t : State) (ps : List Part) : Prop := ∀ p, ps.contains p = false → p.same s t

/-- Every job slot but `j` is unchanged. -/
def State.sameSlots (s t : State) (j : Nat) : Prop := ∀ k, k ≠ j → t.job k = s.job k

/-- Every window but `w` is unchanged. -/
def State.sameWindows (s t : State) (w : Nat) : Prop := ∀ k, k ≠ w → vget t.windows k = vget s.windows k

/-! ## Replies -/

/-- From `s` to `t` one reply entry is posted to the window of packet `p`, at its tail, and the tail moves on (R61, R63, R72). -/
def State.replied (s t : State) (p : Packet) (st : Status) (final : Bool) (detail result : Nat) : Prop :=
  let x := vget s.windows p.window
  t.hostView = applyHostWrite s.hostView
      { addr := x.replyAddr + 32 * x.tail
        bytes := (replyWords p st x.tailPhase final s.ftNow x.head x.headPhase detail result).flatMap wordBytes }
    ∧ (p.window < 64 → (vget t.windows p.window).tail = (x.tail + 1) % 4096
        ∧ (vget t.windows p.window).tailPhase = if x.tail = 4095 then !x.tailPhase else x.tailPhase)
    ∧ s.sameWindows t p.window

/-- From `s` to `t` the work of a packet ends with its one final reply (R63, R69, R77). -/
def State.answered (s t : State) (w : Work) (st : Status) (detail result : Nat) : Prop :=
  s.replied t w.pkt st true detail result ∧ t.works = dropFirst (fun v => v.pid == w.pid) s.works

/-! ## Module-scope resets -/

/-- From `s` to `t` everything goes that a module-scope reset clears, and unit history and the retained words stay (R448). -/
def State.cleared (s t : State) : Prop :=
  t.works = [] ∧ t.jobs = State.reset.jobs ∧ t.windows = State.reset.windows ∧ t.tensors = [] ∧ t.shards = [] ∧ t.colls = []
    ∧ t.buckets = [] ∧ t.remotes = [] ∧ t.binds = [] ∧ t.staged = [] ∧ t.threads = [] ∧ t.weights = []
    ∧ t.moves = [] ∧ t.power = State.reset.power
    ∧ t.fabric = State.reset.fabric ∧ t.ports = State.reset.ports ∧ t.site = State.reset.site ∧ t.ft.state = .unset
    ∧ (∀ l, l < 18 → (vget t.links l).st = if (vget s.links l).retired then .off else .down)
    ∧ (∀ b, 10 * coreBase ≤ b → b < 10 * keyEnd → cellGet t.mem b = 0)
    ∧ t.sec.sessions = [] ∧ t.sec.tables = [] ∧ t.sec.jtagLocked = true
    ∧ t.boot.cpFailed = [] ∧ t.boot.tileReset = [] ∧ t.boot.coreReset = [] ∧ t.boot.bringupDone = false ∧ t.boot.staged = none
    ∧ t.boot.booking = none ∧ t.boot.resets = s.boot.resets + 1 ∧ t.rel.tests = [] ∧ t.rel.samples = [] ∧ t.rel.windows = []

end Sys2Proof.Machine
end

