-- ==== Sys2Proof/Certificates/Slice0/Obligations.lean ====
section
/-! DEFINITION. The statements for the provers, from the numbered rules of the spec. -/

open Sys2Proof Sys2Proof.Machine

/-- JOB_OPEN opens the lowest-numbered free slot with its register sets at their reset values and answers the slot's number; with no free slot
it answers NO_RESOURCE (R70, R107, R368, R375, R417). JOB_CLOSE unbinds the job's groups, ends a shadow copy without a record, and waits
for the job's other packets; with none left it frees the slot, its tensors and its shards, and answers DONE (R79, R214, R258, R308, R389). -/
def Obligations.JobsOpenAndClose : Prop :=
  (∀ (s : State) (dt pid : Nat) (w : Work), s.handed pid [0x70] = some w →
    (∀ j, j < 4 → (s.job j).opened = false → (∀ i, i < j → (s.job i).opened = true) →
      ∃ t, exec (.jobOpen dt pid) s = .next t
        ∧ t.job j =
          { opened := true, fjob := fld (w.pkt.par 0) 0 32, seed := w.pkt.par 1, ramp := fld (w.pkt.par 2) 0 2, keep3 := bitOf (w.pkt.par 2) 8
            site := if s.site.enable && s.site.asserted then .parked else .running }
        ∧ s.sameSlots t j ∧ (s.pass dt).answered t w .done 0 j
        ∧ (s.stores = [] → (s.pass dt).only t
            [.windows, .works, .jobs, .itemMaps, .gathered, .fetched, .ramps, .rel, .power, .hostMemory]))
    ∧ ((∀ j, j < 4 → (s.job j).opened = true) →
      ∃ t, exec (.jobOpen dt pid) s = .next t ∧ t.jobs = s.jobs ∧ (s.pass dt).answered t w .noResource 2 0)) ∧
  (∀ (s : State) (dt pid j : Nat) (w : Work), s.handed pid [0x71] = some w → w.slot = some j → j < 4 → s.stores = [] →
    let alone : Prop := ∀ v, v ∈ s.works → v.slot = some j → v.pid = pid
    ((∃ v, v ∈ s.works ∧ v.slot = some j ∧ v.pid ≠ pid) → (s.job j).groups = [] → (s.job j).shadow.copy = none →
      ∃ t, exec (.jobClose dt pid) s = .next t ∧ t.works = s.works
        ∧ t.job j = { s.job j with shadow := { (s.job j).shadow with asking := none } } ∧ s.sameSlots t j ∧ (s.pass dt).only t [.jobs])
    ∧ (alone → (s.job j).groups = [] → ∃ t, exec (.jobClose dt pid) s = .next t
      ∧ (t.job j).opened = false ∧ (t.job j).rules = [] ∧ (t.job j).shadow.copy = none
      ∧ (∀ x, x ∈ t.tensors → x.slot ≠ j) ∧ (∀ h, h ∈ t.shards → h.slot ≠ j)
      ∧ ((s.job j).shadow.copy = none → (s.pass dt).replied t w.pkt .done true 0 0
        ∧ (s.pass dt).only t [.windows, .works, .jobs, .tensors, .shards, .hostMemory, .pageMap, .staged, .memErr, .itemMaps, .gathered,
            .fetched, .ramps, .links, .ports, .fabric, .rel, .power, .threads]))
    ∧ (∀ g, alone → (s.job j).groups = [g] → ∃ t, exec (.jobClose dt pid) s = .next t ∧ (t.job j).opened = false ∧ (t.job j).groups = []
      ∧ (∀ x, x ∈ t.tensors → x.slot ≠ j) ∧ (∀ h, h ∈ t.shards → h.slot ≠ j)))

/-- PHASE_MARK, OP_PREFER and CAP_SET are booked for the first phase boundary later than their stamp, or than their dispatch where that has
passed; BARRIER and ROWAN_REDUCE are taken and wait for their turn in their group's queue (R45, R78, R311, R432). The bulk collectives are
taken from dispatch: each gets a record, numbered within its group, and waits for its place at the head of its group's queue; a permute
that meets its epoch fence says so once with EPOCH_FENCE_PENDING (R311, R323). SHARD_DECLARE adds the shard, whose MASTER and STATE take
PARAM's layout epoch; IGR_BUCKET makes the bucket's record, and on its owner places a zeroed accumulation buffer, or answers NO_RESOURCE
with detail 4; a forced bucket that waits for no member fails at once (R334, R336, R342, R350). -/
def Obligations.PacketsWaitTheirTurn : Prop :=
  (∀ (s : State) (dt pid : Nat) (w : Work), s.stores = [] →
    let booked (t : State) : Prop :=
      t.works = updFirst (fun v => v.pid == pid) (fun v => { v with
          stage := .waiting
          due :=
            let p := max 1 s.ft.phasePeriod
            if (w.pkt.stamp / p + 1) * p ≤ w.dispFt then (w.dispFt / p + 1) * p else (w.pkt.stamp / p + 1) * p }) s.works
        ∧ (s.pass dt).only t [.works]
    (s.handed pid [0x72] = some w → ∃ t, exec (.phaseMark dt pid) s = .next t ∧ booked t)
    ∧ (s.handed pid [0x80] = some w → ∃ t, exec (.opPrefer dt pid) s = .next t ∧ booked t)
    ∧ (s.handed pid [0x81] = some w → ∃ t, exec (.capSet dt pid) s = .next t ∧ booked t)
    ∧ (s.handed pid [0x58] = some w → ∃ t, exec (.barrier dt pid) s = .next t
      ∧ t.works = updFirst (fun v => v.pid == pid) (fun v => { v with stage := .running }) s.works ∧ (s.pass dt).only t [.works])
    ∧ (s.handed pid [0x5A] = some w → ∃ t, exec (.rowanReduce dt pid) s = .next t
      ∧ t.works = updFirst (fun v => v.pid == pid) (fun v => { v with stage := .running }) s.works ∧ (s.pass dt).only t [.works])) ∧
  (∀ (s : State) (dt pid : Nat) (w : Work), s.stores = [] → s.coll pid = none →
    let r : Coll := { pid := pid, slot := w.slot.getD 0, group := w.pkt.group, cseq := w.cseq }
    let taken (t : State) : Prop := t.colls = s.colls ++ [r]
      ∧ t.works = updFirst (fun v => v.pid == pid) (fun v => { v with stage := .running }) s.works ∧ (s.pass dt).only t [.works, .colls]
    (s.handed pid [0x52] = some w → s.fenced w w.pkt.cdesc = false → ∃ t, exec (.allreduce dt pid) s = .next t ∧ taken t)
    ∧ (s.handed pid [0x53] = some w → s.fenced w w.pkt.cdesc = false → ∃ t, exec (.reduceScatter dt pid) s = .next t ∧ taken t)
    ∧ (s.handed pid [0x54] = some w → s.fenced w w.pkt.cdesc = false → ∃ t, exec (.allgather dt pid) s = .next t ∧ taken t)
    ∧ (s.handed pid [0x55] = some w → s.fenced w w.pkt.cdesc = false → ∃ t, exec (.broadcast dt pid) s = .next t ∧ taken t)
    ∧ (s.handed pid [0x57] = some w → s.fenced w w.pkt.cdesc = false → ∃ t, exec (.alltoall dt pid) s = .next t ∧ taken t)
    ∧ (s.handed pid [0x56] = some w → s.fenced w w.pkt.cdesc = false → ∃ t, exec (.permute dt pid) s = .next t ∧ taken t)
    ∧ (s.handed pid [0x56] = some w → s.fenced w w.pkt.cdesc = true → ∃ t, exec (.permute dt pid) s = .next t
        ∧ t.colls = s.colls ++ [{ r with fenced := true }] ∧ (s.pass dt).replied t w.pkt .epochFencePending false 0 0
        ∧ (s.pass dt).only t [.works, .colls, .windows, .hostMemory])) ∧
  (∀ (s : State) (dt pid : Nat) (w : Work), s.stores = [] → s.handed pid [0x59] = some w →
    (w.pkt.declares = true →
      let j := w.slot.getD 0
      let h := w.pkt.newShard j
      let e := ((s.tensors.find? fun t => t.num == h.param && t.slot == j).map fun t => t.epoch).getD 0
      ∃ t, exec (.shardDeclare dt pid) s = .next t
        ∧ t.shards = s.shards ++ [h] ∧ h.kept = 1 ∧ (s.pass dt).answered t w .done 0 0
        ∧ t.tensors = s.tensors.map (fun x => if x.slot = j ∧ (x.num = h.master ∨ h.states ≠ 0 ∧ x.num = h.state) then { x with epoch := e } else x)
        ∧ (s.pass dt).only t [.windows, .works, .shards, .tensors, .itemMaps, .fetched, .hostMemory])
    ∧ (∀ g, w.pkt.declares = false → s.group (w.slot.getD 0) w.pkt.bdesc.grp = some g →
      let m := (s.pass dt).finishMoves
      m.work pid = some w → m.group (w.slot.getD 0) w.pkt.bdesc.grp = some g →
      let j := w.slot.getD 0
      let d := w.pkt.bdesc
      let r : Bucket := { pid := pid, slot := j, group := d.grp, cseq := w.cseq }
      let tile := ((m.tensorKept j d.shard).map fun t => t.tile).getD 0
      (g.rank s.fabric.mod ≠ d.owner → ∃ t, exec (.igrBucket dt pid) s = .next t ∧ t.buckets = m.buckets ++ [r]
        ∧ m.only t [.works, .buckets])
      ∧ (g.rank s.fabric.mod = d.owner → m.placeBuffer j tile d.count g.size = none → j < 4 → ∃ t, exec (.igrBucket dt pid) s = .next t
        ∧ t.buckets = m.buckets ∧ m.answered t w .noResource 4 0
        ∧ (∀ b, b ∈ (t.job j).buckets ↔ b ∈ (m.job j).buckets ∧ b.num ≠ d.num)
        ∧ m.only t [.windows, .works, .jobs, .itemMaps, .fetched, .hostMemory])
      ∧ (g.rank s.fabric.mod = d.owner → ∀ o u, m.placeBuffer j tile d.count g.size = some (o, u) →
        o.members = List.replicate g.size {} ∧ o.bufTile = tile ∧ o.closed = false
        ∧ (d.force = false ∨ (∃ i, i < g.size ∧ rankBit w.mask i = true) → ∃ t, exec (.igrBucket dt pid) s = .next t
            ∧ t.buckets = m.buckets ++ [{ r with owner := some o }]
            ∧ (∀ i p, i < o.bufPages → t.resolve o.bufTile ((o.bufPage + i) * 65536) = some p →
                ∀ b, b < 81920 → cellGet t.mem (10 * placeKey p + b) = 0)
            ∧ m.only t [.works, .buckets, .memory, .pageMap, .gathered])
        ∧ (d.force = true → (∀ i, i < g.size → rankBit w.mask i = false) → 0 < d.min_ → w.tags = [] → w.outs = [] → s.bucket pid = none →
            m.tensorKept j d.mask = none → ∃ t, exec (.igrBucket dt pid) s = .next t ∧ t.bucket pid = none
              ∧ m.replied t w.pkt .internal true 0x0170 0))))

/-- SAFE_POINT: a parked job answers its generation at once; a running one enters safing with the earlier of the packet's time and the
safe-point limit (R383, R385). SAFE_DEADLINE: after the deadlines and windows that end at its FT, a safing job without a commit group
parks at its own, and before it nothing happens; a parked job holds nothing of its step (R44, R384, R385). -/
def Obligations.JobsSafeAndPark : Prop :=
  (∀ (s : State) (dt pid j : Nat) (w : Work), s.handed pid [0x76] = some w → w.slot = some j → j < 4 → s.stores = [] →
    ((s.job j).site = .parked → ∃ t, exec (.safePoint dt pid) s = .next t ∧ t.jobs = s.jobs
      ∧ (s.pass dt).answered t w .done 0 ((s.job j).stp.gen % 2 ^ 32)
      ∧ (s.pass dt).only t [.windows, .works, .itemMaps, .fetched, .hostMemory])
    ∧ ((s.job j).site = .running → ∃ t, exec (.safePoint dt pid) s = .next t
      ∧ t.job j = { s.job j with
          site := .safing
          safeT := min (max w.pkt.stamp (w.pkt.par 0).toNat) (w.pkt.stamp + s.site.limitMs * 1000000) }
      ∧ s.sameSlots t j ∧ (s.pass dt).only t [.works, .jobs, .rel])) ∧
  (∀ (s : State) (dt j : Nat), j < 4 → s.stores = [] →
    let u := (s.pass dt).settleDeadlines
    ((u.job j).opened = true → (u.job j).site = .safing → (u.job j).safeT ≤ u.ftNow → u.group j 0 = none →
      ∃ t, exec (.safeDeadline dt j) s = .next t
        ∧ (t.job j).site = .parked ∧ (∀ o ∈ (t.job j).lanes, o = none) ∧ (t.job j).fails = [] ∧ (t.job j).scales = []
        ∧ (t.job j).buckets = [] ∧ (t.job j).commit = {})
    ∧ (u = s.pass dt → (s.job j).opened = true → (s.job j).site = .safing → (s.job j).safeT ≤ (s.pass dt).ftNow → s.group j 0 = none →
      (∀ w ∈ s.works, w.slot ≠ some j) → (∀ b ∈ s.buckets, b.slot ≠ j) →
      ∃ t, exec (.safeDeadline dt j) s = .next t
        ∧ t.job j = { s.job j with
            site := .parked, closing := false, lanes := [none, none, none, none, none, none, none], fails := [], scales := [], buckets := []
            commit := {} }
        ∧ s.sameSlots t j ∧ (s.pass dt).only t [.jobs])
    ∧ (u = s.pass dt → (s.pass dt).ftNow < (s.job j).safeT → ∃ t, exec (.safeDeadline dt j) s = .next t ∧ (s.pass dt).only t []))

/-- SITE_ALERT: recognised with its stamp 1 µs before; every open job that runs or is safing takes its deadline while ENABLE is 1; the
de-assertion clears the pin's state alone; RELEASE runs the parked jobs it names again unless the alert is asserted (R382, R383, R387). -/
def Obligations.SiteAlertSafesTheJobs : Prop :=
  ∀ (s : State) (dt : Nat), s.stores = [] →
    (s.registersRun = true → s.site.asserted = false → ∃ t, exec (.siteAlertAssert dt) s = .next t
      ∧ t.site = { s.site with asserted := true, latched := true, stamp := (s.pass dt).ftNow - 1000 }
      ∧ (s.site.enable = false → t.jobs = s.jobs)
      ∧ (s.site.enable = true → ∀ j, j < 4 →
          ((s.job j).opened = false → t.job j = s.job j) ∧ ((s.job j).site = .parked → t.job j = s.job j)
          ∧ ((s.job j).opened = true → (s.job j).site = .running →
              t.job j = { s.job j with site := .safing, safeT := (s.pass dt).ftNow - 1000 + s.site.limitMs * 1000000 })
          ∧ ((s.job j).opened = true → (s.job j).site = .safing →
              t.job j = { s.job j with safeT := min (s.job j).safeT ((s.pass dt).ftNow - 1000 + s.site.limitMs * 1000000) }))
      ∧ (s.pass dt).only t [.site, .jobs, .rel])
    ∧ (∃ t, exec (.siteAlertDeassert dt) s = .next t ∧ t.site = { s.site with asserted := false } ∧ (s.pass dt).only t [.site])
    ∧ (s.registersRun = true → s.site.asserted = false → ∀ mask, ∃ t, exec (.saRelease dt mask) s = .next t
      ∧ (∀ j, j < 4 → t.job j = if mask.testBit j && decide ((s.job j).site = .parked) then { s.job j with site := .running, safeT := 0 }
          else s.job j)
      ∧ (s.pass dt).only t [.jobs])

/-- The job slot registers that software writes: JNS_STATUS clears what a written 1 names, with RANGE_COUNT beside SCALE_RANGE; JSC_GEN takes
a generation while GEN_OPEN is 1 alone, which then alone is retained; JSH_CTRL's ENABLE starts a stream whose buffer is aligned and long
enough, sets CFG_ERR where it is not, and ends the stream when it is cleared (R108, R338, R368, R375). -/
def Obligations.JobRegisterWrites : Prop :=
  ∀ (s : State) (dt j : Nat) (v : Word), j < 4 → s.registersRun = true → s.stores = [] →
    (∃ t, exec (.jnsStatusWrite dt j v) s = .next t
      ∧ (t.job j).num.nanTrap = ((s.job j).num.nanTrap && !bitOf v 0) ∧ (t.job j).num.scaleRange = ((s.job j).num.scaleRange && !bitOf v 1)
      ∧ (t.job j).num.tiny = ((s.job j).num.tiny && !bitOf v 2)
      ∧ (t.job j).num.rangeCount = (if bitOf v 1 then 0 else (s.job j).num.rangeCount)
      ∧ { t.job j with num := (s.job j).num } = s.job j ∧ s.sameSlots t j ∧ (s.pass dt).only t [.jobs])
    ∧ (∃ t, exec (.jscGenWrite dt j v) s = .next t
      ∧ ((s.job j).stp.genOpen = false → t.job j = s.job j)
      ∧ ((s.job j).stp.genOpen = true →
          t.job j = { s.job j with stp := { (s.job j).stp with gen := v.toNat }, kept := 1 }
          ∧ ∀ h ∈ t.shards, h.slot = j → h.kept = 1)
      ∧ s.sameSlots t j ∧ (s.pass dt).only t [.jobs, .shards])
    ∧ (∃ t, exec (.shadowEnable dt j v) s = .next t
      ∧ ((s.job j).shadow.enable = true → bitOf v 0 = true → t.job j = s.job j)
      ∧ ((s.job j).shadow.enable = true → bitOf v 0 = false →
          (t.job j).shadow.enable = false ∧ (t.job j).shadow.copy = none ∧ (t.job j).shadow.asking = none
          ∧ ((s.job j).shadow.copy = none →
              t.job j = { s.job j with shadow := { (s.job j).shadow with enable := false, copy := none, asking := none } }))
      ∧ ((s.job j).shadow.enable = false → bitOf v 0 = true → fld v 24 10 ≤ 512 →
          (t.job j).shadow.enable = ((s.job j).shadow.base.toNat % 65536 == 0 && decide ((s.pass dt).shadowBytes j (t.job j).shadow.content ≤ (s.job j).shadow.bytes))
          ∧ (t.job j).shadow.cfgErr = ((s.job j).shadow.cfgErr || !(t.job j).shadow.enable))
      ∧ ((s.job j).shadow.copy = none → s.sameSlots t j ∧ (s.pass dt).only t [.jobs]))

/-- The rules of the placer: a hint replaces the hint of the same kind and handle, spill hints apart, or is added; a forbid is added and its
packet waits; it replies once it is complied with; a withdraw removes the rules it names (R256 to R258). -/
def Obligations.PlacementRulesAreKept : Prop :=
  ∀ (s : State) (dt pid j : Nat) (w : Work), w.slot = some j → j < 4 → s.stores = [] →
    (s.handed pid [0x73] = some w → w.pkt.plAction = 0 → ∃ t, exec (.placementHint dt pid) s = .next t
      ∧ (let same (q : Rule) : Bool := q.action == 0 && q.kind == w.pkt.plKind && q.handle == handleNum (w.pkt.par 1)
         let r : Rule := { action := 0, kind := w.pkt.plKind, handle := handleNum (w.pkt.par 1), target := w.pkt.plTarget
                           since := (s.job j).nextHandle }
         t.job j = { s.job j with
           rules := if w.pkt.plKind ≠ 0x08 ∧ (s.job j).rules.any same = true then updFirst same (fun _ => r) (s.job j).rules
             else (s.job j).rules ++ [r] })
      ∧ s.sameSlots t j ∧ (s.pass dt).answered t w .done 0 0
      ∧ (s.pass dt).only t [.windows, .works, .jobs, .itemMaps, .fetched, .hostMemory])
    ∧ (s.handed pid [0x73] = some w → w.pkt.plAction = 1 → ∃ t, exec (.placementForbid dt pid) s = .next t
      ∧ t.job j = { s.job j with rules := (s.job j).rules
          ++ [{ action := 1, kind := w.pkt.plKind, handle := handleNum (w.pkt.par 1), target := w.pkt.plTarget, since := (s.job j).nextHandle }] }
      ∧ s.sameSlots t j
      ∧ (handleNum (w.pkt.par 1) ≠ 0 → t.works = updFirst (fun v => v.pid == pid) (fun v => { v with stage := .waiting }) s.works)
      ∧ (∀ c ∈ t.staged, c ∈ s.staged) ∧ (s.pass dt).only t [.works, .jobs, .staged, .threads, .power])
    ∧ (s.work pid = some w → w.stage = .waiting → w.pkt.opcode = 0x73 → w.pkt.plAction = 1 → s.complies j w.pkt.rule = true →
      ∃ t, exec (.forbidComplied dt pid) s = .next t ∧ (s.pass dt).answered t w .done 0 0
        ∧ (s.pass dt).only t [.windows, .works, .itemMaps, .fetched, .hostMemory])
    ∧ (s.handed pid [0x73] = some w → w.pkt.plAction = 2 → ∃ t, exec (.placementWithdraw dt pid) s = .next t
      ∧ t.job j = { s.job j with rules := (s.job j).rules.filter fun r => !w.pkt.withdraws r }
      ∧ s.sameSlots t j ∧ (s.pass dt).replied t w.pkt .done true 0 0
      ∧ (s.pass dt).only t [.windows, .works, .jobs, .itemMaps, .fetched, .hostMemory, .threads, .power])

/-- COMMIT_STEP joins the packets that wait for the step's vote, the first of them giving the commit its stamp (R357). A member votes only
once the packets and checks of its step are settled, and at its commit deadline only when the deadline has passed: before that COMMIT_VOTE
changes nothing, and COMMIT_DEADLINE nothing where no bucket's deadline has come (R357, R385). -/
def Obligations.CommitWaitsForTheStep : Prop :=
  (∀ (s : State) (dt pid j : Nat) (w : Work), s.handed pid [0x74] = some w → w.slot = some j → j < 4 → s.stores = [] →
    ∃ t, exec (.commitStep dt pid) s = .next t
      ∧ t.works = updFirst (fun v => v.pid == pid) (fun v => { v with stage := .running }) s.works
      ∧ t.job j = { s.job j with commit :=
          { (s.job j).commit with
            pids := (s.job j).commit.pids ++ [pid], stamp := if (s.job j).commit.pids = [] then w.pkt.stamp else (s.job j).commit.stamp } }
      ∧ s.sameSlots t j ∧ (s.pass dt).only t [.works, .jobs]) ∧
  (∀ (s : State) (dt j : Nat), j < 4 → s.stores = [] →
    (s.stepSettled j = false → ∃ t, exec (.commitVote dt j) s = .next t ∧ (s.pass dt).only t [])
    ∧ ((s.pass dt).judgeBuckets j (s.pass dt).ftNow = s.pass dt → (s.pass dt).ftNow < (s.job j).commitDeadline → ∃ t, exec (.commitDeadline dt j) s = .next t ∧ (s.pass dt).only t []))

/-- What the agreed lanes of a vote decide: the earliest failure among lanes 2 to 6, the lowest lane on a tie, decides against the step; with
none the step commits, REPLAYED_OK before LATE_EXCLUDED before DONE (R23, R359). -/
def Obligations.VoteDecides : Prop :=
  ∀ v : List Nat, v.length = 7 →
    ((∀ i, 2 ≤ i → i ≤ 6 → lget v i noFt = noFt) →
      commitStatus v = (if lget v 0 noFt ≠ noFt then .replayedOk else if lget v 1 noFt ≠ noFt then .lateExcluded else .done, true))
    ∧ (∀ i, 2 ≤ i → i ≤ 6 → lget v i noFt ≠ noFt →
        (∀ k, 2 ≤ k → k ≤ 6 → lget v k noFt ≠ noFt → lget v i noFt < lget v k noFt ∨ (lget v i noFt = lget v k noFt ∧ i ≤ k)) →
        commitStatus v = (laneStatus i, false))

/-- A member that is alone in group 0, with a settled step and no shard to copy, decides alone: its generation goes on by one, its COMMIT_STEP
answers, and the step's lanes and buckets are put away. At its commit deadline it votes with an INTERNAL failure, detail 0x0171: the
generation stays, and COMMIT_STEP answers that failure (R21, R333, R357, R359, R360); that RESULT is then the unchanged generation is the
model's choice (log entry 15). -/
def Obligations.SingleMemberCommits : Prop :=
  ∀ (s : State) (dt j pid : Nat) (w : Work) (g : Group), j < 4 → s.stores = [] →
    s.works = [w] → w.pid = pid → w.pkt.opcode = 0x74 → w.slot = some j → (s.job j).commit = { pids := [pid], stamp := w.pkt.stamp, voted := false } →
    s.rel.samples = [] → s.shards = [] → s.group j 0 = some g → g.rings s.fabric.mod = [] → (s.job j).site = .running →
    (s.job j).lanes = [none, none, none, none, none, none, none] → (s.job j).shadow.enable = false →
    let g' := ((s.job j).stp.gen + 1) % 2 ^ 64
    (∃ t, exec (.commitVote dt j) s = .next t
      ∧ (t.job j).stp.gen = g' ∧ (t.job j).commit = {} ∧ (t.job j).buckets = [] ∧ t.works = []
      ∧ (s.pass dt).replied t w.pkt .done true 0 (g' % 2 ^ 32)
      ∧ (t.job j).records.getLast? = some { step := g', raised := 0x80, status := 0, ft := (s.pass dt).ftNow, gen := g' })
    ∧ (s.buckets = [] → (s.job j).fails = [] → (s.job j).commitDeadline ≤ (s.pass dt).ftNow → (s.job j).commitDeadline < 2 ^ 64 - 1 →
      ∃ t, exec (.commitDeadline dt j) s = .next t
        ∧ (t.job j).stp = (s.job j).stp ∧ (t.job j).commit = {} ∧ (t.job j).buckets = [] ∧ t.works = []
        ∧ (∀ o ∈ (t.job j).lanes, o = none) ∧ (t.job j).fails = []
        ∧ (s.pass dt).replied t w.pkt .internal true 0x0171 ((s.job j).stp.gen % 2 ^ 32)
        ∧ (t.job j).records.getLast? =
            some { step := g', raised := 0x40, status := Status.internal.code, ft := (s.pass dt).ftNow, gen := (s.job j).stp.gen })

/-- GROUP_BIND: of a group defined here with another membership it is rejected; with the same one and no VC asked for it answers at once, a
bound VC takes the packet's weight. Otherwise the member of rank 0 is asked: by a message, or here, where the request is recorded while
other members' are missing; alone in the group, the packet binds it at once, with the lowest VC number that is free. After 12 ms without
an outcome the packet answers NO_RESOURCE (R305, R306, R307). GROUP_UNBIND: the group is gone on this member at once, with its VC mark; it
answers DONE, a group never bound included. With none of the group's collectives in flight nothing of the job goes but the group, and the
coordinator is told (R308). -/
def Obligations.GroupsBindAndUnbind : Prop :=
  (∀ (s : State) (dt pid j : Nat) (w : Work), w.slot = some j → j < 4 → s.stores = [] →
    let n := w.pkt.group
    let here := s.fabric.mod
    let asks : Prop := s.handed pid [0x50] = some w
      ∧ (s.group j n = none ∨ ∃ g, s.group j n = some g ∧ g.same w.pkt = true ∧ w.pkt.bindVc = true ∧ g.vc = none)
    let waits : List Work := updFirst (fun v => v.pid == pid) (fun v => { v with stage := .waiting, due := (s.pass dt).ftNow }) s.works
    let alone : Prop := s.handed pid [0x50] = some w ∧ s.group j n = none ∧ w.pkt.bindMembers = [here] ∧ here < 4096
      ∧ s.slotOf w.fjob = some j ∧ s.pendingBind j n = none ∧ s.binding w.fjob n = none
    (∀ g, s.handed pid [0x50] = some w → s.group j n = some g → g.same w.pkt = false →
      ∃ t, exec (.groupBind dt pid) s = .next t ∧ (s.pass dt).answered t w .badParam 0x0160 0
        ∧ (s.pass dt).only t [.windows, .works, .itemMaps, .fetched, .hostMemory])
    ∧ (∀ g, s.handed pid [0x50] = some w → s.group j n = some g → g.same w.pkt = true → w.pkt.bindVc = false →
      ∃ t, exec (.groupBind dt pid) s = .next t ∧ (s.pass dt).answered t w .done 0 0
        ∧ (s.pass dt).only t [.windows, .works, .itemMaps, .fetched, .hostMemory])
    ∧ (∀ g v, s.handed pid [0x50] = some w → s.group j n = some g → g.same w.pkt = true → w.pkt.bindVc = true → g.vc = some v →
      ∃ t, exec (.groupBind dt pid) s = .next t ∧ (s.pass dt).answered t w .done 0 v
        ∧ (t.group j g.num).map (fun x => x.weight) = some w.pkt.bindWeight ∧ s.sameSlots t j
        ∧ (s.pass dt).only t [.windows, .works, .jobs, .vcMarks, .itemMaps, .fetched, .hostMemory])
    ∧ (asks → lget w.pkt.bindMembers 0 0 ≠ here →
      ∃ t, exec (.groupBind dt pid) s = .next t ∧ t.works = waits
        ∧ (∃ e, t.bindSent = s.bindSent ++ [e] ∧ e.msg.dest = lget w.pkt.bindMembers 0 0 ∧ e.msg.ctl = .bindReq w.bindReq)
        ∧ (s.pass dt).only t [.works, .binds, .remotes, .links, .ports, .fabric])
    ∧ (asks → lget w.pkt.bindMembers 0 0 = here → s.binding w.fjob n = none → w.pkt.bindMembers.any (fun m => m != here) = true →
      ∃ t, exec (.groupBind dt pid) s = .next t ∧ t.works = waits
        ∧ t.binds = s.binds ++ [{ fjob := w.fjob, slot := (s.slotOf w.fjob).getD 4, group := n, reqs := [(here, w.bindReq)]
                                  firstAt := (s.pass dt).ftNow }]
        ∧ (s.pass dt).only t [.works, .binds])
    ∧ (alone → w.pkt.bindVc = false →
      ∃ t, exec (.groupBind dt pid) s = .next t ∧ t.job j = { s.job j with groups := (s.job j).groups ++ [w.pkt.newGroup none] }
        ∧ s.sameSlots t j ∧ (s.pass dt).replied t w.pkt .done true 0 0
        ∧ (s.pass dt).only t [.windows, .works, .jobs, .binds, .itemMaps, .fetched, .hostMemory])
    ∧ (∀ v, alone → w.pkt.bindVc = true → ((List.range 20).map fun k => k + 4).find? (fun k => !s.vcMarks.any fun m => m.vc == k) = some v →
      s.vcMarks.any (fun m => m.fjob == w.fjob && m.group == n) = false →
      ∃ t, exec (.groupBind dt pid) s = .next t ∧ t.job j = { s.job j with groups := (s.job j).groups ++ [w.pkt.newGroup (some v)] }
        ∧ t.vcMarks = s.vcMarks ++ [{ vc := v, fjob := w.fjob, group := n, weight := w.pkt.bindWeight }]
        ∧ s.sameSlots t j ∧ (s.pass dt).replied t w.pkt .done true 0 v
        ∧ (s.pass dt).only t [.windows, .works, .jobs, .binds, .vcMarks, .itemMaps, .fetched, .hostMemory])
    ∧ (s.work pid = some w → w.pkt.opcode = 0x50 → w.stage = .waiting → w.due + 12000000 ≤ (s.pass dt).ftNow →
      ∃ t, exec (.bindMemberTimeout dt pid) s = .next t ∧ (s.pass dt).answered t w .noResource 0x0161 0
        ∧ (s.pass dt).only t [.windows, .works, .vcMarks, .itemMaps, .fetched, .hostMemory])) ∧
  (∀ (s : State) (dt pid j : Nat) (w : Work), s.handed pid [0x51] = some w → w.slot = some j → j < 4 → s.stores = [] →
    let n := w.pkt.group
    let fjob := (s.job j).fjob
    (∃ t, exec (.groupUnbind dt pid) s = .next t ∧ t.group j n = none ∧ t.boot = s.boot ∧ t.sec = s.sec)
    ∧ (s.group j n = none → ∃ t, exec (.groupUnbind dt pid) s = .next t ∧ (s.pass dt).answered t w .done 0 0
        ∧ (s.pass dt).only t [.windows, .works, .itemMaps, .fetched, .hostMemory])
    ∧ (∀ g, s.group j n = some g → n ≠ 0 → (∀ v ∈ s.works, isCollective v.pkt.opcode = true → v.pkt.group ≠ n) →
        (∀ k u, k < 64 → s.run k = some u → ¬(u.fjob = fjob ∧ u.group = n)) →
        ∃ t, exec (.groupUnbind dt pid) s = .next t
          ∧ t.job j = { s.job j with groups := (s.job j).groups.filter fun x => x.num != n } ∧ s.sameSlots t j
          ∧ t.tagUses = s.tagUses.filter (fun x => !(x.fjob == fjob && x.group == n))
          ∧ (g.memberOf 0 ≠ s.fabric.mod → t.vcMarks = s.vcMarks.filter (fun m => !(m.fjob == fjob && m.group == n))
            ∧ ∃ e, t.bindSent = s.bindSent ++ [e] ∧ e.msg.dest = g.memberOf 0 ∧ e.msg.ctl = .vcRelease fjob n (g.vc.getD 0))
          ∧ (s.pass dt).answered t w .done 0 0
          ∧ (s.pass dt).only t [.windows, .works, .jobs, .vcMarks, .rowan, .binds, .remotes, .links, .ports, .fabric, .itemMaps, .fetched,
              .hostMemory]))

/-- The messages of a binding: a request is recorded while members are missing; a mark is taken on a number that is free here and refused on
one another group holds; a query is answered with the numbers free here; a withdrawal frees a mark; an outcome binds the group on the
member that waits; an answer to a query or a mark is recorded while others are missing, and a mark taken for no binding in progress is
returned; requests still missing 10 ms after the first end the binding (R305, R306). 10 ms after the first request a binding that misses
requests ends; before that, or with every request there, nothing happens (R305). -/
def Obligations.BindingMessagesAreTaken : Prop :=
  (∀ (s : State) (dt : Nat) (d : Delivered) (ds : List Delivered), s.delivered = d :: ds → s.stores = [] →
    (∀ r, d.msg.ctl = .bindReq r → s.binding r.fjob r.group = none → r.members.any (fun m => m != d.msg.src) = true →
      ∃ t, exec (.bindRequest dt) s = .next t ∧ t.delivered = ds
        ∧ t.binds = s.binds ++ [{ fjob := r.fjob, slot := (s.slotOf r.fjob).getD 4, group := r.group, reqs := [(d.msg.src, r)], firstAt := d.stamp }]
        ∧ (s.pass dt).only t [.delivered, .binds])
    ∧ (∀ fjob g vc weight, d.msg.ctl = .vcMark fjob g vc weight → (s.slotOf fjob).isSome = true →
      ∃ t, exec (.bindMark dt) s = .next t ∧ t.delivered = ds
        ∧ (s.vcMarks.any (fun m => m.vc == vc) = false →
            t.vcMarks = s.vcMarks ++ [{ vc := vc, fjob := fjob, group := g, weight := weight }])
        ∧ (s.vcMarks.any (fun m => m.vc == vc) = true → t.vcMarks = s.vcMarks)
        ∧ (∃ e, t.bindSent = s.bindSent ++ [e] ∧ e.msg.dest = d.msg.src ∧ e.msg.ctl = .vcMarked fjob g vc
            (!(s.vcMarks.any fun m => m.vc == vc) || s.vcMarks.any fun m => m.vc == vc && m.fjob == fjob && m.group == g))
        ∧ (s.pass dt).only t [.delivered, .vcMarks, .binds, .remotes, .links, .ports, .fabric])
    ∧ (∀ fjob g, d.msg.ctl = .vcQuery fjob g → ∃ t, exec (.bindMark dt) s = .next t ∧ t.delivered = ds
        ∧ (∃ e, t.bindSent = s.bindSent ++ [e] ∧ e.msg.dest = d.msg.src ∧ e.msg.ctl = .vcFree fjob g (s.freeVcs fjob))
        ∧ (s.pass dt).only t [.delivered, .binds, .remotes, .links, .ports, .fabric])
    ∧ (∀ fjob g free b m, d.msg.ctl = .vcFree fjob g free → s.binding fjob g = some b → m ∈ b.toMark → m ≠ d.msg.src →
        (∀ f ∈ b.frees, f.1 ≠ m) → ∃ t, exec (.markReply dt) s = .next t ∧ t.delivered = ds
        ∧ t.binds = updFirst (fun c => c.fjob == fjob && c.group == g && !c.done)
            (fun c => { c with frees := c.frees.filter (fun f => f.1 != d.msg.src) ++ [(d.msg.src, free)] }) s.binds
        ∧ (s.pass dt).only t [.delivered, .binds])
    ∧ (∀ fjob g vc b m, d.msg.ctl = .vcMarked fjob g vc true → s.binding fjob g = some b → b.trying = some vc → b.tried.contains vc = false →
        m ∈ b.toMark → m ≠ d.msg.src → m ∉ b.marked → ∃ t, exec (.markReply dt) s = .next t ∧ t.delivered = ds
        ∧ t.binds = updFirst (fun c => c.fjob == fjob && c.group == g && !c.done) (fun c => { c with marked := c.marked ++ [d.msg.src] }) s.binds
        ∧ (s.pass dt).only t [.delivered, .binds])
    ∧ (∀ fjob g vc, d.msg.ctl = .vcWithdraw fjob g vc → ∃ t, exec (.bindMark dt) s = .next t ∧ t.delivered = ds
        ∧ t.vcMarks = s.vcMarks.filter (fun m => !(m.fjob == fjob && m.group == g && (vc == 0 || m.vc == vc)))
        ∧ (s.pass dt).only t [.delivered, .vcMarks])
    ∧ (∀ fjob g vc j w, d.msg.ctl = .bindOut fjob g 0 0 vc → s.slotOf fjob = some j → s.pendingBind j g = some w → s.work w.pid = some w →
        s.group j g = none →
        ∃ t, exec (.bindOutcome dt) s = .next t ∧ t.delivered = ds
          ∧ t.job j = { s.job j with groups := (s.job j).groups ++ [w.pkt.newGroup (if vc = 0 then none else some vc)] }
          ∧ s.sameSlots t j ∧ (s.pass dt).answered t w .done 0 vc
          ∧ (s.pass dt).only t [.delivered, .windows, .works, .jobs, .itemMaps, .fetched, .hostMemory])
    ∧ (∀ fjob g vc, d.msg.ctl = .vcMarked fjob g vc true → s.binding fjob g = none →
        ∃ t, exec (.markReply dt) s = .next t ∧ t.delivered = ds
          ∧ (∃ e, t.bindSent = s.bindSent ++ [e] ∧ e.msg.dest = d.msg.src ∧ e.msg.ctl = .vcWithdraw fjob g vc)
          ∧ (s.pass dt).only t [.delivered, .binds, .remotes, .links, .ports, .fabric])) ∧
  (∀ (s : State) (dt j g : Nat) (b : BindCo), j < 4 → s.stores = [] → s.binding (s.job j).fjob g = some b →
    ((s.pass dt).ftNow < b.firstAt + 10000000 → ∃ t, exec (.bindTimeout dt j g) s = .next t ∧ (s.pass dt).only t [])
    ∧ (∀ r rs, (s.job j).opened = true → b.reqs = r :: rs → r.2.members.any (fun m => !b.reqs.any fun q => q.1 == m) = true →
        b.firstAt + 10000000 ≤ (s.pass dt).ftNow →
        ∃ t, exec (.bindTimeout dt j g) s = .next t
          ∧ t.binds = dropFirst (fun c => c.fjob == b.fjob && c.group == b.group && !c.done) s.binds
          ∧ (∀ q ∈ b.reqs, q.1 ≠ s.fabric.mod →
              ∃ e ∈ t.bindSent, e.msg.dest = q.1 ∧ e.msg.ctl = .bindOut b.fjob b.group 0x12 0x0161 0)))

/-- The packets that write a result and reply, their result going to host memory (RES_HOST 1): the result bytes are posted first, the reply
after them, and the work ends (R63, R67, R71, R361, R408, R478, R527, R528). The packets that write a result and reply, their result going
to memory (RES_HOST 0): the bytes are written as a write of the control processor at the global address, and what that write met decides
the reply (R67, R71, R209, R241). -/
def Obligations.ResultsAreWritten : Prop :=
  (∀ (s : State) (dt pid : Nat) (w : Work), w.pkt.resHost = true → w.tags = [] → w.outs = [] →
    let s1 := s.pass dt
    let told (t : State) (a : Word) (bytes : List Byte) (result : Nat) : Prop :=
      (s1.post a.toNat bytes).answered t w .done 0 result
    let ps : List Part := [.windows, .works, .itemMaps, .fetched, .hostMemory]
    (s.handed pid [0x00] = some w → ∃ t, exec (.identify dt pid) s = .next t
      ∧ told t (w.pkt.par 0) (((List.range 64).map fun i => s1.regValue (8 * i)).flatMap wordBytes) s1.coresInService
      ∧ (s.stores = [] → s1.only t ps))
    ∧ (s.handed pid [0x01] = some w → ∃ t, exec (.status dt pid) s = .next t
      ∧ told t (w.pkt.par 0) (((List.range 64).map fun i => s1.regValue (0x200 + 8 * i)).flatMap wordBytes) s1.ft.state.code
      ∧ (s.stores = [] → s1.only t ps))
    ∧ (s.handed pid [0x02] = some w → ∃ t, exec (.queryCaps dt pid) s = .next t
      ∧ told t (w.pkt.par 0) ((if w.pkt.par 1 = 0 then (List.range 8).map fun i => s1.regValue (0x100 + 8 * i) else List.replicate 8 0).flatMap
          wordBytes) 1
      ∧ (s.stores = [] → s1.only t ps))
    ∧ (s.handed pid [0x91] = some w → ∃ t, exec (.historyRead dt pid) s = .next t
      ∧ told t (w.pkt.par 1) ((s1.historyRecords (w.pkt.par 0)).flatMap fun r => r.flatMap wordBytes) (s1.historyRecords (w.pkt.par 0)).length
      ∧ (s.stores = [] → s1.only t ps))
    ∧ (∀ j, s.handed pid [0x75] = some w → w.slot = some j → ∃ t, exec (.generationQuery dt pid) s = .next t
      ∧ (let r := (s.job j).stepRecord (w.pkt.par 0).toNat
         told t (w.pkt.par 1) ([wd r.step, wd (at_ r.raised 8 0 + at_ r.status 8 8), wd r.ft, wd r.gen].flatMap wordBytes) r.raised)
      ∧ (s.stores = [] → s1.only t ps))
    ∧ (s.handed pid [0xA0] = some w → s.sec.error = false → ∃ t, exec (.attest dt pid) s = .next t
      ∧ (let r := (s1.spdm w.pkt.attestReq (.attest w.pkt.window)).1
         told t (w.pkt.par 0) r r.length)
      ∧ (s.stores = [] → s1.only t (.sec :: ps)))
    ∧ (∀ j, s.handed pid [0x73] = some w → w.pkt.plAction = 3 → w.slot = some j → ∃ t, exec (.placementQuery dt pid) s = .next t
      ∧ (w.pkt.plKind = 0x21 →
          let bytes := [wd (0x21 + at_ j 2 8 + at_ 512 32 32), wd (s1.available j false).length, wd s1.ftNow, 0].flatMap wordBytes
            ++ (List.range 512).map fun g => BitVec.ofNat 8 (s1.coreEntry j g)
          told t (w.pkt.par 3) bytes bytes.length)
      ∧ (w.pkt.plKind = 0x22 →
          let rs := (s.job j).rules
          let bytes := [wd (0x22 + at_ j 2 8 + at_ rs.length 32 32), wd rs.length, wd s1.ftNow, 0].flatMap wordBytes
            ++ rs.flatMap fun r => wordBytes (wd (at_ r.action 4 0 + at_ r.kind 8 4 + at_ r.handle 32 32)) ++ wordBytes (wd r.target)
          told t (w.pkt.par 3) bytes bytes.length)
      ∧ (w.pkt.plKind = 0x23 →
          let is := (s1.itemsOf j (w.pkt.par 1)).getD []
          let es := (is.drop (fld (w.pkt.par 2) 0 32)).take (fld (w.pkt.par 2) 32 16)
          let bytes := [wd (0x23 + at_ j 2 8 + at_ es.length 32 32), wd is.length, wd s1.ftNow, 0].flatMap wordBytes
            ++ es.flatMap fun i => natBytes 4 i.entry
          told t (w.pkt.par 3) bytes bytes.length)
      ∧ (∀ u, w.pkt.plKind = 0x20 → s1.tensorKept j (w.pkt.par 1) = some u → u.spill = none →
          let n := min (fld (w.pkt.par 2) 32 16) (u.pages - fld (w.pkt.par 2) 0 32)
          let yields := (List.range u.pages).any fun i =>
            (s1.pageEntry u.tile (u.page + i)).backed && (s.job j).tensorForbids u.num (s1.pageEntry u.tile (u.page + i)).tile
          let bytes := [wd (0x20 + at_ j 2 8 + at_ n 32 32), u.base, wd s1.ftNow, wd (s1.stagedMask u + flag yields 32)].flatMap wordBytes
            ++ (List.range n).flatMap fun i => natBytes 4 (s1.pageEntry u.tile (u.page + fld (w.pkt.par 2) 0 32 + i)).bits
          told t (w.pkt.par 3) bytes bytes.length))) ∧
  (∀ (s : State) (dt pid : Nat) (w : Work), w.pkt.resHost = false →
    let s1 := s.pass dt
    let wrote (u : State) (a : Word) (bytes : List Byte) (result : Nat) : State :=
      s1.land (((u.finishMoves.globalWrite (u.ctl w) (some pid) a (bytes.map fun b => some (b, false)) (bytes.length / 4096 + 2)).modWork pid
        fun v => { v with result := result }).finishRemote pid)
    (s.handed pid [0x00] = some w → exec (.identify dt pid) s = .next
      (wrote s1 (w.pkt.par 0) (((List.range 64).map fun i => s1.regValue (8 * i)).flatMap wordBytes) s1.coresInService))
    ∧ (s.handed pid [0x01] = some w → exec (.status dt pid) s = .next
      (wrote s1 (w.pkt.par 0) (((List.range 64).map fun i => s1.regValue (0x200 + 8 * i)).flatMap wordBytes) s1.ft.state.code))
    ∧ (s.handed pid [0x02] = some w → exec (.queryCaps dt pid) s = .next
      (wrote s1 (w.pkt.par 0) ((if w.pkt.par 1 = 0 then (List.range 8).map fun i => s1.regValue (0x100 + 8 * i) else List.replicate 8 0).flatMap
          wordBytes) 1))
    ∧ (s.handed pid [0x91] = some w → exec (.historyRead dt pid) s = .next
      (wrote s1 (w.pkt.par 1) ((s1.historyRecords (w.pkt.par 0)).flatMap fun r => r.flatMap wordBytes) (s1.historyRecords (w.pkt.par 0)).length))
    ∧ (∀ j, s.handed pid [0x75] = some w → w.slot = some j → exec (.generationQuery dt pid) s = .next
      (let r := (s.job j).stepRecord (w.pkt.par 0).toNat
       wrote s1 (w.pkt.par 1) ([wd r.step, wd (at_ r.raised 8 0 + at_ r.status 8 8), wd r.ft, wd r.gen].flatMap wordBytes) r.raised))
    ∧ (s.handed pid [0xA0] = some w → s.sec.error = false → exec (.attest dt pid) s = .next
      (let q := s1.spdm w.pkt.attestReq (.attest w.pkt.window)
       wrote q.2 (w.pkt.par 0) q.1 q.1.length))
    ∧ (∀ j, s.handed pid [0x73] = some w → w.pkt.plAction = 3 → w.slot = some j →
      (∀ u, w.pkt.plKind = 0x20 → s1.tensorKept j (w.pkt.par 1) = some u → u.spill = none →
        exec (.placementQuery dt pid) s = .next
          (let n := min (fld (w.pkt.par 2) 32 16) (u.pages - fld (w.pkt.par 2) 0 32)
           let yields := (List.range u.pages).any fun i =>
             (s1.pageEntry u.tile (u.page + i)).backed && (s.job j).tensorForbids u.num (s1.pageEntry u.tile (u.page + i)).tile
           let bytes := [wd (0x20 + at_ j 2 8 + at_ n 32 32), u.base, wd s1.ftNow, wd (s1.stagedMask u + flag yields 32)].flatMap wordBytes
             ++ (List.range n).flatMap fun i => natBytes 4 (s1.pageEntry u.tile (u.page + fld (w.pkt.par 2) 0 32 + i)).bits
           wrote s1 (w.pkt.par 3) bytes bytes.length))
      ∧ (w.pkt.plKind = 0x21 → exec (.placementQuery dt pid) s = .next
          (let bytes := [wd (0x21 + at_ j 2 8 + at_ 512 32 32), wd (s1.available j false).length, wd s1.ftNow, 0].flatMap wordBytes
             ++ (List.range 512).map fun g => BitVec.ofNat 8 (s1.coreEntry j g)
           wrote s1 (w.pkt.par 3) bytes bytes.length))
      ∧ (w.pkt.plKind = 0x22 → exec (.placementQuery dt pid) s = .next
          (let rs := (s.job j).rules
           let bytes := [wd (0x22 + at_ j 2 8 + at_ rs.length 32 32), wd rs.length, wd s1.ftNow, 0].flatMap wordBytes
             ++ rs.flatMap fun r => wordBytes (wd (at_ r.action 4 0 + at_ r.kind 8 4 + at_ r.handle 32 32)) ++ wordBytes (wd r.target)
           wrote s1 (w.pkt.par 3) bytes bytes.length))
      ∧ (w.pkt.plKind = 0x23 → exec (.placementQuery dt pid) s = .next
          (let is := (s1.itemsOf j (w.pkt.par 1)).getD []
           let es := (is.drop (fld (w.pkt.par 2) 0 32)).take (fld (w.pkt.par 2) 32 16)
           let bytes := [wd (0x23 + at_ j 2 8 + at_ es.length 32 32), wd is.length, wd s1.ftNow, 0].flatMap wordBytes
             ++ es.flatMap fun i => natBytes 4 i.entry
           wrote s1 (w.pkt.par 3) bytes bytes.length))))

/-- The capability page: its two words of limits and six words of 0; QUERY_CAPS with P1 0 writes it, with P1 not 0 writes 64 zero bytes, and
its RESULT is 1 either way (R527). -/
def Obligations.CapabilityPage : Prop :=
  (∀ s : State, s.regValue 0x100 = wd (4 + at_ 64 8 8 + at_ 64 8 16 + at_ 20 8 24 + at_ 64 8 32 + at_ 3 8 40 + at_ 256 16 48)
    ∧ s.regValue 0x108 = wd (256 + at_ 256 16 16 + at_ 256 16 32 + at_ 1024 16 48)
    ∧ ∀ k, 2 ≤ k → k < 32 → s.regValue (0x100 + 8 * k) = 0)
  ∧ ∀ (s : State) (dt pid : Nat) (w : Work), s.handed pid [0x02] = some w → w.pkt.resHost = true → w.tags = [] → w.outs = [] →
      ∃ t, exec (.queryCaps dt pid) s = .next t
        ∧ (w.pkt.par 1 = 0 →
            ((s.pass dt).post (w.pkt.par 0).toNat (((List.range 8).map fun i => (s.pass dt).regValue (0x100 + 8 * i)).flatMap wordBytes)).answered
              t w .done 0 1)
        ∧ (w.pkt.par 1 ≠ 0 → ((s.pass dt).post (w.pkt.par 0).toNat (List.replicate 64 0)).answered t w .done 0 1)

/-- Enabling and disabling a command window: a device-memory ring starts at slot 0 with phase 1 and its ring all zero, a host ring needs a
poll interval of 1 to 1,000 µs or sets CFG_ERR, a window that is enabled is not enabled again, and disabling discards what was found and
not dispatched and ends the window's session (R64 to R66, R480). The host's acknowledgement of replies: an index no further than the tail
is taken, any other sets ACK_ERR (R62). -/
def Obligations.WindowRegistersAct : Prop :=
  (∀ (s : State) (dt w : Nat) (v : Word), w < 64 → s.boot.powered = true → s.boot.inReset = false → s.registersRun = true → s.boot.sloe = false →
    s.regAllowed { master := mHost } (0x11000 + w * 0x40) .write = true → s.Inv →
    let x := vget s.windows w
    let fresh (h : Bool) (p : Nat) : Window :=
      { x with ringInHost := h, pollUs := p, enable := true, head := 0, headPhase := true, nextSeq := 0, tail := 0, tailPhase := true, ack := 0
               seqErr := 0, replyFull := false, found := none, queue := [] }
    (x.enable = false → bitOf v 1 = false → ∃ t, exec (.cmdwEnable dt w v) s = .next t
      ∧ vget t.windows w = fresh false (fld v 16 10) ∧ s.sameWindows t w
      ∧ (∀ a, cellGet t.mem a = if 10 * ringKey w ≤ a ∧ a < 10 * (ringKey w + 32768) then 0 else cellGet s.mem a)
      ∧ (s.pass dt).only t [.windows, .memory])
    ∧ (x.enable = false → bitOf v 1 = true → 1 ≤ fld v 16 10 → fld v 16 10 ≤ 1000 → ∃ t, exec (.cmdwEnable dt w v) s = .next t
      ∧ vget t.windows w = fresh true (fld v 16 10) ∧ s.sameWindows t w ∧ (s.pass dt).only t [.windows])
    ∧ (x.enable = false → bitOf v 1 = true → fld v 16 10 = 0 ∨ 1000 < fld v 16 10 → ∃ t, exec (.cmdwEnable dt w v) s = .next t
      ∧ vget t.windows w = { x with ringInHost := true, pollUs := fld v 16 10, cfgErr := true } ∧ s.sameWindows t w
      ∧ (s.pass dt).only t [.windows])
    ∧ (x.enable = true → ∃ t, exec (.cmdwEnable dt w v) s = .next t ∧ (s.pass dt).only t [])
    ∧ (x.enable = true → ∃ t, exec (.cmdwDisable dt w) s = .next t
      ∧ vget t.windows w = { x with enable := false, found := none, queue := [], replyFull := false } ∧ s.sameWindows t w
      ∧ t.sec = { s.sec with sessions := s.sec.sessions.filter fun y => y.via != .attest w } ∧ (s.pass dt).only t [.windows, .sec])) ∧
  (∀ (s : State) (dt w i : Nat), w < 64 → i < 4096 → s.boot.powered = true → s.boot.inReset = false → s.registersRun = true →
    s.regAllowed { master := mHost } (0x11000 + w * 0x40 + 0x28) .write = true → s.stores = [] →
    ∃ t, exec (.cmdwReplyAck dt w i) s = .next t
      ∧ (let x := vget s.windows w
         ((i + 4096 - x.ack) % 4096 ≤ (x.tail + 4096 - x.ack) % 4096 →
            (vget t.windows w).ack = i ∧ { vget t.windows w with ack := x.ack, replyFull := x.replyFull } = x)
         ∧ ((x.tail + 4096 - x.ack) % 4096 < (i + 4096 - x.ack) % 4096 → vget t.windows w = { x with ackErr := true }))
      ∧ s.sameWindows t w ∧ (s.pass dt).only t [.windows])

/-- Register writes: a backup register takes the word; a phase period of a multiple of 10,000 ns from 10,000 to 1,000,000 is taken while no
job is open and refused otherwise; a refused field leaves the whole register; MERR_STATUS bits clear on a written 1; a write that the
access table does not allow is not performed and is logged with KIND 5; an unassigned offset takes nothing; a reservation that fits its
port is taken (R235, R237, R295, R463, R487, R524, R530). A 4-byte read of FT_NOW returns its low half and latches its high half, and the
host's 4-byte read of the high half returns what was latched (R29, R522). -/
def Obligations.RegisterAccesses : Prop :=
  (∀ (s : State) (dt : Nat) (v : Word), s.boot.powered = true → s.boot.inReset = false → s.registersRun = true → s.stores = [] →
    (∀ k, k < 16 → s.regAllowed { master := mHost } (0x20100 + 8 * k) .write = true →
      ∃ t, exec (.registerWrite dt mHost (0x20100 + 8 * k) 8 v) s = .next t
        ∧ vget t.boot.bkp k = v ∧ { t.boot with bkp := s.boot.bkp } = s.boot ∧ (s.pass dt).only t [.boot])
    ∧ (s.regAllowed { master := mHost } 0x30018 .write = true →
      ∃ t, exec (.registerWrite dt mHost 0x30018 8 v) s = .next t
        ∧ (let p := fld v 0 20
           t.ft.phasePeriod = if s.anyOpen = true ∨ p % 10000 ≠ 0 ∨ p < 10000 ∨ 1000000 < p then s.ft.phasePeriod else p)
        ∧ { t.ft with phasePeriod := s.ft.phasePeriod } = s.ft.pass dt ∧ (s.pass dt).only t [.ft])
    ∧ (s.regAllowed { master := mHost } 0x50800 .write = true →
      ∃ t, exec (.registerWrite dt mHost 0x50800 8 v) s = .next t
        ∧ t.memErr = { s.memErr with ueSeen := s.memErr.ueSeen && !bitOf v 0, overflow := s.memErr.overflow && !bitOf v 1 }
        ∧ (s.pass dt).only t [.memErr])
    ∧ (∀ m off, off < 0x1000000 → off % 8 = 0 → s.regAllowed { master := m } off .write = false →
      ∃ t, exec (.registerWrite dt m off 8 v) s = .next t
        ∧ t.memErr = s.memErr.push (({ kind := 5, memory := 6, addr := wd (at_ 2 4 60 + at_ s.fabric.mod 12 48 + at_ off 24 0), bit0 := 0x7F
                                       bit1 := 0x7F, ft := (s.pass dt).ftNow } : LogRec).by_ { master := m })
        ∧ (s.pass dt).only t [.memErr])
    ∧ (∀ m off, 0x300000 ≤ off → off < 0x1000000 → off % 8 = 0 → s.regAllowed { master := m } off .write = true →
      ∃ t, exec (.registerWrite dt m off 8 v) s = .next t ∧ (s.pass dt).only t [])
    ∧ (∀ m i k, i < 64 → k < 2 → s.regAllowed { master := m } (0x9A000 + i * 0x10 + k * 8) .write = true →
      ∃ t, exec (.reservationWrite dt m i k v) s = .next t
        ∧ (let r := (vget s.fabric.res i).written k v
           let f := { s.fabric with res := vset s.fabric.res i r }
           if r.valid = true ∧ s.portUnits r.outPort < f.reserved r.outPort then t.fabric = { s.fabric with resErr := true }
           else t.fabric = f)
        ∧ (s.pass dt).only t [.fabric])) ∧
  (∀ (s : State) (dt : Nat), s.boot.powered = true → s.boot.inReset = false → s.boot.bringupDone = true → s.boot.sloe = false → s.stores = [] →
    (∃ t, exec (.ftNowLowRead dt) s = .next t
      ∧ t.cxl.lastReg = wd ((s.pass dt).ftNow % 2 ^ 32) ∧ t.ft.highLatch = (s.pass dt).ftNow / 2 ^ 32
      ∧ { t.ft with highLatch := s.ft.highLatch } = s.ft.pass dt ∧ (s.pass dt).only t [.ft, .hostLink])
    ∧ (∀ fjob slot seq a, s.addrKind a = .reg s.fabric.mod 0x30004 → s.registersRun = true →
        s.regAllowed { master := mHost } 0x30000 .read = true →
        ∃ t, exec (.memoryRead dt (.own mHost fjob slot seq) a 4) s = .next t
          ∧ t.lastData = [(wd s.ft.highLatch, false)] ∧ t.cxl.lastReg = wd s.ft.highLatch ∧ (s.pass dt).only t [.lastData, .hostLink]))

/-- The host's accesses of device memory: a read outside the regions, or one that an access table denies, returns zeros with CXL poison; a
write outside them is dropped and logged with KIND 8, a denied one with KIND 5; an allowed access takes place once no page moves: a read
returns the eight words of the line, with CXL poison where one is poisoned, and changes nothing else where every word is sound, and a
write stores eight words with poison 0 (R202, R204, R205, R225, R237). -/
def Obligations.HostAccesses : Prop :=
  ∀ (s : State) (dt off : Nat) (line : List Byte), off < 2 ^ 40 → s.boot.powered = true → s.boot.inReset = false → s.cxl.linkUp = true →
    s.registersRun = true → s.Inv →
    let o := off / 64 * 64
    let v := s.pass dt
    let u := v.finishMoves
    let x : OpCtx := { master := mHost }
    (hdmPlace o = none →
      (∃ t, exec (.hostMemRead dt off) s = .next t ∧ t.cxl.lastRead = List.replicate 64 0 ∧ t.cxl.lastPoison = true ∧ v.only t [.hostLink])
      ∧ (∃ t, exec (.hostMemWrite dt off line) s = .next t ∧ t.memErr = (v.logHost 8 o).memErr ∧ v.only t [.memErr]))
    ∧ (∀ tile p ring, hdmPlace o = some (tile, p, ring) →
      (v.opCheck x .read tile p = .denied →
        ∃ t, exec (.hostMemRead dt off) s = .next t ∧ t.cxl.lastRead = List.replicate 64 0 ∧ t.cxl.lastPoison = true
          ∧ t.memErr = (v.logHost 5 o).memErr ∧ v.only t [.hostLink, .memErr])
      ∧ (v.opCheck x .read tile p = .unbacked →
        ∃ t, exec (.hostMemRead dt off) s = .next t ∧ t.cxl.lastRead = List.replicate 64 0 ∧ t.cxl.lastPoison = true ∧ v.only t [.hostLink])
      ∧ (v.opCheck x .read tile p = .ok →
        ∃ t, exec (.hostMemRead dt off) s = .next t
          ∧ t.cxl.lastRead = ((u.readWords tile p x 8).1.flatMap fun w => wordBytes w.1)
          ∧ t.cxl.lastPoison = (u.readWords tile p x 8).1.any Prod.snd
          ∧ (s.moves = [] → (∀ i q, i < 8 → v.resolve tile (p + 8 * i) = some q → eccCheck (v.storedCw q) = .clean) → v.only t [.hostLink]))
      ∧ (v.opCheck x .write tile p = .denied →
        ∃ t, exec (.hostMemWrite dt off line) s = .next t ∧ t.memErr = (v.logHost 5 o).memErr ∧ v.only t [.memErr])
      ∧ (v.opCheck x .write tile p = .unbacked →
        ∃ t, exec (.hostMemWrite dt off line) s = .next t ∧ t.memErr = (v.logHost 8 o).memErr ∧ v.only t [.memErr])
      ∧ (v.opCheck x .write tile p = .ok → ring = none →
        ∃ t, exec (.hostMemWrite dt off line) s = .next t
          ∧ t = v.land (u.writeWords tile p ((bytesWords 8 line).map fun w => (w, false)))
          ∧ (s.moves = [] → v.only t [.memory, .staged, .gathered])))

/-- HEADER_WRITE of a window's device-memory ring stores the eight words of the slot, each with poison 0, and touches no other byte of memory.
Where the slot is the expected one of an enabled window that has found nothing, and its header has the expected phase, the window finds
the packet, stamped now; in every other case no window changes (R55, R56, R225). A poll of a host-memory ring at a multiple of its poll
interval finds the packet whose header has the expected phase and stamps it now, and finds none where the phase differs; between the
multiples there is no poll. Consuming a found packet without payload queues it, retires its slot with the phase of its lap, and moves the
head on; during a hand-over the packet stays in its ring (R25, R56, R57, R59, R536). -/
def Obligations.RingsAreWrittenAndRead : Prop :=
  (∀ (s : State) (dt w slot : Nat) (ws : List Word), w < 64 → slot < 4096 → ws.length = 8 → s.boot.powered = true → s.boot.inReset = false →
    s.cxl.linkUp = true → s.registersRun = true → s.Inv → s.moves = [] →
    let v := s.pass dt
    let x := vget s.windows w
    v.opCheck { master := mHost } .write (w % 32) (ringOff w + 64 * slot) = .ok →
    ∃ t, exec (.headerWrite dt w slot ws) s = .next t
      ∧ (∀ k, k < 8 → cellGetAll t.mem (10 * (ringKey w + 8 * slot + k)) 10 = natBytes 10 (encodeWord (lget ws k 0) false).toNat)
      ∧ (∀ a, a < 10 * (ringKey w + 8 * slot) ∨ 10 * (ringKey w + 8 * slot + 8) ≤ a → cellGet t.mem a = cellGet s.mem a)
      ∧ s.sameWindows t w
      ∧ (slot ≠ x.head → v.only t [.memory, .gathered])
      ∧ (v.opCheck (v.ringCtx w) .read (w % 32) (ringOff w + 64 * slot) = .ok →
        vget t.windows w =
          (if slot = x.head ∧ x.ringInHost = false ∧ x.enable = true ∧ s.serves w = true ∧ x.found = none ∧ bitOf (lget ws 0 0) 8 = x.headPhase
           then { x with found := some { window := w, hdr := ws, payload := [], stamp := v.ftNow } } else x)
        ∧ v.only t [.memory, .gathered, .windows])) ∧
  (∀ (s : State) (dt w : Nat) (hs : List (Nat × Byte)), w < 64 → s.stores = [] →
    let u := (s.hostStores hs).pass dt
    let x := vget s.windows w
    x.enable = true → u.serves w = true → x.ringInHost = true → s.cxlOpen = true →
    let h := bytesWords 8 (cellGetAll u.hostMem (x.ringAddr + 64 * x.head) 64)
    (x.found = none → u.onGrid (1000 * x.pollUs) = true → bitOf (lget h 0 0) 8 = x.headPhase →
      ∃ t, exec (.ringPoll dt w hs) s = .next t
        ∧ vget t.windows w = { x with found := some { window := w, hdr := h, payload := [], stamp := u.ftNow } } ∧ s.sameWindows t w
        ∧ u.only t [.windows])
    ∧ (x.found.isSome = true ∨ u.onGrid (1000 * x.pollUs) = false ∨ bitOf (lget h 0 0) 8 ≠ x.headPhase →
      ∃ t, exec (.ringPoll dt w hs) s = .next t ∧ u.only t [])
    ∧ (∀ p, x.found = some p → p.slots = 0 → x.head < 4096 → s.boot.handover = none →
      ∃ t, exec (.packetConsume dt w hs) s = .next t
        ∧ (vget t.windows w).queue = x.queue ++ [{ p with payload := [] }] ∧ (vget t.windows w).head = (x.head + 1) % 4096
        ∧ (vget t.windows w).headPhase = (if x.head = 4095 then !x.headPhase else x.headPhase)
        ∧ t.hostView = applyHostWrite u.hostView { addr := x.ringAddr + 64 * x.head, bytes := wordBytes (wd (flag x.headPhase 8)) }
        ∧ s.sameWindows t w ∧ u.only t [.windows, .hostMemory])
    ∧ (s.boot.handover.isSome = true ∨ x.found = none → ∃ t, exec (.packetConsume dt w hs) s = .next t ∧ u.only t []))

/-- Operations of this module's own masters on one aligned word here, whose page does not move, which the tables allow and whose stored
codeword checks clean: READ returns the word and its poison flag; WRITE stores the word with a fresh code; ATOMIC returns the old word and
stores the new one, poison kept save by SWAP; ACCUMULATE adds the lane modulo 2^64. Every other byte of memory keeps its value (R198,
R207, R208, R225, R227, R232). The four operations in every form: one of a master of this module reads or writes any run of bytes within a
4 KiB page, the words of a masked write merged; one at a moving page is held in its order and waits; one for another module is sent there
and awaits its response; and one that arrived is performed as its master, whether it may be or not, and answered (R198, R202, R207 to
R209, R276, R277). -/
def Obligations.OperationsAct : Prop :=
  (∀ (s : State) (dt m fjob slot seq t o : Nat) (a v w2 : Word) (k : AtomicOp) (p : Place), s.Inv → s.registersRun = true → ownMaster m = true →
    s.addrKind a = .here t o → o % 8 = 0 → a.toNat % 8 = 0 → s.moving t (o / 65536) = false → s.resolve t o = some p →
    (∀ h i, p = .shared h i → isMapWord i = false) →
    let src : OpSource := .own m fjob slot seq
    let x : OpCtx := { master := m, fjob := fjob, slot := slot, seq := seq }
    let c := s.readCw (placeKey p)
    let key := placeKey p
    let stored (u : State) (n : Codeword) : Prop :=
      cellGetAll u.mem (10 * key) 10 = natBytes 10 n.toNat
        ∧ ∀ b, b < 10 * key ∨ 10 * key + 10 ≤ b → cellGet u.mem b = cellGet s.mem b
    (s.opCheck x .read t o = .ok → eccCheck c = .clean →
      ∃ u, exec (.memoryRead dt src a 8) s = .next u ∧ u.lastData = [(cwData c, cwPoison c)] ∧ (s.pass dt).only u [.lastData, .access])
    ∧ (s.opCheck x .write t o = .ok →
      ∃ u, exec (.memoryWrite dt src a 8 [] [v]) s = .next u ∧ stored u (encodeWord v false)
        ∧ (s.pass dt).only u [.lastData, .access, .memory, .staged, .gathered])
    ∧ (s.opCheck x .atomic t o = .ok → eccCheck c = .clean →
      ∃ u, exec (.memoryAtomic dt src a k v w2) s = .next u ∧ u.lastData = [(cwData c, cwPoison c)]
        ∧ stored u (encodeWord (atomicNew k (cwData c) v w2) (cwPoison c && decide (k ≠ .swap)))
        ∧ (s.pass dt).only u [.lastData, .access, .memory, .staged, .gathered])
    ∧ (s.opCheck x .accumulate t o = .ok → eccCheck c = .clean →
      ∃ u, exec (.memoryAccumulate dt src a [v]) s = .next u ∧ stored u (encodeWord (cwData c + v) (cwPoison c))
        ∧ (s.pass dt).only u [.lastData, .access, .memory, .staged, .gathered])) ∧
  (∀ (s : State) (dt m fjob slot seq n : Nat) (a w1 w2 : Word) (k : AtomicOp) (mask data lanes : List Word), s.Inv → s.registersRun = true →
    let v := s.pass dt
    let src : OpSource := .own m fjob slot seq
    let x : OpCtx := { master := m, fjob := fjob, slot := slot, seq := seq }
    (∀ t o, ownMaster m = true → s.addrKind a = .here t o → s.moving t (o / 65536) = false →
      (spanOk o n = true → s.opCheck x .read t o = .ok →
        exec (.memoryRead dt src a n) s = .next (v.land
          (let r := (v.countAccess t o m).readWords t (o / 8 * 8) x ((o + n + 7) / 8 - o / 8)
           { r.2 with lastData := r.1 })))
      ∧ (let bs := maskedBytes a.toNat n (if mask.isEmpty then none else some mask) (data.map fun d => (d, false))
         spanOk o bs.length = true → s.opCheck x .write t o = .ok →
          ∃ u, exec (.memoryWrite dt src a n mask data) s = .next u ∧ u.lastData = []
            ∧ u = v.land { (v.countAccess t o m).putBytes t o bs x with lastData := [] }
            ∧ ∀ p, s.resolve t (o / 8 * 8) = some p → (∀ h i, p ≠ .shared h i) →
                (∀ i, i < (o + bs.length + 7) / 8 - o / 8 → eccCheck (s.readCw (placeKey p + i)) = .clean) →
                (∀ b, b < 10 * placeKey p ∨ 10 * (placeKey p + ((o + bs.length + 7) / 8 - o / 8)) ≤ b → cellGet u.mem b = cellGet s.mem b)
                ∧ v.only u [.lastData, .access, .memory, .staged, .gathered]))
    ∧ (∀ (t o : Nat) (mv : Move), ownMaster m = true → s.addrKind a = .here t o → o % 8 = 0 → o < 0x600000000 → s.moves = [mv] →
        mv.tile = t → mv.page = o / 65536 →
      ∀ i ∈ [Instr.memoryRead dt src a n, .memoryWrite dt src a n mask data, .memoryAtomic dt src a k w1 w2, .memoryAccumulate dt src a [w1]],
        ∃ u, exec i s = .next u ∧ u.moves = [{ mv with held := mv.held ++ [.own i] }] ∧ v.only u [.moves])
    ∧ (∀ mod t o, ownMaster m = true → s.addrKind a = .remote mod t o → spanOk (addrOff a) n = true →
      ∃ u, exec (.memoryRead dt src a n) s = .next u
        ∧ u.remotes = s.remotes ++ [{ tag := s.nextTag, pid := none, sent := v.ftNow, dst := none, hostDst := none
                                      msg := { s.blank .read (addrModule a) with vc := 2, job := fjob, master := m, tag := s.nextTag, word2 := a, len := n - 1 } }]
        ∧ u.nextTag = (s.nextTag + 1) % 2 ^ 28 ∧ v.only u [.remotes, .links, .ports, .fabric])
    ∧ (∀ mod t o, ownMaster m = true → s.addrKind a = .remote mod t o →
      (lanesOk (addrOff a) lanes.length = true →
        ∃ u r, exec (.memoryAccumulate dt src a lanes) s = .next u ∧ u.remotes = s.remotes ++ [r] ∧ r.msg.op = .accumulate
          ∧ r.msg.data = lanes.map (fun l => encodeWord l false) ∧ r.msg.word2 = a ∧ r.msg.dest = addrModule a
          ∧ v.only u [.remotes, .links, .ports, .fabric])
      ∧ (∃ u r, exec (.memoryAtomic dt src a k w1 w2) s = .next u ∧ u.remotes = s.remotes ++ [r] ∧ r.msg.op = .atomic
          ∧ r.msg.subop = atomicCode k ∧ r.msg.word2 = a ∧ r.msg.dest = addrModule a ∧ v.only u [.remotes, .links, .ports, .fabric]))
    ∧ (∀ (d : Delivered) (ds : List Delivered) (t o : Nat), s.delivered = d :: ds → s.addrKind d.msg.word2 = .here t o → s.moves = [] →
      let r := ({ v with delivered := ds } : State).reqHere (msgCtx v d.msg) t o d.msg.word2 (msgReq d.msg)
      let u := v.land (r.2.2.answerReq d.msg r.1 r.2.1)
      (d.msg.op = .read → exec (.memoryRead dt .arrived a n) s = .next u)
      ∧ (d.msg.op = .write → exec (.memoryWrite dt .arrived a n mask data) s = .next u)
      ∧ (d.msg.op = .atomic → exec (.memoryAtomic dt .arrived a k w1 w2) s = .next u)
      ∧ (d.msg.op = .accumulate → exec (.memoryAccumulate dt .arrived a lanes) s = .next u)))

/-- A write that covers all 8 bytes of a poisoned word clears the poison; one that covers only part of it leaves the poison set. The word lies
on this module, its page does not move, the tables allow the write, and it is poisoned as stored or once one or two wrong bits are put
right; the write is one of 8 bytes with a byte mask, or of fewer bytes from any byte of the word. -/
def Obligations.WritesOfPoisonedWords : Prop :=
  ∀ (s : State) (dt m fjob slot seq t o : Nat) (a v : Word) (p : Place), s.Inv → s.registersRun = true → ownMaster m = true →
    s.addrKind a = .here t o → o % 8 = 0 → a.toNat % 8 = 0 → s.moving t (o / 65536) = false → s.resolve t o = some p →
    (∀ h i, p = .shared h i → isMapWord i = false) →
    let src : OpSource := .own m fjob slot seq
    let x : OpCtx := { master := m, fjob := fjob, slot := slot, seq := seq }
    let c := s.readCw (placeKey p)
    let poisoned (u : State) : Bool := cwPoison (u.readCw (placeKey p))
    (eccCheck c = .clean ∧ cwPoison c = true ∨ ∃ bs, eccCheck c = .corrected bs ∧ cwPoison (flipBits c bs) = true) →
    (s.opCheck x .write t o = .ok →
      (∃ u, exec (.memoryWrite dt src a 8 [] [v]) s = .next u ∧ poisoned u = false)
      ∧ ∀ k : Word,
        (k.toNat % 256 = 255 → ∃ u, exec (.memoryWrite dt src a 8 [k] [v]) s = .next u ∧ poisoned u = false)
        ∧ (k.toNat % 256 ≠ 255 → k.toNat % 256 ≠ 0 → ∃ u, exec (.memoryWrite dt src a 8 [k] [v]) s = .next u ∧ poisoned u = true))
    ∧ (∀ b n, 0 < n → n < 8 → b + n ≤ 8 → s.addrKind (a + BitVec.ofNat 64 b) = .here t (o + b) →
        s.moving t ((o + b) / 65536) = false → s.opCheck x .write t (o + b) = .ok →
        ∃ u, exec (.memoryWrite dt src (a + BitVec.ofNat 64 b) n [] [v]) s = .next u ∧ poisoned u = true)

/-- Operations of this module's own masters that the tables deny, or whose address names no place: nothing is read or stored, and one record
is logged, KIND 5 for a denial and KIND 8 for an address that backs nothing (R198, R209, R237). -/
def Obligations.DeniedOperationsAreLogged : Prop :=
  ∀ (s : State) (dt m fjob slot seq t o : Nat) (a v w2 : Word) (k : AtomicOp), s.stores = [] → s.registersRun = true → ownMaster m = true →
    s.addrKind a = .here t o → o % 8 = 0 → a.toNat % 8 = 0 → s.moving t (o / 65536) = false →
    let src : OpSource := .own m fjob slot seq
    let x : OpCtx := { master := m, fjob := fjob, slot := slot, seq := seq }
    let logged (u : State) (r : OpRes) : Prop :=
      u.memErr = ((s.pass dt).logFault x (if r = .denied then 5 else 8) t o a).memErr ∧ (s.pass dt).only u [.memErr]
    (s.opCheck x .read t o ≠ .ok → ∃ u, exec (.memoryRead dt src a 8) s = .next u ∧ logged u (s.opCheck x .read t o))
    ∧ (s.opCheck x .write t o ≠ .ok → ∃ u, exec (.memoryWrite dt src a 8 [] [v]) s = .next u ∧ logged u (s.opCheck x .write t o))
    ∧ (s.opCheck x .atomic t o ≠ .ok → ∃ u, exec (.memoryAtomic dt src a k v w2) s = .next u ∧ logged u (s.opCheck x .atomic t o))
    ∧ (s.opCheck x .accumulate t o ≠ .ok →
        ∃ u, exec (.memoryAccumulate dt src a [v]) s = .next u ∧ logged u (s.opCheck x .accumulate t o))

/-- The scrubber: a clean word is left; a correctable one is stored corrected and counted; an uncorrectable one is stored poisoned with a
fresh code, its data bits as read, and counted. No byte of another word changes (R226, R228, R233, R236). A page move starts for a page
whose physical page is retired, that a forbid excludes or that the placer rebalances, to a physical page that is free and on a tile that
no forbid excludes, and puts no page in two places; otherwise none starts. When its copy is done the page map names the new place, the new
place holds every word of the old one, and where the page that it left is retired KIND 6 and KIND 7 are logged (R201, R202, R237, R239,
R240, R257). -/
def Obligations.ScrubbedWordsAndMovedPages : Prop :=
  (∀ (s : State) (dt : Nat) (p : Place) (a : Word), s.Inv → s.registersRun = true → s.memErr.scrubEn = true → placeOk p = true →
    (∀ t w, p = .shared t w → isMapWord w = false) → s.placeAddr p = some a →
    let c := s.readCw (placeKey p)
    let stored (u : State) (n : Codeword) : Prop :=
      cellGetAll u.mem (10 * placeKey p) 10 = natBytes 10 n.toNat
        ∧ ∀ b, b < 10 * placeKey p ∨ 10 * placeKey p + 10 ≤ b → cellGet u.mem b = cellGet s.mem b
    (eccCheck c = .clean → ∃ u, exec (.scrub dt p) s = .next u ∧ (s.pass dt).only u [])
    ∧ (∀ bs, s.memErr.logCe = false → eccCheck c = .corrected bs → ∃ u, exec (.scrub dt p) s = .next u ∧ stored u (flipBits c bs)
        ∧ u.memErr = { s.memErr with ce := satInc 32 s.memErr.ce } ∧ (s.pass dt).only u [.memory, .memErr])
    ∧ (∀ t w, p = .shared t w → eccCheck c = .uncorrectable → ∃ u, exec (.scrub dt p) s = .next u ∧ stored u (encodeWord (cwData c) true)
        ∧ u.memErr.ue = satInc 32 s.memErr.ue ∧ (s.pass dt).only u [.memory, .memErr])) ∧
  ((∀ (s : State) (dt t l u c p : Nat) (why : MoveCause), t < 32 → s.stores = [] → (s.pageEntry t l).backed = true →
    s.moving t l = false → s.physFree u c p = true → s.moveCause t l u = some why → s.pageForbidden t l u = false →
    ∃ n, exec (.pageMove dt t l u c p) s = .next n
      ∧ n.moves = s.moves ++ [{ tile := t, page := l, toTile := u, toChan := c, toPage := p, cause := why }]
      ∧ n.pageMap = s.pageMap ∧ n.deferred = n.waitingMoves.drop n.freePages ∧ (s.pass dt).only n [.moves, .pageMap])
  ∧ (∀ (s : State) (dt t l u c p : Nat), t < 32 → s.stores = [] →
    (s.physFree u c p = false ∨ (s.pageEntry t l).backed = false ∨ s.moving t l = true ∨ s.moveCause t l u = none
      ∨ (s.pageForbidden t l u = true ∧ s.moveCause t l u ≠ some .retire)) →
    ∃ n, exec (.pageMove dt t l u c p) s = .next n ∧ (s.pass dt).only n [])
  ∧ (∀ (s : State) (dt t l : Nat) (m : Move), t < 32 → s.Inv → s.moves = [m] → m.tile = t → m.page = l → m.held = [] →
    (s.pageMap.map Prod.fst).Pairwise (· < ·) →
    let e := s.pageEntry t l
    let k := placeKey (.dram e.tile e.channel e.page 0)
    let k' := placeKey (.dram m.toTile m.toChan m.toPage 0)
    let off (w b : Nat) : Prop := b < 10 * w ∨ 10 * w + 10 ≤ b
    let r : LogRec := { kind := 6, tile := e.tile, channel := e.channel, page := e.page, job := 15, master := mTranspose t
                        addr := s.wordAddr t (l * 65536), bit0 := 0x7F, bit1 := 0x7F, ft := (s.pass dt).ftNow }
    e.backed = true → (e.tile, e.channel, e.page) ≠ (m.toTile, m.toChan, m.toPage) → k + 8192 ≤ k' ∨ k' + 8192 ≤ k →
    (∀ w, w < 8192 → eccCheck (s.readCw (k + w)) = .clean) →
    ∃ n, exec (.pageMoveDone dt t l) s = .next n ∧ n.moves = []
      ∧ n.pageEntry t l = { tile := m.toTile, channel := m.toChan, page := m.toPage, backed := true }
      ∧ (∀ w, w < 8192 → n.readCw (k' + w) = encodeWord (cwData (s.readCw (k + w))) (cwPoison (s.readCw (k + w))))
      ∧ (∀ b, b < 10 * k' ∨ 10 * (k' + 8192) ≤ b → off (mapWordKey t l) b →
          (∀ h q, s.pageOwner m.toTile m.toChan m.toPage = some (h, q) → off (mapWordKey h q) b) → cellGet n.mem b = cellGet s.mem b)
      ∧ n.memErr = (if s.physRetired e.tile e.channel e.page = true then (s.memErr.push r).push { r with kind := 7 } else s.memErr))
  ∧ (∀ (s : State) (dt t l : Nat), t < 32 → s.stores = [] → s.moving t l = false →
    ∃ n, exec (.pageMoveDone dt t l) s = .next n ∧ (s.pass dt).only n []))

/-- A remote operation without a response after 2 ms of FT is dropped and logged with KIND 8, and before that it waits (R209). A memory
operation that arrives whole on a link that is up, for this module and new on its port, waits in its order with its arrival stamp; one
whose port has seen its number is dropped (R38, R282, R297). -/
def Obligations.RemoteOperationsAct : Prop :=
  (∀ (s : State) (dt tag : Nat) (r : RemoteOp), s.stores = [] → s.remotes.find? (fun q => q.tag == tag) = some r →
    ((s.pass dt).ftNow < r.sent + 2000000 → ∃ t, exec (.remoteTimeout dt tag) s = .next t ∧ (s.pass dt).only t [])
    ∧ (r.sent + 2000000 ≤ (s.pass dt).ftNow → r.pid = none → (∀ j, j < 4 → (s.job j).shadow.asking = none) →
      ∃ t, exec (.remoteTimeout dt tag) s = .next t ∧ t.remotes = s.remotes.filter (fun q => q.tag != tag)
        ∧ t.memErr = ((s.pass dt).log (({ kind := 8, memory := memoryCode (addrOff r.msg.word2), tile := addrTile r.msg.word2
                                          addr := r.msg.word2, bit0 := 0x7F, bit1 := 0x7F } : LogRec).by_
              { master := r.msg.master, fjob := r.msg.job, slot := 15, seq := 0 })).memErr
        ∧ (s.pass dt).only t [.remotes, .memErr])) ∧
  (∀ (s : State) (dt l : Nat) (m : Msg), l < 18 → s.stores = [] → s.registersRun = true → (s.link l).st = .up → s.forMe l m = true →
    s.formed (s.link l).port = true → m.op ∈ [MsgOp.read, .write, .atomic, .accumulate] → m.data = [] → m.ctl = .none → isPeerMsg m = false →
    ((s.port (s.link l).port).seen.contains m.pseq = false →
      ∃ t, exec (.messageArrival dt l m) s = .next t
        ∧ t.delivered = s.delivered ++ [{ link := l, stamp := (s.pass dt).ftNow, msg := m }]
        ∧ (s.pass dt).only t [.delivered, .ports])
    ∧ ((s.port (s.link l).port).seen.contains m.pseq = true → ∃ t, exec (.messageArrival dt l m) s = .next t ∧ (s.pass dt).only t []))

/-- The fabric manager's messages: without a key a reset is discarded; with a key, a message that is not authentic is discarded and counted,
whether a register operation or a reset; an authentic reset of a laid-out scope resets that scope, its counter kept (R446, R484). -/
def Obligations.FabricManagerIsAuthenticated : Prop :=
  ∀ (s : State) (dt : Nat) (d : Delivered) (ds : List Delivered), s.delivered = d :: ds → s.registersRun = true → s.stores = [] →
    (∀ scope tr, d.msg.ctl = .fmReset scope tr →
      (s.sec.fmKey = none → ∃ t, exec (.fmReset dt) s = .next t ∧ t.delivered = ds ∧ (s.pass dt).only t [.delivered])
      ∧ (∀ k, s.sec.fmKey = some k → s.fmAuthentic k d.msg = false → ∃ t, exec (.fmReset dt) s = .next t ∧ t.delivered = ds
          ∧ t.sec = { s.sec with fmReject := satInc 16 s.sec.fmReject } ∧ (s.pass dt).only t [.delivered, .sec])
      ∧ (∀ k, s.sec.fmKey = some k → s.fmAuthentic k d.msg = true → scopeOk scope = true →
          exec (.fmReset dt) s = .next ((s.pass dt).land ((({ s.pass dt with delivered := ds } : State).modSec fun c =>
            { c with fmCounter := fmCounterOf d.msg.ctl c.fmCounter }).scopedReset scope .fabricManager))))
    ∧ (∀ wr off v tr, d.msg.ctl = .fmOp wr off v tr →
      (∀ k, s.sec.fmKey = some k → s.fmAuthentic k d.msg = false → ∃ t, exec (.fmRegisterOp dt) s = .next t ∧ t.delivered = ds
          ∧ t.sec = { s.sec with fmReject := satInc 16 s.sec.fmReject } ∧ (s.pass dt).only t [.delivered, .sec])
      ∧ (s.sec.fmKey = none →
          exec (.fmRegisterOp dt) s = .next ((s.pass dt).land (({ s.pass dt with delivered := ds } : State).fmRegister d.msg wr off v))))

/-- The word protection: an encoded word checks clean and gives back its data and its poison flag, and every error of one stored bit is
corrected (R225, R226). The word protection: every error of two stored bits is corrected (R226). -/
def Obligations.CodewordErrors : Prop :=
  (∀ (d : Word) (b : Bool), eccFix (encodeWord d b) = (encodeWord d b, false) ∧ cwData (encodeWord d b) = d ∧ cwPoison (encodeWord d b) = b
    ∧ ∀ i, i < 80 → eccCheck (flipBits (encodeWord d b) [i]) = .corrected [i] ∧ eccFix (flipBits (encodeWord d b) [i]) = (encodeWord d b, false)) ∧
  (∀ (d : Word) (b : Bool) (i j : Nat), i < j → j < 80 →
    eccCheck (flipBits (encodeWord d b) [i, j]) = .corrected [i, j] ∧ eccFix (flipBits (encodeWord d b) [i, j]) = (encodeWord d b, false))

/-- TENSOR_CREATE takes the job's next handle number and a run of free logical pages of an allowed tile, and answers the number; a tensor that
asked for zeroed storage reads as zeros; with no room here it asks the nearest spill module of the job that it has not asked; with no room
here and no spill module left, and while a page's move is deferred, the packet answers NO_RESOURCE with detail 4 (R202, R212, R240, R244,
R245, R246). -/
def Obligations.TensorCreatePlacesATensor : Prop :=
  ∀ (s : State) (dt pid : Nat) (w : Work), s.handed pid [0x10] = some w → w.slot.getD 0 < 4 → s.stores = [] → s.moves = [] →
    let j := w.slot.getD 0
    let d := w.pkt.payload.take 8
    let bytes := (lget d 0 0).toNat
    let n := (bytes + 65535) / 65536
    (∀ tl l, s.deferred = [] → s.homeTile j n = some (tl, l) →
      l + n ≤ 393216 ∧ (s.job j).forbidsTile tl = false ∧ (∀ r, r ∈ s.usedRanges → r.1 = tl → l + n ≤ r.2.1 ∨ r.2.1 + r.2.2 ≤ l)
      ∧ ∃ t, exec (.tensorCreate dt pid) s = .next t
        ∧ t.tensors = s.tensors ++ [descTensor (s.job j).nextHandle j tl l d]
        ∧ (s.pass dt).only t [.windows, .works, .jobs, .tensors, .memory, .hostMemory, .pageMap, .staged, .access, .memErr, .itemMaps,
            .gathered, .fetched, .remotes, .links, .ports, .fabric, .rel, .threads]
        ∧ (w.pkt.resHost = true → w.tags = [] → w.outs = [] →
            ((s.pass dt).post (w.pkt.par 0).toNat (wordBytes (descTensor (s.job j).nextHandle j tl l d).handle)).answered t w .done 0
              (s.job j).nextHandle
            ∧ t.job j = { s.job j with nextHandle := (s.job j).nextHandle + 1 } ∧ s.sameSlots t j
            ∧ (bitOf (lget d 1 0) 3 = false → ∀ i p b, i < n → t.resolve tl ((l + i) * 65536) = some p → 10 * placeKey p ≤ b →
                b < 10 * (placeKey p + ceilDiv (min 65536 (bytes - 65536 * i)) 8) → cellGet t.mem b = 0)))
    ∧ (∀ m, s.deferred = [] → s.homeTile j n = none → (s.spillModules j).find? (fun m => !w.asked.contains m) = some m →
        ∃ t, exec (.tensorCreate dt pid) s = .next t ∧ (∃ v, t.work pid = some v ∧ v.stage = .waiting ∧ v.asked = w.asked ++ [m])
          ∧ (s.pass dt).only t [.works, .links, .ports, .fabric])
    ∧ (s.deferred ≠ [] ∨ (s.homeTile j n = none ∧ (s.spillModules j).all (fun m => w.asked.contains m) = true) →
        ∃ t, exec (.tensorCreate dt pid) s = .next t
          ∧ (s.pass dt).answered t w .noResource 4 0 ∧ (s.pass dt).only t [.windows, .works, .itemMaps, .fetched, .hostMemory])

/-- TENSOR_FREE waits while an earlier packet that names the tensor has not completed; then the tensor, its rules, its staged copies and the
shards it belongs to go, and the packet answers DONE. FENCE answers DONE once no earlier packet of its window and job remains (R79, R214,
R222). -/
def Obligations.FreesAndFencesWaitTheirTurn : Prop :=
  ∀ (s : State) (dt pid : Nat) (w : Work), s.stores = [] →
    (s.handed pid [0x11] = some w →
      ((∃ v, v ∈ s.works ∧ v.pid < w.pid ∧ v.pkt.names (w.pkt.par 0) = true) →
        ∃ t, exec (.tensorFree dt pid) s = .next t ∧ (s.pass dt).only t [])
      ∧ ((∀ v, v ∈ s.works → v.pid < w.pid → v.pkt.names (w.pkt.par 0) = false) →
        (s.tensorKept (w.slot.getD 0) (w.pkt.par 0) = none → ∃ t, exec (.tensorFree dt pid) s = .next t
          ∧ (s.pass dt).answered t w .done 0 0 ∧ (s.pass dt).only t [.windows, .works, .itemMaps, .fetched, .hostMemory])
        ∧ (∀ x, s.tensorKept (w.slot.getD 0) (w.pkt.par 0) = some x → x.spill = none → x.slot < 4 →
          ∃ t, exec (.tensorFree dt pid) s = .next t
            ∧ t.tensors = dropFirst (fun u => u.num == x.num && u.slot == x.slot && u.page == x.page && u.tile == x.tile) s.tensors
            ∧ (∀ h, h ∈ t.shards ↔ h ∈ s.shards ∧ ¬ (h.slot = x.slot ∧ x.num ∈ h.parts))
            ∧ (∀ c, c ∈ t.staged → ¬ (c.homeTile = x.tile ∧ x.page ≤ c.page ∧ c.page < x.page + x.pages))
            ∧ (∀ r, r ∈ (t.job x.slot).rules ↔ r ∈ (s.job x.slot).rules ∧ (r.handle = 0 ∨ r.handle ≠ x.num))
            ∧ s.sameSlots t x.slot ∧ (s.pass dt).answered t w .done 0 0
            ∧ (s.pass dt).only t [.windows, .works, .jobs, .tensors, .shards, .staged, .pageMap, .rel, .itemMaps, .fetched, .hostMemory])
        ∧ (∀ x a, s.tensorKept (w.slot.getD 0) (w.pkt.par 0) = some x → x.spill = some a → x.slot < 4 →
          ∃ t, exec (.tensorFree dt pid) s = .next t
            ∧ t.tensors = dropFirst (fun u => u.num == x.num && u.slot == x.slot && u.page == x.page && u.tile == x.tile) s.tensors
            ∧ (∀ h, h ∈ t.shards ↔ h ∈ s.shards ∧ ¬ (h.slot = x.slot ∧ x.num ∈ h.parts))
            ∧ s.sameSlots t x.slot ∧ (s.pass dt).answered t w .done 0 0
            ∧ (s.pass dt).only t [.windows, .works, .jobs, .tensors, .shards, .itemMaps, .fetched, .hostMemory, .links, .ports, .fabric])))
    ∧ (s.handed pid [0x15] = some w →
      ((∃ v, v ∈ s.works ∧ v.pid < w.pid ∧ v.pkt.window = w.pkt.window ∧ v.slot = w.slot) →
        ∃ t, exec (.fence dt pid) s = .next t ∧ (s.pass dt).only t [])
      ∧ ((∀ v, v ∈ s.works → v.pid < w.pid → v.pkt.window = w.pkt.window → v.slot ≠ w.slot) →
        ∃ t, exec (.fence dt pid) s = .next t ∧ (s.pass dt).answered t w .done 0 0
          ∧ (s.pass dt).only t [.windows, .works, .itemMaps, .fetched, .hostMemory]))

/-- COPY moves every byte of its length from its source to its destination, whatever their alignment, and between whole words the poison flags
with them, between host memory and this module and within this module; FILL writes its pattern to every word, with poison 0; each then
answers DONE and touches no other word. A COPY or FILL whose source or destination is on another module sends READs or WRITEs of its whole
length and waits for their responses; a COPY to another module waits while the sampling gate holds its source back (R202, R208, R209,
R215, R216, R225, R230, R399). TRANSPOSE_COPY puts element (i, j) of its source at (j, i) of its destination, whole elements at a time,
and answers DONE; a spilled source is read over the fabric first, and while it is, the packet waits; a spilled destination is written over
the fabric (R202, R217, R246). -/
def Obligations.BulkDataMoves : Prop :=
  (∀ (s : State) (dt pid : Nat) (w : Work) (poisoned : List Nat), s.Inv → s.moves = [] → w.tags = [] → w.outs = [] → w.result = 0 →
    let v := s.pass dt
    let src := w.pkt.par 0
    let dst := w.pkt.par 1
    let n := w.pkt.copyLen
    let place (a : Word) : Option Place := match s.addrKind a with | .here t o => s.resolve t o | _ => none
    let may (op : MemOp) (a : Word) (n : Nat) : Prop :=
      (∀ i, i < n → (∃ t o, s.addrKind (a + wd i) = .here t o ∧ s.opCheck w.dma op t o = .ok) ∧ ∃ p, place (a + wd i) = some p ∧ placeOk p = true)
        ∧ ∀ i j, i < n → j < n → place (a + wd i) = place (a + wd j) → (a.toNat + i) / 8 = (a.toNat + j) / 8
    let clean (a : Word) (n : Nat) : Prop := ∀ i p, i < n → place (a + wd i) = some p → eccCheck (s.storedCw p) = .clean
    let byte (u : State) (a : Word) : Byte := match place a with | some p => lget (wordBytes (cwData (u.storedCw p))) (a.toNat % 8) 0 | none => 0
    let others (t : State) (a : Word) (n : Nat) : Prop := ∀ p, placeOk p = true → (∀ i, i < n → place (a + wd i) ≠ some p) → t.storedCw p = s.storedCw p
    let sends (t : State) (op : MsgOp) (n : Nat) : Prop := ∃ rs, t.remotes = s.remotes ++ rs ∧ (rs.map fun r => r.msg.len + 1).sum = n
      ∧ (∀ r, r ∈ rs → r.pid = some pid ∧ r.msg.op = op) ∧ ∃ x, t.work pid = some x ∧ x.stage = .waiting ∧ x.tags = rs.map fun r => r.tag
    let quiet : List Part := [.windows, .works, .itemMaps, .fetched, .hostMemory, .rel, .access]
    (s.handed pid [0x12] = some w → n ≠ 0 → src.toNat + n < 2 ^ 64 → dst.toNat + n < 2 ^ 64 →
      (w.pkt.copyFromHost = true → may .write dst n → clean dst n →
        ∃ t, exec (.copy dt pid [] poisoned) s = .next t
          ∧ (∀ i, i < n → byte t (dst + wd i) = cellGet s.hostMem (src.toNat + i)) ∧ others t dst n
          ∧ (dst.toNat % 8 = 0 → ∀ i p, 8 * i + 8 ≤ n → place (dst + wd (8 * i)) = some p →
              cwPoison (t.storedCw p) = ((List.range 8).any fun b => poisoned.contains ((src.toNat + 8 * i + b) / 64)))
          ∧ v.answered t w .done 0 0 ∧ v.only t (quiet ++ [.memory, .staged, .gathered]))
      ∧ (w.pkt.copyToHost = true → may .read src n → clean src n →
        ∃ t u, exec (.copy dt pid [] poisoned) s = .next t ∧ v.only u [.hostMemory]
          ∧ (∀ i, i < n → cellGet u.hostView (dst.toNat + i) = byte s (src + wd i))
          ∧ (∀ a, a < dst.toNat ∨ dst.toNat + n ≤ a → cellGet u.hostView a = cellGet s.hostView a)
          ∧ u.answered t w .done 0 0 ∧ v.only t quiet)
      ∧ (w.pkt.resHost = false → may .read src n → may .write dst n → clean src n → clean dst n →
          (∀ i j, i < n → j < n → place (src + wd i) ≠ place (dst + wd j)) →
        ∃ t, exec (.copy dt pid [] poisoned) s = .next t
          ∧ (∀ i, i < n → byte t (dst + wd i) = byte s (src + wd i)) ∧ others t dst n
          ∧ (src.toNat % 8 = 0 → dst.toNat % 8 = 0 → ∀ i p q, 8 * i + 8 ≤ n → place (src + wd (8 * i)) = some p → place (dst + wd (8 * i)) = some q →
              cwPoison (t.storedCw q) = cwPoison (s.storedCw p))
          ∧ v.answered t w .done 0 0 ∧ v.only t (quiet ++ [.memory, .staged, .gathered]))
      ∧ (w.pkt.copyFromHost = true → (∀ i, i < n → s.isRemote (dst + wd i) = true) →
        ∃ t, exec (.copy dt pid [] poisoned) s = .next t ∧ sends t .write n ∧ v.only t [.works, .rel, .remotes, .links, .ports, .fabric])
      ∧ (w.pkt.resHost = false → may .read src n → clean src n → (∀ i, i < n → s.isRemote (dst + wd i) = true) →
        (s.gated (w.slot.getD 0) (s.addrKeys src n) = true → ∃ t, exec (.copy dt pid [] poisoned) s = .next t ∧ v.only t [])
        ∧ (s.gated (w.slot.getD 0) (s.addrKeys src n) = false →
          ∃ t, exec (.copy dt pid [] poisoned) s = .next t ∧ sends t .write n ∧ v.only t [.works, .rel, .access, .remotes, .links, .ports, .fabric]))
      ∧ (w.pkt.copyFromHost = false → (∀ i, i < n → s.isRemote (src + wd i) = true) →
          (w.pkt.resHost = false → s.isRemote dst = false ∨ s.gated (w.slot.getD 0) (s.addrKeys src n) = false) →
        ∃ t, exec (.copy dt pid [] poisoned) s = .next t ∧ sends t .read n ∧ v.only t [.works, .rel, .remotes, .links, .ports, .fabric]))
    ∧ (s.handed pid [0x13] = some w → src.toNat % 8 = 0 →
      let k := fld (w.pkt.par 2) 0 35 / 8
      k ≠ 0 → src.toNat + 8 * k < 2 ^ 64 →
      (w.pkt.resHost = true → ∃ t, exec (.fill dt pid) s = .next t
        ∧ (v.post src.toNat (List.replicate k (wordBytes dst)).flatten).answered t w .done 0 0
        ∧ v.only t [.windows, .works, .itemMaps, .fetched, .hostMemory])
      ∧ (w.pkt.resHost = false → may .write src (8 * k) →
        ∃ t, exec (.fill dt pid) s = .next t
          ∧ (∀ i p, i < k → place (src + wd (8 * i)) = some p → t.storedCw p = encodeWord dst false) ∧ others t src (8 * k)
          ∧ v.answered t w .done 0 0 ∧ v.only t (quiet ++ [.memory, .staged, .gathered]))
      ∧ (w.pkt.resHost = false → (∀ i, i < 8 * k → s.isRemote (src + wd i) = true) →
        ∃ t, exec (.fill dt pid) s = .next t ∧ sends t .write (8 * k) ∧ v.only t [.works, .rel, .remotes, .links, .ports, .fabric]))) ∧
  ((∀ (bs : List (Byte × Bool)) (k rows cols i j b : Nat), bs.length = rows * cols * k → i < rows → j < cols → b < k →
    (transposeBytes bs k rows cols)[(j * rows + i) * k + b]? = bs[(i * cols + j) * k + b]?)
  ∧ ∀ (s : State) (dt pid : Nat) (w : Work) (a b : Tensor), s.handed pid [0x14] = some w → s.Inv → s.moves = [] → w.outs = [] → w.result = 0 →
    s.tensorKept (w.slot.getD 0) (w.pkt.par 0) = some a → s.tensorKept (w.slot.getD 0) (w.pkt.par 1) = some b →
    let v := s.pass dt
    let x := w.by_ (mTranspose a.tile)
    let n := a.rows * a.cols * a.elemBytes
    let byte (u : State) (t : Tensor) (o : Nat) : Byte :=
      match s.resolve t.tile (t.off + o) with | some p => lget (wordBytes (cwData (u.storedCw p))) ((t.off + o) % 8) 0 | none => 0
    let sound (t : Tensor) : Prop :=
      (∀ o, o < n → ∃ p, s.resolve t.tile (t.off + o) = some p ∧ placeOk p = true ∧ eccCheck (s.storedCw p) = .clean)
        ∧ ∀ o o', o < n → o' < n → s.resolve t.tile (t.off + o) = s.resolve t.tile (t.off + o') → (t.off + o) / 8 = (t.off + o') / 8
    (w.tags = [] → a.spill = none → b.spill = none → s.tensorCheck x .read a n = none → s.tensorCheck x .write b n = none → sound a → sound b →
      (∀ o o', o < n → o' < n → s.resolve a.tile (a.off + o) ≠ s.resolve b.tile (b.off + o')) →
      ∃ t, exec (.transposeCopy dt pid) s = .next t
        ∧ (∀ i j k, i < a.rows → j < a.cols → k < a.elemBytes →
            byte t b ((j * a.rows + i) * a.elemBytes + k) = byte s a ((i * a.cols + j) * a.elemBytes + k))
        ∧ (∀ p, placeOk p = true → (∀ o, o < n → s.resolve b.tile (b.off + o) ≠ some p) → t.storedCw p = s.storedCw p)
        ∧ v.answered t w .done 0 0
        ∧ v.only t [.windows, .works, .itemMaps, .fetched, .hostMemory, .rel, .access, .memory, .staged, .gathered])
    ∧ (s.allFetched w.pid [(a, n)] = false →
      (w.tags ≠ [] → ∃ t, exec (.transposeCopy dt pid) s = .next t ∧ v.only t [])
      ∧ (w.tags = [] → ∃ t rs, exec (.transposeCopy dt pid) s = .next t ∧ rs ≠ [] ∧ t.remotes = s.remotes ++ rs
          ∧ (∀ r, r ∈ rs → r.pid = some pid ∧ r.msg.op = .read) ∧ v.only t [.works, .remotes, .links, .ports, .fabric]))
    ∧ (s.allFetched w.pid [(a, n)] = true → w.tags = [] → n ≠ 0 → a.spill = none → sound a → s.tensorCheck x .read a n = none →
      ∀ z, b.spill = some z → (∀ i, i < n → s.isRemote (z + wd i) = true) → z.toNat + n < 2 ^ 64 →
      ∃ t rs, exec (.transposeCopy dt pid) s = .next t ∧ rs ≠ [] ∧ t.remotes = s.remotes ++ rs
        ∧ (∀ r, r ∈ rs → r.pid = some pid ∧ r.msg.op = .write) ∧ (rs.map fun r => r.msg.len + 1).sum = n
        ∧ v.only t [.works, .rel, .access, .remotes, .links, .ports, .fabric]))

/-- The programs and kernels whose inputs lie here, or have been read, start with one item for each row, REDUCE_MAXMIN with one item, the
products with the items their mask leaves; a packet whose items have been handed out runs, and what it reads and writes is noted. A packet
reads its spilled inputs over the fabric first and waits for them. A product whose every item is masked completes at once (R138, R166,
R175, R246, R250, R393). -/
def Obligations.ComputePacketsStartTheirItems : Prop :=
  ∀ (s : State) (dt pid : Nat) (w : Work), s.stores = [] → s.moves = [] →
    let started (t : State) (items : List Item) : Prop :=
      (∃ v, t.work pid = some v ∧ v.stage = .running ∧ v.items.map (fun i => i.num) = items.map fun i => i.num)
        ∧ (∃ e, t.rel.wrote = s.rel.wrote ++ [e] ∧ e.work = w) ∧ (s.pass dt).only t [.works, .rel, .threads, .power]
    let here : Prop := s.allFetched w.pid (s.footprint w).1 = true
    let prod := w.pkt.prod.items w.mask
    let all : List (Nat × Instr × List Item) := [(0x30, .matmul dt pid, prod), (0x31, .matmulBwdData dt pid, prod), (0x32, .matmulBwdWeight dt pid, prod),
      (0x33, .fusedNormBwd dt pid, rowItems w.pkt.kern.rows), (0x34, .fusedSoftmaxBwd dt pid, rowItems w.pkt.kern.rows),
      (0x35, .vectorProgram dt pid, rowItems (fld (w.pkt.pay 0) 0 32)), (0x36, .reduceMaxmin dt pid, [{ num := 0 }])]
    (∀ op c items, (op, c, items) ∈ all → s.handed pid [op] = some w → here → items.all (fun i => i.finished) = false →
      ∃ t, exec c s = .next t ∧ started t items)
    ∧ (∀ op c items, (op, c, items) ∈ all → s.handed pid [op] = some w → s.allFetched w.pid (s.footprint w).1 = false →
      (w.tags ≠ [] → ∃ t, exec c s = .next t ∧ (s.pass dt).only t [])
      ∧ (w.tags = [] → w.failed = false → ∃ t rs, exec c s = .next t ∧ rs ≠ [] ∧ t.remotes = s.remotes ++ rs
          ∧ (∀ r, r ∈ rs → r.pid = some pid ∧ r.msg.op = .read) ∧ (s.pass dt).only t [.works, .remotes, .links, .ports, .fabric]))
    ∧ (∀ op c, (op, c, prod) ∈ all.take 3 → s.handed pid [op] = some w → here → prod ≠ [] → prod.all (fun i => i.finished) = true →
      s.prodTensors w = none ∨ maskWrites w.mask = false → w.tags = [] → w.outs = [] → w.result = 0 → w.sampled = [] →
      ∃ t, exec c s = .next t ∧ (s.pass dt).answered t w .done 0 0)

/-- ITEMS_ASSIGN: while its job has a core available for it, every item that has not run gets such a core, an item that has run gets one of a
tile that has not run it or waits, no item with a core loses it, and afterwards no core is idle that has an item it may start (R162, R249
to R251). WORK_ITEM_DONE. A core that runs no item, or whose start is still to come, does nothing. A core whose item read no poisoned word
and was denied none finishes it: the running sums of a product item are kept, and a row of a program or kernel is written; the last row
ends its packet with DONE; REDUCE_MAXMIN writes its two words and ends; a product's last item writes the product and ends. A verified
product item that fails its check goes to a core of a tile that has not run it (R162, R166, R167, R250, R251, R428). -/
def Obligations.ItemsAreHandedOutAndFinished : Prop :=
  (∀ (s : State) (dt : Nat), s.stores = [] → (s.works.map fun w => w.pid).Nodup → (∀ w, w ∈ s.works → (w.items.map fun i => i.num).Nodup) →
    ∃ t, exec (.itemsAssign dt) s = .next t ∧ t.works.length = s.works.length
      ∧ (∀ (k : Nat) (v : Work), s.works[k]? = some v → ∃ v' : Work, t.works[k]? = some v' ∧ { v' with items := v.items } = v
          ∧ v'.items.map (fun i => (i.num, i.finished, i.tried)) = v.items.map (fun i => (i.num, i.finished, i.tried))
          ∧ ∀ (n : Nat) (i : Item), v.items[n]? = some i → ∃ i' : Item, v'.items[n]? = some i' ∧ (i.core ≠ none → i'.core = i.core)
            ∧ (let cs := (s.pass dt).available (v.slot.getD 0) (isProduct v.pkt.opcode)
               i.core = none → i.finished = false →
                (cs ≠ [] → i.tried = [] → i'.core ≠ none) ∧ (∀ g, i'.core = some g → g ∈ cs ∧ (i.tried ≠ [] → g / 16 ∉ i.tried))))
      ∧ (∀ g, g < 512 → t.busy g = true ∨ t.nextItem g = none)
      ∧ (s.pass dt).only t [.works, .threads, .power]) ∧
  (∀ (s : State) (dt core : Nat) (errs : List SilentErr), s.stores = [] → s.moves = [] →
    let v := s.pass dt
    let rd (w : Work) : Rdr := { st := v, core := core, x := w.ctx core }
    let parts : List Part := [.works, .jobs, .memory, .pageMap, .staged, .access, .memErr, .itemMaps, .gathered, .fetched, .remotes, .threads,
      .links, .ports, .fabric, .rel, .windows, .hostMemory, .power]
    (512 ≤ core → exec (.workItemDone dt core errs) s = .fault (.noSuchPart "core"))
    ∧ (core < 512 → s.runningItem core = none ∨ v.startWaits core = true → ∃ t, exec (.workItemDone dt core errs) s = .next t ∧ v.only t [])
    ∧ ∀ w i, core < 512 → s.runningItem core = some (w, i) → s.work w.pid = some w → v.startWaits core = false →
      (w.items.map fun k => k.num).Nodup →
      let more : Prop := ∃ k, k ∈ w.items ∧ k.num ≠ i.num ∧ k.finished = false
      let finished (t : State) (p : Item → Prop) : Prop :=
        ∃ u i', t.work w.pid = some u ∧ i' ∈ u.items ∧ i'.num = i.num ∧ i'.finished = true ∧ i'.poisoned = false ∧ p i'
      let ended (t : State) : Prop := t.works.map (fun u => u.pid) = (dropFirst (fun u => u.pid == w.pid) s.works).map fun u => u.pid
      (∀ t, isProduct w.pkt.opcode = true → s.prodTensors w = some t →
        let r := (rd w).runItem t w i errs
        r.2.2.fail = none → r.2.2.bad = [] →
        let bad := if t.d.verify then r.2.2.failedTiles t w i r.1 else []
        (bad = [] → r.2.1 = [] → more → ∃ u, exec (.workItemDone dt core errs) s = .next u
          ∧ finished u (fun i' => i'.acc = r.1 ∧ i'.lost = []) ∧ v.only u parts)
        ∧ (bad ≠ [] → i.attempts < 3 → ∃ u x i', exec (.workItemDone dt core errs) s = .next u
          ∧ u.work w.pid = some x ∧ i' ∈ x.items ∧ i'.num = i.num ∧ i'.finished = false ∧ i'.attempts = i.attempts + 1 ∧ i'.tried = i.tried ++ [core / 16]
          ∧ (∀ g, i'.core = some g → g / 16 ∉ i'.tried) ∧ v.only u parts)
        ∧ (∀ w2, (v.productItem w i core errs).work w.pid = some w2 → w2.items.all (fun k => k.finished) = true → w.stage = .running →
          w.sampled = [] → w.tags = [] → w.outs = [] → ((v.productItem w i core errs).writeProduct t w2 false).work w.pid = some w2 →
          w2.outs = [] → ∃ u, exec (.workItemDone dt core errs) s = .next u ∧ ended u ∧ v.replied u w.pkt .done true 0 w.result))
      ∧ (w.pkt.opcode = 0x35 →
        let r := runProgramRow v (v.vctx w i.num core errs) (w.ctx core) (vprogram w.mask) false
        r.r.fail = none → r.r.bad = [] → r.evs = [] → w.sampled = [] →
        (more → ∃ u, exec (.workItemDone dt core errs) s = .next u ∧ finished u (fun _ => True) ∧ v.only u parts)
        ∧ ((∀ k, k ∈ w.items → k.num ≠ i.num → k.finished = true) → w.stage = .running → r.away = [] → r.r.st.works = s.works → w.tags = [] → w.outs = [] →
          ∃ u, exec (.workItemDone dt core errs) s = .next u ∧ ended u ∧ v.replied u w.pkt .done true 0 w.result))
      ∧ (∀ t, w.pkt.opcode = 0x33 ∨ w.pkt.opcode = 0x34 → s.kernTensors w = some t →
        let r := (rd w).kernWrite w t i.num core errs false
        ((rd w).kernRow t i.num).2.fail = none → ((rd w).kernRow t i.num).2.bad = [] → r.1 = [] → w.sampled = [] → more →
        ∃ u, exec (.workItemDone dt core errs) s = .next u ∧ finished u (fun _ => True) ∧ v.only u parts)
      ∧ (∀ t, w.pkt.opcode = 0x36 → s.tensorKept (w.slot.getD 0) (w.pkt.par 0) = some t → w.items = [i] → w.pkt.resHost = true →
        w.sampled = [] → w.tags = [] → w.outs = [] →
        let r := (rd w).reduceAll w t errs
        r.2.2.fail = none → r.2.2.bad = [] → r.2.2.seen = [] → r.2.1 = [] →
        ∃ u, exec (.workItemDone dt core errs) s = .next u ∧ ended u
          ∧ (v.post (w.pkt.par 1).toNat (r.1.flatMap wordBytes)).replied u w.pkt .done true 0 ((lget r.1 1 0).toNat % 2 ^ 32)))

/-- The sampler's computations, on an idle core of another tile that is available to the job: a second result equal to the first settles the
unit and another raises the mismatch count; of a third, equality with the first counts a sampler fault, equality with the second makes the
core that ran the unit suspect, and a third that differs from both fails the step. A re-run waits while the suspect core holds a started
item or no core is available; then every open job's packets that the core ran, or that read what they wrote, run again in dispatch order,
and the job whose sample it was has REPLAYED_OK (R393 to R397). -/
def Obligations.SampledUnitsAreSettled : Prop :=
  ∀ (s : State) (dt id core : Nat) (errs : List SilentErr) (x : Sample), s.stores = [] → s.moves = [] → core < 512 → s.sample id = some x →
    let v := s.pass dt
    (x.stage ≠ 1 ∨ s.canSample x core [x.core / 16] = false → ∃ t, exec (.recomputeDone dt id core errs) s = .next t ∧ v.only t [])
    ∧ (x.stage = 1 → s.canSample x core [x.core / 16] = true →
      ∃ t, exec (.recomputeDone dt id core errs) s = .next t ∧ v.only t [.rel]
        ∧ (withErrs x.sound errs = x.orig →
            t.rel.samples = dropFirst (fun y => y.id == id) s.rel.samples ∧ t.rel.mismatches = s.rel.mismatches)
        ∧ (withErrs x.sound errs ≠ x.orig → t.rel.mismatches = min (s.rel.mismatches + 1) 65535
            ∧ t.sample id = some { x with second := withErrs x.sound errs, core2 := core, stage := 2 }))
    ∧ (x.stage ≠ 2 ∨ s.canSample x core [x.core / 16, x.core2 / 16] = false →
      ∃ t, exec (.thirdComputeDone dt id core errs) s = .next t ∧ v.only t [])
    ∧ (x.stage = 2 → s.canSample x core [x.core / 16, x.core2 / 16] = true →
      ∃ t, exec (.thirdComputeDone dt id core errs) s = .next t
        ∧ v.only t [.works, .jobs, .memory, .hostMemory, .pageMap, .staged, .access, .memErr, .gathered, .remotes, .buckets,
            .links, .ports, .fabric, .rel, .threads, .power]
        ∧ (withErrs x.sound errs = x.orig → t.rel.samplerFaults = min (s.rel.samplerFaults + 1) 65535
            ∧ t.rel.samples = dropFirst (fun y => y.id == id) s.rel.samples)
        ∧ (withErrs x.sound errs ≠ x.orig → withErrs x.sound errs = x.second → s.retired (.core x.core) = false →
            (t.rel.suspects.contains x.core = true ∨ t.retired (.core x.core) = true)
            ∧ t.sample id = some { x with stage := 3, decidedAt := v.ftNow })
        ∧ (withErrs x.sound errs ≠ x.orig → withErrs x.sound errs ≠ x.second → x.slot < 4 →
            t.rel.samples = dropFirst (fun y => y.id == id) s.rel.samples
            ∧ { ft := v.ftNow, status := .checkMismatch, detail := 0x0192 } ∈ (t.job x.slot).fails))
    ∧ (x.stage ≠ 3 ∨ s.busy x.core = true ∨ s.available x.slot (!x.vector) = [] → ∃ t, exec (.rerunDone dt id) s = .next t ∧ v.only t [])
    ∧ (x.stage = 3 → s.busy x.core = false → s.available x.slot (!x.vector) ≠ [] →
      (exec (.rerunDone dt id) s = .next (v.land
        (((List.range 4).foldl (fun u j => if (u.job j).opened then u.rerunJob x.core x.decidedAt x.slot j else u) v).dropSample id)))
      ∧ ((∀ e, e ∈ s.rel.wrote → s.rerunUnits e x.core false = []) → s.buckets = [] → x.slot < 4 → (s.job x.slot).opened = true →
        ∃ t, exec (.rerunDone dt id) s = .next t ∧ t.rel.samples = dropFirst (fun y => y.id == id) s.rel.samples
          ∧ t.job x.slot = (v.raiseAt x.slot .replayedOk x.decidedAt 0).job x.slot ∧ s.sameSlots t x.slot ∧ v.only t [.rel, .jobs]))

/-- DISPATCH of the packet at the head of a window that nothing holds back: a SEQ that is not the next answers BAD_PARAM with detail 1 and
leaves the next SEQ; a packet that fails a later check gets that check's status and detail; one that passes them joins the dispatched
work, reserving its reply entries (R67, R68, R76, R77, R310, R538). A tensor that steers the work is read whole first: its words are kept
with the work; while a spilled one is on its way the packet stays at the head; one that cannot be used fails a product or a program at
once; a collective takes its group's next sequence number and its place in the group's queue. DISPATCH takes nothing from a window whose
queue is empty, whose head is held back, or whose reply ring has fewer than three free entries; the last is reported in REPLY_FULL (R67,
R77). -/
def Obligations.DispatchDecides : Prop :=
  (∀ (s : State) (dt w : Nat) (p : Packet) (rest : List Packet), w < 64 → s.stores = [] → p.window = w →
    let x := vget s.windows w
    x.queue = p :: rest → s.heldBack w p = false → 3 ≤ x.freeEntries → s.cxlOpen = true →
    let u := (s.pass dt).modWindow w fun y => { y with replyFull := false }
    let taken (t : State) (next : Nat) : Prop := (vget t.windows w).queue = rest ∧ (vget t.windows w).nextSeq = next
    (p.seq ≠ x.nextSeq → ∃ t, exec (.dispatch dt w) s = .next t ∧ (s.pass dt).replied t p .badParam true 1 0 ∧ taken t x.nextSeq
      ∧ (vget t.windows w).seqErr = min 255 (x.seqErr + 1) ∧ (s.pass dt).only t [.windows, .hostMemory])
    ∧ (p.seq = x.nextSeq → s.boot.sloe = false → opAssigned p.opcode = false →
      ∃ t, exec (.dispatch dt w) s = .next t ∧ (s.pass dt).replied t p .badOpcode true 0 0 ∧ taken t ((x.nextSeq + 1) % 2 ^ 32)
        ∧ (s.pass dt).only t [.windows, .hostMemory])
    ∧ (p.seq = x.nextSeq → u.steerTensor p = none → ∀ st d, u.checkPacket p [] = some (st, d) →
      ∃ t, exec (.dispatch dt w) s = .next t ∧ (s.pass dt).replied t p st true d 0 ∧ taken t ((x.nextSeq + 1) % 2 ^ 32)
        ∧ (s.pass dt).only t [.windows, .hostMemory])
    ∧ (∀ q, p.seq = x.nextSeq → q = u.readSteering p → q.waits = false → q.fail = none → q.reread = false → q.st.stores = [] →
        q.st.works = s.works → u.checkPacket p q.words = none →
      ∃ t, exec (.dispatch dt w) s = .next t ∧ taken t ((x.nextSeq + 1) % 2 ^ 32) ∧ t.nextPid = s.nextPid + 1
        ∧ (p.replyOnAccept = false → (vget t.windows w).reserved = x.reserved + 1 + b2n (p.opcode == 0x56 && p.cdesc.adv)
            ∧ (∃ v, t.works = s.works ++ [v] ∧ v.pid = s.nextPid ∧ v.pkt = p ∧ v.stage = .handed ∧ v.dispFt = (s.pass dt).ftNow
                ∧ v.slot = (if opHasJob p.opcode then some p.job else none) ∧ v.items = [] ∧ v.outs = [] ∧ v.tags = [] ∧ v.mask = q.words
                ∧ ((∀ y, y ∈ s.works → y.pid ≠ s.nextPid) → p.job < 4 → isCollective p.opcode = true → p.declares = false → ∀ c, s.group p.job p.group = some c →
                    v.cseq = c.cseq ∧ t.group p.job p.group = some { c with queue := c.queue ++ [s.nextPid], cseq := (c.cseq + 1) % 2 ^ 24 }))
            ∧ q.st.only t [.windows, .works, .jobs, .tensors, .rel])
        ∧ (p.replyOnAccept = true → (∀ v, v ∈ s.works → v.pid ≠ s.nextPid) → (s.pass dt).replied t p .accepted false 0 0))
    ∧ (∀ q, p.seq = x.nextSeq → q = u.readSteering p → q.waits = true → u.checkPacket (u.standIn p).1 (u.standIn p).2 = none →
      ∃ t, exec (.dispatch dt w) s = .next t ∧ vget t.windows w = { x with replyFull := false } ∧ q.st.only t [.memory])
    ∧ (∀ q st d, p.seq = x.nextSeq → q = u.readSteering p → q.fail = some (st, d) → p.opcode ∈ [0x32, 0x35] → p.replyOnAccept = false →
        u.checkPacket (u.standIn p).1 (u.standIn p).2 = none → (∀ v, v ∈ q.st.works → v.pid ≠ q.st.nextPid) →
      ∃ t, exec (.dispatch dt w) s = .next t ∧ (s.pass dt).replied t p st true d 0 ∧ t.works = q.st.works ∧ t.nextPid = s.nextPid + 1)) ∧
  (∀ (s : State) (dt w : Nat), s.stores = [] →
    (64 ≤ w → exec (.dispatch dt w) s = .fault (.noSuchPart "window"))
    ∧ (w < 64 → (vget s.windows w).queue = [] → ∃ t, exec (.dispatch dt w) s = .next t ∧ (s.pass dt).only t [])
    ∧ (w < 64 → ∀ p rest, (vget s.windows w).queue = p :: rest →
      (s.heldBack w p = true → ∃ t, exec (.dispatch dt w) s = .next t ∧ (s.pass dt).only t [])
      ∧ (s.heldBack w p = false → (vget s.windows w).freeEntries < 3 → ∃ t, exec (.dispatch dt w) s = .next t
          ∧ vget t.windows w = { vget s.windows w with replyFull := true } ∧ s.sameWindows t w ∧ (s.pass dt).only t [.windows])))

/-- FIELD_TEST_SCHEDULE books its window, of which the module keeps 256; UNIT_RETIRE retires the unit it names at once (R409, R415, R418).
Field tests: a window opens, after what comes first at its FT, by draining its core, is deferred while UNSYNCED and skipped under an alert
or once past; the drained core's test starts and its staged copies go, and a suspect core needs no window; a drain or a window that ends
first skips the test; the verdict follows the passes (R37, R247, R388, R395, R410 to R414). -/
def Obligations.FieldTestsAreBookedAndRun : Prop :=
  (∀ (s : State) (dt pid : Nat) (w : Work), s.stores = [] →
    (s.handed pid [0x90] = some w →
      (256 ≤ s.rel.windows.length → ∃ t, exec (.fieldTestSchedule dt pid) s = .next t ∧ t.rel.windows = s.rel.windows
        ∧ (s.pass dt).answered t w .noResource 0x0190 0 ∧ (s.pass dt).only t [.windows, .works, .itemMaps, .fetched, .hostMemory])
      ∧ (s.rel.windows.length < 256 → ∃ t b, exec (.fieldTestSchedule dt pid) s = .next t ∧ t.rel.windows = s.rel.windows ++ [b]
        ∧ b.start = (w.pkt.par 0).toNat ∧ b.stop = (w.pkt.par 1).toNat ∧ (s.pass dt).answered t w .done 0 0
        ∧ (s.pass dt).only t [.windows, .works, .rel, .itemMaps, .fetched, .hostMemory]))
    ∧ (∀ u, s.handed pid [0x92] = some w → selectedUnit (w.pkt.par 0) = some u → ∃ t, exec (.unitRetire dt pid) s = .next t
      ∧ t.retired u = true ∧ (s.pass dt).replied t w.pkt .done true 0 0 ∧ t.works.length + 1 = s.works.length
      ∧ (s.pass dt).only t [.windows, .works, .jobs, .pageMap, .staged, .memErr, .itemMaps, .fetched, .links, .ports, .fabric, .rel,
          .hostMemory, .threads, .power])) ∧
  (∀ (s : State) (dt : Nat), s.stores = [] →
    let p := s.pass dt
    let u := p.settleSwitch
    (∀ n w, u.testWindow n = some w →
      let skipped (t : State) : Prop := t.testWindow n = none ∧ t.rel.skipped = min 65535 (u.rel.skipped + 1) ∧ u.only t [.rel]
      (w.opened = true ∨ u.ftNow < w.start → ∃ t, exec (.testWindowOpen dt n) s = .next t ∧ u.only t [])
      ∧ (w.opened = false → w.start ≤ u.ftNow →
        (u.alert = true ∨ w.stop ≤ u.ftNow → ∃ t, exec (.testWindowOpen dt n) s = .next t ∧ skipped t)
        ∧ (u.alert = false → u.ftNow < w.stop →
          (u.ft.unsynced = true → w.deferred = false → ∃ t, exec (.testWindowOpen dt n) s = .next t
            ∧ t.testWindow n = some { w with deferred := true } ∧ t.rel.deferredCount = min 65535 (u.rel.deferredCount + 1) ∧ u.only t [.rel])
          ∧ (u.ft.unsynced = true → w.deferred = true → ∃ t, exec (.testWindowOpen dt n) s = .next t ∧ u.only t [])
          ∧ (u.ft.unsynced = false → (∃ y, y ∈ u.rel.tests ∧ y.core / 16 = w.tile) → ∃ t, exec (.testWindowOpen dt n) s = .next t ∧ u.only t [])
          ∧ (u.ft.unsynced = false → (∀ y, y ∈ u.rel.tests → y.core / 16 ≠ w.tile) →
            let core := w.core.orElse fun _ => u.rotationCore w.tile
            (core = none ∨ (∃ g, core = some g ∧ u.retired (.core g) = true) → ∃ t, exec (.testWindowOpen dt n) s = .next t ∧ skipped t)
            ∧ (∀ g, core = some g → u.retired (.core g) = false →
              ∃ t, exec (.testWindowOpen dt n) s = .next t ∧ t.testWindow n = some { w with opened := true, core := some g }
                ∧ t.rel.tests = u.rel.tests ++ [{ core := g, window := some n, waits := u.affectedJobs g, lastBoundary := u.ftNow, deferred := w.deferred }]
                ∧ u.only t [.works, .rel, .threads, .power])))))
    ∧ (∀ n w, s.testWindow n = some w →
      let skipped (t : State) : Prop := t.testWindow n = none ∧ t.rel.skipped = min 65535 (s.rel.skipped + 1) ∧ p.only t [.rel]
      (w.stop ≤ p.ftNow → (∀ y, y ∈ s.rel.tests → y.window ≠ some n) → ∃ t, exec (.testWindowEnd dt n) s = .next t ∧ skipped t)
      ∧ (∀ y, w.stop ≤ p.ftNow → s.rel.tests.find? (fun y => y.window == some n) = some y →
          (y.started = false → ∃ t, exec (.testWindowEnd dt n) s = .next t ∧ skipped t
            ∧ t.rel.tests = dropFirst (fun x => x.core == y.core) s.rel.tests ∧ (t.coreTest y.core).verdict = 3)
          ∧ (y.started = true → ∃ t, exec (.testWindowEnd dt n) s = .next t ∧ p.only t []))
      ∧ (p.ftNow < w.stop → ∃ t, exec (.testWindowEnd dt n) s = .next t ∧ p.only t []))
    ∧ (∀ g x, g < 512 → s.testRun g = some x →
      let free : Prop := s.alert = false ∧ s.busy g = false ∧ s.retired (.core g) = false ∧ s.boot.coreReset.contains g = false
        ∧ s.boot.tileReset.contains (g / 16) = false ∧ ∀ y, y ∈ s.rel.tests → y.core / 16 = g / 16 → y.started = false
      let late : Prop := ∃ w, x.window.bind s.testWindow = some w ∧ w.stop ≤ p.ftNow
      (x.started = false → x.suspect = false → x.waits = [] → s.busy g = true → x.lastBoundary + 1000000 ≤ p.ftNow →
        ∃ t, exec (.drainTimeout dt g) s = .next t ∧ t.rel.tests = dropFirst (fun y => y.core == g) s.rel.tests
          ∧ (t.coreTest g).verdict = 3 ∧ t.rel.skipped = min 65535 (s.rel.skipped + 1) ∧ p.only t [.rel])
      ∧ (x.started = true ∨ x.suspect = true ∨ x.waits ≠ [] ∨ s.busy g = false ∨ p.ftNow < x.lastBoundary + 1000000 →
        ∃ t, exec (.drainTimeout dt g) s = .next t ∧ p.only t [])
      ∧ (¬ free ∨ x.started = true ∨ (s.rel.suspects.contains g = false ∧ (x.waits ≠ [] ∨ late)) →
        ∃ t, exec (.testStart dt g) s = .next t ∧ p.only t [])
      ∧ (free → x.started = false → s.rel.suspects.contains g = true ∨ (x.waits = [] ∧ ¬ late) →
        ∃ t, exec (.testStart dt g) s = .next t
          ∧ t.testRun g = some { x with started := true, suspect := x.suspect || s.rel.suspects.contains g, waits := [] }
          ∧ (∀ c, c ∈ t.staged ↔ c ∈ s.staged ∧ c.core ≠ some g) ∧ p.only t [.rel, .staged])
      ∧ (∀ r, x.started = false → ∃ t, exec (.testPassDone dt g r) s = .next t ∧ p.only t [])
      ∧ (∀ r, x.started = true → failedUnit g r = none → ∃ t, exec (.testPassDone dt g r) s = .next t
        ∧ t.rel.tests = dropFirst (fun y => y.core == g) s.rel.tests
        ∧ (t.coreTest g).verdict = (if x.deferred then 4 else if x.nominal then 1 else 0) ∧ (t.coreTest g).endFt = p.ftNow
        ∧ (x.nominal = false → (t.coreTest g).passFt = p.ftNow) ∧ p.only t [.rel])
      ∧ (∀ r uu sig, x.started = true → failedUnit g r = some (uu, sig) → ∃ t, exec (.testPassDone dt g r) s = .next t
        ∧ (∃ e, e ∈ t.rel.hist ∧ e.unit = uu ∧ e.sig = sig ∧ e.mech = if x.nominal then 7 else 6)
        ∧ (x.nominal = true → t.rel.outCores.contains g = true ∧ t.rel.tests = dropFirst (fun y => y.core == g) s.rel.tests
            ∧ (t.coreTest g).verdict = if x.deferred then 4 else 2)
        ∧ (x.nominal = false → (t.retired uu = true ∧ t.rel.tests = dropFirst (fun y => y.core == g) s.rel.tests
              ∧ (t.coreTest g).verdict = (if x.deferred then 4 else 1))
            ∨ (t.retired uu = false ∧ t.testRun g = some { x with nominal := true }))
        ∧ p.only t [.works, .jobs, .pageMap, .staged, .memErr, .links, .threads, .rel]))
    ∧ (∀ g, g < 512 → s.testRun g = none → s.rel.suspects.contains g = true → s.alert = false → s.busy g = false → s.retired (.core g) = false →
        s.boot.coreReset.contains g = false → s.boot.tileReset.contains (g / 16) = false →
        (∀ y, y ∈ s.rel.tests → y.core / 16 = g / 16 → y.started = false) → ∃ t, exec (.testStart dt g) s = .next t
          ∧ t.testRun g = some { core := g, window := none, started := true, suspect := true } ∧ p.only t [.rel, .staged]))

/-- ACCESS_TABLE_WRITE writes one entry of the target's table; its other kinds install the fabric-manager key, install the officer root digest
or zeroise; in the security error state each answers INTERNAL with detail 0x1C0; a vendor diagnostic sets DIAG_USED, and what it answers
is open (R484, R491, R495, R496, R498). -/
def Obligations.SecurityPackets : Prop :=
  ∀ (s : State) (dt pid : Nat) (w : Work), s.stores = [] →
    let only (t : State) : Prop := (s.pass dt).only t [.windows, .works, .itemMaps, .fetched, .sec, .hostMemory]
    (s.handed pid [0xA1] = some w → s.sec.error = false →
      (∀ target, w.pkt.atKind ≤ 3 → target = w.pkt.atTarget →
        let k := target * 256 + (w.pkt.par 1).toNat % 256
        let e := w.pkt.atEntry
        ∃ t, exec (.accessTableWrite dt pid) s = .next t ∧ (s.pass dt).answered t w .done 0 0
          ∧ t.sec = { s.sec with tables := t.sec.tables } ∧ (∀ k', k' ≠ k → kvGet t.sec.tables k' = kvGet s.sec.tables k')
          ∧ (e ≠ defaultAt target ((w.pkt.par 1).toNat % 256) → kvGet t.sec.tables k = some e)
          ∧ (e = defaultAt target ((w.pkt.par 1).toNat % 256) → t.sec.tables = kvPut s.sec.tables k none) ∧ only t)
      ∧ (w.pkt.atKind = 8 → ∃ t, exec (.fmKeyInstall dt pid) s = .next t ∧ (s.pass dt).answered t w .done 0 0
          ∧ t.sec = { s.sec with fmKey := some ((w.pkt.payload.take 4).flatMap wordBytes), fmCounter := 0 } ∧ only t)
      ∧ (w.pkt.atKind = 9 → ∃ t, exec (.officerRootInstall dt pid) s = .next t ∧ (s.pass dt).answered t w .done 0 0
          ∧ t.sec = { s.sec with officer := some ((w.pkt.payload.take 8).flatMap wordBytes) } ∧ only t)
      ∧ (w.pkt.atKind = 15 → ∃ t, exec (.zeroise dt pid) s = .next t ∧ (s.pass dt).answered t w .done 0 0
          ∧ t.sec = { s.sec with
              tables := [], officer := none, fmKey := none, fmCounter := 0, sessions := [], ideIo := false, ideCm := false, keys := false, drbg := false }
          ∧ only t))
    ∧ (s.handed pid [0xA1] = some w → s.sec.error = true →
      (w.pkt.atKind ≤ 3 → ∃ t, exec (.accessTableWrite dt pid) s = .next t ∧ (s.pass dt).answered t w .internal 0x01C0 0 ∧ t.sec = s.sec)
      ∧ (w.pkt.atKind = 8 → ∃ t, exec (.fmKeyInstall dt pid) s = .next t ∧ (s.pass dt).answered t w .internal 0x01C0 0 ∧ t.sec = s.sec)
      ∧ (w.pkt.atKind = 9 → ∃ t, exec (.officerRootInstall dt pid) s = .next t ∧ (s.pass dt).answered t w .internal 0x01C0 0
          ∧ t.sec = s.sec)
      ∧ (w.pkt.atKind = 15 → ∃ t, exec (.zeroise dt pid) s = .next t ∧ (s.pass dt).answered t w .internal 0x01C0 0 ∧ t.sec = s.sec))
    ∧ (s.handed pid ((List.range 16).map fun i => 0xF0 + i) = some w → ∃ t st d r, exec (.vendorDiagnostic dt pid) s = .next t
      ∧ (s.pass dt).answered t w st d r ∧ d < 65536 ∧ r < 2 ^ 32
      ∧ t.sec = { s.sec with diagUsed := true, jtagLocked := t.sec.jtagLocked } ∧ (t.sec.jtagLocked = true → s.sec.jtagLocked = true) ∧ only t)

/-- The module-scope resets: each clears what R448 lists and keeps DRAM and shared memory, whose page-map words are written anew, but that
tamper loses DRAM and power-on every memory; the straps are sampled; the cause and its own effects are recorded (R446 to R449, R451, R453,
R463, R497, R511, R515). -/
def Obligations.ModuleScopeResets : Prop :=
  ∀ (s : State) (dt : Nat), s.stores = [] → s.boot.powered = true → s.boot.inReset = false →
    let mapByte (b : Nat) : Prop := ∃ tile, tile < 32 ∧ 10 * mapWordKey tile 0 ≤ b ∧ b < 10 * (mapWordKey tile 0 + 196608)
    let keeps (t : State) : Prop := (∀ b, b < 10 * coreBase → ¬ mapByte b → cellGet t.mem b = cellGet s.mem b)
      ∧ (∀ b, mapByte b → cellGet t.mem b = 0) ∧ t.rel.hist = s.rel.hist
      ∧ t.boot.strapSrc = s.boot.pinSrc ∧ t.boot.strapClk = s.boot.pinClk
    let did (t : State) (src : ResetSource) : Prop := (s.pass dt).cleared t ∧ t.boot.causeSource = src
    (∀ pid w, s.handed pid [0x03] = some w → fld (w.pkt.par 0) 0 2 = 0 → ∃ t, exec (.resetScope dt pid) s = .next t
      ∧ did t .resetScope ∧ keeps t
      ∧ (s.works = [w] → s.cxlOpen = true → t.hostView = ((s.pass dt).complete pid .done 0 0).hostView))
    ∧ (s.boot.perstLow = false → ∃ t, exec (.perst dt) s = .next t ∧ did t .perst ∧ keeps t ∧ t.boot.perstLow = true
      ∧ t.boot.inReset = true)
    ∧ (∀ tile temp, tile < 32 → (115 : Int) ≤ temp → ∃ t, exec (.thermalTrip dt tile false temp) s = .next t ∧ did t .thermalTrip ∧ keeps t
      ∧ t.boot.thermtrip = true ∧ t.boot.inReset = true)
    ∧ (∀ tile temp, tile < 32 → (105 : Int) ≤ temp → ∃ t, exec (.thermalTrip dt tile true temp) s = .next t ∧ did t .thermalTrip ∧ keeps t
      ∧ t.boot.thermtrip = true ∧ t.boot.inReset = true)
    ∧ (∀ tile, tile = 0 ∨ tile = 16 → s.registersRun = true → s.boot.tileReset.contains tile = false →
      s.boot.cpFailed.contains tile = false → s.boot.cpFailed.contains (16 - tile) = true →
      ∃ t, exec (.watchdogMiss dt tile) s = .next t ∧ did t .watchdog ∧ keeps t)
    ∧ (∀ step, s.boot.bringup = true → s.boot.releasedAt + 30000000000 ≤ s.uptime + dt → s.boot.step ≤ step →
      step ≤ (if s.boot.awaits 1 || s.boot.awaits 2 then 3 else 6) →
      ∃ t, exec (.bringupTimeout dt step) s = .next t ∧ did t .watchdog ∧ keeps t ∧ t.boot.causeStall = step)
    ∧ (∀ sensor, 1 ≤ sensor → sensor ≤ 4 → ∃ t, exec (.tamper dt sensor) s = .next t ∧ did t .tamper ∧ t.sec.tamperCode = sensor
      ∧ t.sec.officer = none ∧ t.sec.fmKey = none ∧ t.sec.fmCounter = 0 ∧ t.boot.bkp = Vector.replicate 16 0 ∧ t.boot.sram = []
      ∧ (∀ b, b < 10 * sharedBase → cellGet t.mem b = 0)
      ∧ (∀ b, 10 * sharedBase ≤ b → b < 10 * coreBase → ¬ mapByte b → cellGet t.mem b = cellGet s.mem b)
      ∧ t.boot.strapSrc = s.boot.pinSrc ∧ t.boot.strapClk = s.boot.pinClk)
    ∧ (∀ src clk, ∃ t, exec (.powerOn dt src clk) s = .next t ∧ did t .powerOn ∧ (∀ b, b < 10 * keyEnd → cellGet t.mem b = 0)
      ∧ t.boot.causeFt = 0 ∧ t.boot.powered = true ∧ t.boot.strapSrc = src % 4 ∧ t.boot.strapClk = clk % 4
      ∧ t.boot.bkp = Vector.replicate 16 0 ∧ t.boot.sram = [])
    ∧ (∃ t, exec (.powerLoss dt) s = .next t ∧ (s.pass dt).cleared t ∧ t.boot.powered = false ∧ t.boot.inReset = true
      ∧ ∃ n, t.rel.hist = s.rel.hist.take n)

/-- Resets of one tile or one core: RESET_SCOPE answers DONE first; the cores' memories are cleared and every other byte stays; RST_LOCAL says
what was reset; a control processor's first watchdog miss on tile 0 or 16 hands its roles to the other (R19, R81, R447 to R450, R463). -/
def Obligations.TileAndCoreResets : Prop :=
  ∀ (s : State) (dt tile core : Nat), s.stores = [] → tile < 32 → core < 16 →
    let wiped (t : State) (lo hi : Nat) : Prop := ∀ b, cellGet t.mem b =
      if 10 * (coreBase + lo * 1572864) ≤ b ∧ b < 10 * (coreBase + hi * 1572864) then 0 else cellGet s.mem b
    let one : List Part := [.works, .jobs, .memory, .staged, .buckets, .rel, .boot, .threads, .power]
    (∀ pid w, s.handed pid [0x03] = some w → w.pkt.par 0 = wd (2 + tile * 256 + core * 65536) → s.boot.tileReset.contains tile = false →
      ∃ t, exec (.resetScope dt pid) s = .next t ∧ (s.pass dt).replied t w.pkt .done true 0 0
        ∧ wiped t (tile * 16 + core) (tile * 16 + core + 1) ∧ t.boot.coreReset.contains (tile * 16 + core) = true
        ∧ t.boot.localScope = 2 ∧ t.boot.localSource = 2 ∧ t.boot.localTile = tile ∧ t.boot.localCore = core
        ∧ (s.pass dt).only t ([.windows, .itemMaps, .fetched, .hostMemory] ++ one))
    ∧ (∀ pid w, s.handed pid [0x03] = some w → w.pkt.par 0 = wd (2 + tile * 256 + core * 65536) → s.boot.tileReset.contains tile = true →
      ∃ t, exec (.resetScope dt pid) s = .next t ∧ (s.pass dt).answered t w .done 0 0
        ∧ (s.pass dt).only t [.windows, .works, .itemMaps, .fetched, .hostMemory])
    ∧ (s.registersRun = true → s.boot.cpFailed.contains tile = false → s.boot.tileReset.contains tile = false → tile ≠ 0 → tile ≠ 16 →
      s.buckets = [] → (∀ v, v ∈ s.works → v.tile ≠ tile) →
      ∃ t, exec (.watchdogMiss dt tile) s = .next t ∧ wiped t (tile * 16) (tile * 16 + 16) ∧ t.boot.tileReset.contains tile = true
        ∧ t.boot.localScope = 1 ∧ t.boot.localSource = 4 ∧ t.boot.localTile = tile
        ∧ (∀ k, k < 64 → vget t.windows k = if k = tile ∨ k = tile + 32 then { vget s.windows k with
            enable := false, found := none, queue := [] } else vget s.windows k)
        ∧ (s.pass dt).only t ([.windows, .sec] ++ one))
    ∧ (s.registersRun = true → s.boot.cpFailed.contains tile = false → s.boot.tileReset.contains tile = false → tile = 0 ∨ tile = 16 →
      s.boot.cpFailed.contains (16 - tile) = false →
      ∃ t, exec (.watchdogMiss dt tile) s = .next t ∧ t.boot = { s.boot with
          cpFailed := s.boot.cpFailed ++ [tile], rolesOn16 := decide (tile = 0), standbyLost := s.boot.standbyLost || decide (tile = 16) }
        ∧ (s.pass dt).only t [.boot])
    ∧ (∃ t, exec (.tileResetDone dt tile) s = .next t ∧ t.boot.tileReset.contains tile = false
        ∧ t.boot = { s.boot with tileReset := t.boot.tileReset } ∧ (s.pass dt).only t [.boot])
    ∧ (∃ t, exec (.coreResetDone dt (tile * 16 + core)) s = .next t ∧ t.boot.coreReset.contains (tile * 16 + core) = false
        ∧ t.boot = { s.boot with coreReset := t.boot.coreReset } ∧ (s.pass dt).only t [.boot])

/-- A start: a release samples the straps and begins bring-up, or Sloe mode after three failed starts; bring-up ends ready, or in Sloe mode
with the reason of what failed, and this start's certificate is issued; the host link trains to a speed and a width that it has; 60 s
later the start is good (R451 to R457, R475, R493, R504, R515). -/
def Obligations.StartsBeginAndEnd : Prop :=
  ∀ (s : State) (dt : Nat), s.stores = [] →
    let issued (i : Image) : Sec :=
      { s.sec with alias_ := some (s.sec.svn, Config.shake256 (Config.securitySection i.bytes)), keys := true, drbg := true }
    let trained (t : State) : Prop := t.cxl.speed ∈ [16, 32, 64] ∧ t.cxl.width ∈ [1, 2, 4, 8]
      ∧ t.cxl = { s.cxl with speed := t.cxl.speed, width := t.cxl.width, held := t.cxl.held, msixHeld := t.cxl.msixHeld, msix := t.cxl.msix,
                             epLines := t.cxl.epLines }
    (∀ src clk, s.boot.powered = true → s.boot.inReset = true → s.boot.perstLow = true → s.boot.thermtrip = false → src < 3 → clk < 3 →
      ∃ t, exec (.perstRelease dt src clk) s = .next t ∧ t.boot.perstLow = false ∧ t.boot.inReset = false ∧ t.boot.strapSrc = src
        ∧ t.boot.strapClk = clk ∧ t.boot.releasedAt = s.uptime + dt
        ∧ (s.boot.failedStarts = 3 → t.boot.sloe = true ∧ t.boot.reason = 1 ∧ t.boot.failedStarts = 3 ∧ t.sec = issued s.boot.booted)
        ∧ (s.boot.failedStarts ≠ 3 → t.boot.bringup = true ∧ t.boot.sloe = s.boot.sloe ∧ t.boot.failedStarts = s.boot.failedStarts + 1
            ∧ (s.boot.sloe = false → t.sec = s.sec))
        ∧ trained t ∧ (s.pass dt).only t [.boot, .sec, .hostLink])
    ∧ (∀ src clk, s.boot.powered = true → s.boot.inReset = true → s.boot.perstLow = false → s.boot.thermtrip = true → src < 3 → clk < 3 →
      s.boot.failedStarts ≠ 3 → ∃ t, exec (.thermtripRelease dt src clk) s = .next t ∧ t.boot.thermtrip = false ∧ t.boot.inReset = false
        ∧ t.boot.strapSrc = src ∧ t.boot.strapClk = clk
        ∧ t.boot.bringup = true ∧ t.boot.failedStarts = s.boot.failedStarts + 1 ∧ trained t ∧ (s.pass dt).only t [.boot, .sec, .hostLink])
    ∧ (∀ t0 t16 dram f g, s.boot.bringup = true →
      (t0 = false → t16 = false → ∃ t, exec (.bringupDone dt t0 t16 dram f g) s = .next t ∧ t.boot = s.boot.enterSloe 5
        ∧ t.sec = issued s.boot.booted ∧ (∀ l, l < 18 → (vget t.links l).st = .down ∨ (vget t.links l).st = .off)
        ∧ (s.pass dt).only t [.boot, .links, .ports, .sec])
      ∧ ((t0 || t16) = true → s.boot.awaits 1 = false → s.boot.awaits 2 = false →
        (s.bootChoice f g = none → ∃ t, exec (.bringupDone dt t0 t16 dram f g) s = .next t ∧ t.boot = s.boot.enterSloe 4)
        ∧ (∀ i fell, s.bootChoice f g = some (i, fell) → dram = true → ∃ t, exec (.bringupDone dt t0 t16 dram f g) s = .next t
            ∧ t.boot = ({ s.boot with fallback := fell, booted := i } : Boot).enterSloe 6 ∧ t.sec = issued i)
        ∧ (∀ i fell, s.bootChoice f g = some (i, fell) → dram = false → ∃ t, exec (.bringupDone dt t0 t16 dram f g) s = .next t
            ∧ t.boot = { s.boot with bringup := false, bringupDone := true, doneAt := s.uptime + dt, step := 6, running := i, booted := i
                                     runSince := s.uptime + dt, fallback := fell }
            ∧ t.sec = { issued i with selfTestOk := t0 && t16, ok0 := t0, ok16 := t16, mirror := !t0 } ∧ (s.pass dt).only t [.boot, .sec])))
    ∧ (s.boot.bringupDone = true → s.boot.doneAt + 60000000000 ≤ s.uptime + dt → ∃ t, exec (.startGood dt) s = .next t
      ∧ t.boot = { s.boot with failedStarts := 0 } ∧ (s.pass dt).only t [.boot])
    ∧ (s.boot.awaits 2 = true → s.boot.releasedAt + 20000000000 ≤ s.uptime + dt → (∀ l, l < 18 → (s.link l).st ≠ .up) →
      ∃ t, exec (.neighbourBootTimeout dt) s = .next t ∧ t.boot = s.boot.enterSloe 4 ∧ (s.pass dt).only t [.boot, .links, .ports, .sec])
    ∧ (∀ len, s.boot.powered = true → s.boot.inReset = false → s.boot.awaits 1 = false → ∃ t, exec (.bootLoad dt len []) s = .next t
      ∧ t.boot = { s.boot with bootLen := len % 2 ^ 32 } ∧ (s.pass dt).only t [.boot])
    ∧ (∀ len, s.boot.powered = true → s.boot.inReset = false → s.boot.awaits 1 = true → s.cxlOpen = true → 0 < len → len < 2 ^ 32 →
      let image := cellGetAll s.hostMem s.boot.bootAddr.toNat len
      ∃ t, exec (.bootLoad dt len []) s = .next t
        ∧ (imageFails image s.sec.svn = none → t.boot.loaded = some (imageOf image) ∧ t.boot.sloe = s.boot.sloe)
        ∧ (imageFails image s.sec.svn ≠ none → t.boot.sloe = true ∧ t.boot.reason = 4))

/-- Staging and switching firmware: FW_STAGE answers the check its image fails, or stores and stages it; FW_SWITCH books a switch-over, which
is refused under SITE_ALERT, deferred while a commit vote is in progress, and otherwise starts the staged image; the hand-over's end
answers the packet and begins the trial; the trial ends, and fuses are blown, after 600 s (R388, R458 to R461, R471, R472). -/
def Obligations.FirmwareIsStagedAndSwitched : Prop :=
  ∀ (s : State) (dt pid : Nat) (w : Work), s.stores = [] →
    let m := (s.pass dt).finishMoves
    let u := (s.pass dt).settleSafePoints
    let image := cellGetAll s.hostMem (w.pkt.par 0).toNat (w.pkt.par 1).toNat
    (s.handed pid [0x04] = some w → s.sec.error = false → w.outs = [] → w.pkt.resHost = true → s.cxlOpen = true → m.work pid = some w →
      (∀ d, (imageFails image s.sec.svn = some 4 ∧ d = 0x01B2 ∨ imageFails image s.sec.svn = some 5 ∧ d = 0x01C0
          ∨ (imageFails image s.sec.svn = some 1 ∨ imageFails image s.sec.svn = some 2 ∨ imageFails image s.sec.svn = some 3) ∧ d = 0x0007) →
        ∃ t, exec (.fwStage dt pid []) s = .next t ∧ m.answered t w .badParam d 0 ∧ t.boot = s.boot
          ∧ m.only t [.windows, .works, .itemMaps, .fetched, .hostMemory])
      ∧ (imageFails image s.sec.svn = none → ∃ t, exec (.fwStage dt pid []) s = .next t
        ∧ m.answered t w .done 0 (imageOf image).version
        ∧ t.boot.staged = some (imageOf image) ∧ t.boot.slot true = imageOf image ∧ t.boot.slot false = s.boot.slot false
        ∧ m.only t [.windows, .works, .itemMaps, .fetched, .boot, .hostMemory]))
    ∧ (s.handed pid [0x04] = some w → s.sec.error = true → ∃ t, exec (.fwStage dt pid []) s = .next t
      ∧ (s.pass dt).answered t w .internal 0x01C0 0 ∧ t.boot = s.boot)
    ∧ (s.handed pid [0x05] = some w → s.sec.error = false → s.boot.sloe = false → ∃ t, exec (.fwSwitch dt pid) s = .next t
      ∧ t.boot = { s.boot with booking := some { pid := pid, ft := (w.pkt.par 0).toNat } }
      ∧ t.works = updFirst (fun v => v.pid == pid) (fun v => { v with stage := .waiting }) s.works ∧ (s.pass dt).only t [.works, .boot])
    ∧ (s.handed pid [0x05] = some w → s.sec.error = false → s.boot.sloe = true → s.boot.inReset = false → ∃ t, exec (.fwSwitch dt pid) s = .next t
      ∧ t.works = [] ∧ t.boot.recovery = true ∧ t.boot.causeSource = .resetScope ∧ t.boot.slotB = xor s.boot.slotB s.boot.staged.isSome)
    ∧ (∀ k i v, u.boot.booking = some k → u.boot.staged = some i → u.work k.pid = some v → k.ft ≤ u.ftNow →
      (u.alert = true → ∃ t, exec (.switchOver dt) s = .next t ∧ u.answered t v .internal 0x0181 0
        ∧ t.boot = { u.boot with booking := none })
      ∧ (u.alert = false → (u.ft.unsynced || (List.range 4).any u.voting) = true → ∃ t, exec (.switchOver dt) s = .next t
        ∧ u.only t [])
      ∧ (u.alert = false → (u.ft.unsynced || (List.range 4).any u.voting) = false → ∃ t, exec (.switchOver dt) s = .next t
        ∧ t.boot = { u.boot with booking := none, staged := none, running := i, slotB := !u.boot.slotB, runSince := u.uptime
                                 handover := some k.pid } ∧ u.only t [.boot]))
    ∧ (s.boot.booking = none → s.rel.windows = [] → s.colls = [] → s.buckets = [] → (∀ j, j < 4 → (s.job j).commitWaits = false ∧ (s.job j).site ≠ .safing) →
      ∃ t, exec (.switchOver dt) s = .next t ∧ (s.pass dt).only t [])
    ∧ (∀ v, s.boot.handover = some pid → s.work pid = some v → ∃ t, exec (.handoverEnd dt) s = .next t
      ∧ (s.pass dt).answered t v .done 0 s.boot.running.version ∧ t.boot = { s.boot with handover := none, trial := true }
      ∧ (s.pass dt).only t [.windows, .works, .itemMaps, .fetched, .boot, .hostMemory])
    ∧ (s.boot.bringupDone = true → s.boot.runSince + 600000000000 ≤ s.uptime + dt →
      (∃ t, exec (.trialEnd dt) s = .next t ∧ t.boot = { s.boot with trial := false } ∧ (s.pass dt).only t [.boot])
      ∧ (∃ t, exec (.svnFuse dt) s = .next t ∧ (s.boot.trial = true → t.sec = s.sec)
          ∧ (s.boot.trial = false → t.sec = { s.sec with svn := max s.sec.svn (min 64 s.boot.running.svn) }) ∧ (s.pass dt).only t [.sec]))

/-- COLLECTIVE_START looks at the head of one group's queue: nothing happens while there is none, while it has not been taken, or while a
barrier's or a ROWAN_REDUCE's tag is in use. A barrier and a ROWAN_REDUCE leave the queue, use their tag and send their first step's
flits; a bucket starts; a bulk collective whose fence, sources and staging memory allow leaves the queue, starts and sends its data, and
one that is fenced says so; a parameter gather of the generation still to be committed starts and waits for its data, which it sends after
the commit (R24, R188, R311, R322, R323, R326). -/
def Obligations.CollectivesStartInOrder : Prop :=
  ∀ (s : State) (dt slot gnum : Nat), s.stores = [] → slot < 4 →
    let u := s.pass dt
    (s.group slot gnum = none → ∃ t, exec (.collectiveStart dt slot gnum) s = .next t ∧ u.only t [])
    ∧ (∀ g, s.group slot gnum = some g →
      let left (t : State) (w : Work) : Prop := ∀ g', t.group slot gnum = some g' → w.pid ∉ g'.queue
      (s.dataDue slot gnum = none → g.queue.head?.bind s.work = none → ∃ t, exec (.collectiveStart dt slot gnum) s = .next t ∧ u.only t [])
      ∧ (∀ w, s.dataDue slot gnum = some w → (s.colls.filter fun c => c.pid == w.pid).length = 1 →
          let d := w.pkt.cdesc
          let rs := sendRanges (d.sends g.size (g.rank s.fabric.mod) (s.collParts slot d) w.mask)
          (rs.all fun x => s.rangeFetched w.pid x.1 x.2.1 x.2.2) = true →
          s.gated slot (rs.flatMap fun x => s.rangeKeys x.1 x.2.1 x.2.2) = false →
          ∃ t, exec (.collectiveStart dt slot gnum) s = .next t ∧ ∀ c, t.coll w.pid = some c → c.started = true ∧ c.sentAll = true)
      ∧ (∀ w, s.dataDue slot gnum = none → g.queue.head?.bind s.work = some w →
        (w.stage = .handed ∨ (w.pkt.opcode = 0x58 ∧ (s.run (48 + 4 * slot)).isSome = true)
            ∨ (w.pkt.opcode = 0x5A ∧ (s.run w.pkt.rowanTag).isSome = true) →
          ∃ t, exec (.collectiveStart dt slot gnum) s = .next t ∧ u.only t [])
        ∧ (∀ tag serves op v, w.stage ≠ .handed → w.slot = some slot → tag < 64 →
            (w.pkt.opcode = 0x58 ∧ tag = 48 + 4 * slot ∧ serves = .barrier w.pid ∧ op = 3 ∧ v = [u.ftNow, (s.job slot).rampNs, s.ft.releaseLead]
              ∨ w.pkt.opcode = 0x5A ∧ tag = w.pkt.rowanTag ∧ serves = .reduce w.pid ∧ op = w.pkt.rowanOp
                ∧ v = (List.range w.pkt.rowanLanes).map fun i => (w.pkt.pay i).toNat) →
            s.run tag = none → ∃ t, exec (.collectiveStart dt slot gnum) s = .next t ∧ left t w
              ∧ t.tagCount tag (s.job slot).fjob gnum = s.tagCount tag (s.job slot).fjob gnum + 1
              ∧ (g.rings s.fabric.mod ≠ [] → (∀ f, f ∈ s.rowanEarly → f.tag ≠ tag) → 0 < v.length →
                  (∃ r, t.run tag = some r ∧ r.serves = serves ∧ r.op = op ∧ r.v = v ∧ r.step = 1 ∧ r.got = [] ∧ r.inst = s.tagCount tag (s.job slot).fjob gnum
                      ∧ r.sent = r.stepFlits tag s.fabric.mod)
                  ∧ u.only t [.jobs, .rowan, .links, .ports, .fabric]))
        ∧ (∀ b x gt, w.stage ≠ .handed → w.pkt.opcode = 0x59 → w.slot = some slot → w.pkt.bdesc.grp = gnum → w.pkt.group = gnum → s.bucket w.pid = some b →
            b.started = false → (s.buckets.filter fun c => c.pid == w.pid).length = 1 →
            (s.job slot).scaleGroup w.pkt.bdesc.sgroup = some x → s.tensorKept slot w.pkt.bdesc.grad = some gt → gt.spill = none →
            (x.exp.isSome || x.inFlight) = true ∨ s.run (scaleTag slot w.pkt.bdesc.sgroup) = none →
            ∃ t, exec (.collectiveStart dt slot gnum) s = .next t ∧ left t w
              ∧ ∀ b', t.bucket w.pid = some b' → b'.started = true)
        ∧ (∀ c, w.stage ≠ .handed → 0x52 ≤ w.pkt.opcode → w.pkt.opcode ≤ 0x57 → w.slot = some slot → w.pkt.group = gnum →
            s.coll w.pid = some c → (s.colls.filter fun c => c.pid == w.pid).length = 1 → c.started = false →
            let d := w.pkt.cdesc
            let ps := s.collParts slot d
            let rs := sendRanges (d.sends g.size (g.rank s.fabric.mod) ps w.mask)
            (s.fenced w d = true → ∃ t, exec (.collectiveStart dt slot gnum) s = .next t ∧ t.coll w.pid = some { c with fenced := true }
              ∧ (c.fenced = true → u.only t []) ∧ (c.fenced = false → u.replied t w.pkt .epochFencePending false 0 0))
            ∧ (s.fenced w d = false → s.awaitsCommit w = true → ∃ t, exec (.collectiveStart dt slot gnum) s = .next t
                ∧ t.coll w.pid = some { c with started := true, expired := d.lateAt u.ftNow } ∧ left t w ∧ u.only t [.colls, .jobs, .rel])
            ∧ (s.fenced w d = false → s.awaitsCommit w = false → (rs.all fun x => s.rangeFetched w.pid x.1 x.2.1 x.2.2) = true →
                s.gated slot (rs.flatMap fun x => s.rangeKeys x.1 x.2.1 x.2.2) = false →
                (s.canStage d ps = false → ∃ t, exec (.collectiveStart dt slot gnum) s = .next t ∧ u.answered t w .noResource 4 0
                  ∧ t.coll w.pid = none ∧ left t w)
                ∧ (s.canStage d ps = true → ∃ t, exec (.collectiveStart dt slot gnum) s = .next t ∧ left t w
                    ∧ ∀ c', t.coll w.pid = some c' → c'.started = true ∧ c'.sentAll = true)))))

/-- COLLECTIVE_DATA and COLLECTIVE_DEADLINE: a message of a collective that has ended is discarded; a piece is recorded, late when it comes at
or after the deadline, and another with its place is dropped; one that disagrees with its packet fails that with INTERNAL, detail 0x0161;
the deadline ends the waiting of a started collective (R310, R317, R319). -/
def Obligations.CollectiveDataAndDeadlines : Prop :=
  ∀ (s : State) (dt : Nat), s.stores = [] →
    let ready (y : Delivered) : Bool := s.pieceReady y.msg || (s.mismatched y.msg).isSome
    (s.delivered.find? ready = none → ∃ t, exec (.collectiveData dt) s = .next t ∧ (s.pass dt).only t [])
    ∧ (∀ x, s.delivered.find? ready = some x →
      let dropped := dropFirst ready s.delivered
      (s.msgWork x.msg = none → ∃ t, exec (.collectiveData dt) s = .next t ∧ t.delivered = dropped ∧ (s.pass dt).only t [.delivered])
      ∧ (∀ w g c, s.msgWork x.msg = some w → s.work w.pid = some w → s.group (w.slot.getD 0) w.pkt.group = some g → s.coll w.pid = some c →
        let d := w.pkt.cdesc
        let ps := s.collParts (w.slot.getD 0) d
        let k := sizeAt ps (mOffset x.msg)
        let n := (x.msg.len + 1 - 8) / k
        0x54 ≤ d.op → mOpcode x.msg = d.op → d.fits g.size (g.rank s.fabric.mod) ps x.msg n = true → c.unacked ≠ [] →
        (c.got.any fun p => p.phase == mPhase x.msg && p.rank == mRank x.msg && p.offset == mOffset x.msg) = false →
        let late := c.expired || d.lateAt x.stamp
        ∃ t, exec (.collectiveData dt) s = .next t ∧ t.delivered = dropped
          ∧ t.coll w.pid = some { c with
              got := c.got ++ [{ phase := 2, rank := mRank x.msg, offset := mOffset x.msg, elems := wordElems k n (mData x.msg), late := late }]
              late := c.late || late }
          ∧ (late = true → (s.pass dt).only t [.delivered, .colls]))
      ∧ (∀ w g c, s.msgWork x.msg = some w → s.work w.pid = some w → s.group (w.slot.getD 0) w.pkt.group = some g → s.coll w.pid = some c →
          (s.colls.filter fun c => c.pid == w.pid).length = 1 → c.started = true →
        let d := w.pkt.cdesc
        let ps := s.collParts (w.slot.getD 0) d
        let n := (x.msg.len + 1 - 8) / sizeAt ps (mOffset x.msg)
        let there := c.got.any fun p => p.phase == mPhase x.msg && p.rank == mRank x.msg && p.offset == mOffset x.msg
        (mOpcode x.msg = d.op → d.fits g.size (g.rank s.fabric.mod) ps x.msg n = true →
          (there = true → ∃ t, exec (.collectiveData dt) s = .next t ∧ t.delivered = dropped ∧ (s.pass dt).only t [.delivered])
          ∧ (there = false → ∃ t, exec (.collectiveData dt) s = .next t ∧ t.delivered = dropped
              ∧ ∀ c', t.coll w.pid = some c' → ∃ p, p ∈ c'.got ∧ p.phase = mPhase x.msg ∧ p.rank = mRank x.msg ∧ p.offset = mOffset x.msg))
        ∧ (mOpcode x.msg ≠ d.op ∨ d.fits g.size (g.rank s.fabric.mod) ps x.msg n = false → w.tags = [] → w.outs = [] →
            ∃ t, exec (.collectiveData dt) s = .next t ∧ t.delivered = dropped ∧ t.coll w.pid = none
              ∧ (s.pass dt).replied t w.pkt .internal true 0x0161 w.result))
      ∧ (∀ w, s.mismatched x.msg = some w → s.work w.pid = some w → w.pkt.opcode = 0x58 ∨ w.pkt.opcode = 0x5A →
          ∃ t, exec (.collectiveData dt) s = .next t ∧ t.delivered = dropped ∧ (s.pass dt).answered t w .internal 0x0161 0))
    ∧ (∀ pid w c, s.work pid = some w → s.coll pid = some c →
      (c.started = false ∨ c.expired = true ∨ w.pkt.cdesc.lateAt (s.pass dt).ftNow = false →
        ∃ t, exec (.collectiveDeadline dt pid) s = .next t ∧ (s.pass dt).only t [])
      ∧ (c.started = true → c.expired = false → w.pkt.cdesc.lateAt (s.pass dt).ftNow = true → s.delivered = [] → 0x54 ≤ w.pkt.cdesc.op →
          c.unacked ≠ [] → ∃ t, exec (.collectiveDeadline dt pid) s = .next t ∧ t.coll pid = some { c with expired := true }
            ∧ (s.pass dt).only t [.colls])
      ∧ ((s.colls.filter fun c => c.pid == pid).length = 1 → c.started = true → c.expired = false →
          w.pkt.cdesc.lateAt (s.pass dt).ftNow = true →
          ∃ t, exec (.collectiveDeadline dt pid) s = .next t ∧ ∀ c', t.coll pid = some c' → c'.expired = true))

/-- COLLECTIVE_RESEND: a message not acknowledged for 2 ms is sent once more; after another 2 ms its collective fails with INTERNAL, detail
0x0140 (R319). -/
def Obligations.MessagesAreSentTwice : Prop :=
  ∀ (s : State) (dt pid tag : Nat), s.stores = [] →
    (s.sentMsg pid tag = none → ∃ t, exec (.collectiveResend dt pid tag) s = .next t ∧ (s.pass dt).only t [])
    ∧ (∀ e, s.sentMsg pid tag = some e →
      ((s.pass dt).ftNow < e.at_ + 2000000 → ∃ t, exec (.collectiveResend dt pid tag) s = .next t ∧ (s.pass dt).only t [])
      ∧ (e.at_ + 2000000 ≤ (s.pass dt).ftNow → e.resent = false → ∃ t, exec (.collectiveResend dt pid tag) s = .next t
          ∧ t.sentMsg pid tag = some { e with resent := true, at_ := (s.pass dt).ftNow }
          ∧ (s.pass dt).only t [.colls, .buckets, .binds, .links, .ports, .fabric])
      ∧ (∀ w c, e.at_ + 2000000 ≤ (s.pass dt).ftNow → e.resent = true → (∀ y, y ∈ s.bindSent → y.tag ≠ tag) → s.work pid = some w →
          s.coll pid = some c → w.tags = [] → w.outs = [] → w.result = 0 →
          ∃ t, exec (.collectiveResend dt pid tag) s = .next t ∧ t.colls = dropFirst (fun c => c.pid == pid) s.colls
            ∧ (s.pass dt).answered t w .internal 0x0140 0
            ∧ (s.pass dt).only t [.colls, .windows, .works, .jobs, .itemMaps, .fetched, .hostMemory]))

/-- The arithmetic of the reductions: the parts of an ALLREDUCE cut its vector without gap or overlap, and the tree over contributions of
64-bit integers gives their sum modulo 2^64, whatever their order, and their greatest or least as signed numbers (R315). -/
def Obligations.ReductionsOfIntegers : Prop :=
  (∀ c n, 0 < n → partStart c n 0 = 0 ∧ partStart c n n = c
    ∧ (∀ j, j < n → partStart c n j ≤ partStart c n (j + 1))
    ∧ ∀ i, i < c → ∃ j, j < n ∧ partStart c n j ≤ i ∧ i < partStart c n (j + 1))
  ∧ (∀ xs : List Nat, xs.length ≤ 4096 → (∀ x, x ∈ xs → x < 2 ^ 64) → reduceBits 3 0 xs = xs.sum % 2 ^ 64)
  ∧ (∀ xs ys : List Nat, xs.length ≤ 4096 → (∀ x, x ∈ xs → x < 2 ^ 64) → xs.Perm ys → reduceBits 3 0 xs = reduceBits 3 0 ys)
  ∧ (∀ xs : List Nat, xs ≠ [] → xs.length ≤ 4096 → (∀ x, x ∈ xs → x < 2 ^ 64) →
      reduceBits 3 1 xs ∈ xs ∧ (∀ x, x ∈ xs → fromTwos 64 x ≤ fromTwos 64 (reduceBits 3 1 xs))
      ∧ reduceBits 3 2 xs ∈ xs ∧ ∀ x, x ∈ xs → fromTwos 64 (reduceBits 3 2 xs) ≤ fromTwos 64 x)

/-- The owner's adders (R346, R348, R349, R351): a chunk's lanes reach the other end as they were sent; contributions add in any order to the
same sum and residue; a contribution and its negation leave them as they were; a lane that has taken contributions whose sum fits 64 bits
passes its check; and adding a lane changes the buffer's word of that lane and its residue byte so. -/
def Obligations.LanesCarryTheSum : Prop :=
  (∀ qs : List Int, let ws := laneGroups (qs.length + 1) qs
    (lanesIn (ws.length + 1) (ws.map fun x => (x, false))).take qs.length = ownLanes qs)
  ∧ (∀ (v : Nat) (xs ys : List LaneIn), xs.Perm ys →
      xs.foldl (fun v l => laneSum v l 0) v = ys.foldl (fun v l => laneSum v l 0) v ∧ xs.foldl residueSum v = ys.foldl residueSum v)
  ∧ (∀ (v r : Nat) (q : Int) (x y : LaneIn), v < 2 ^ 64 → r < 251 → ownLanes [q] = [x] → ownLanes [-q] = [y] →
      laneSum (laneSum v x 0) y 0 = v ∧ residueSum (residueSum r x) y = r)
  ∧ (∀ qs : List Int, -(2 ^ 63 : Int) ≤ qs.sum → qs.sum < 2 ^ 63 →
      let sum := (ownLanes qs).foldl (fun v l => laneSum v l 0) 0
      fromTwos 64 sum = qs.sum ∧ laneBad sum ((ownLanes qs).foldl residueSum 0) = false)
  ∧ (∀ (s : State) (x : OpCtx) (d : BDesc) (o : OwnerSide) (i : Nat) (l : LaneIn) (e : Int) (p p' : Place) (v r : Word), l.poison = false →
      l.resPoison = false → s.resolve o.bufTile (o.laneOff i) = some p → s.resolve o.bufTile (o.resOff d i) = some p' →
      placeKey p ≠ placeKey p' → s.storedCw p = encodeWord v false → s.storedCw p' = encodeWord r false →
      let t := s.addLane x d o i l e
      let k := 8 * (o.resOff d i % 8)
      t.storedCw p = encodeWord (wd (laneSum v.toNat l e)) false
        ∧ ∃ r', t.storedCw p' = encodeWord r' false ∧ fld r' k 8 = residueSum (fld r k 8) l
          ∧ ∀ n, n < 64 → (n < k ∨ k + 8 ≤ n) → r'.toNat.testBit n = r.toNat.testBit n)

/-- What an owner's bucket takes: a chunk, its own or one that arrives, joins the buffer and the sender's count while the bucket takes chunks
of that member, and one beyond its extents fails the bucket; the bucket closes once everything is in; a VOID notice marks its sender, and
under TRAP fills the poison record; at the deadline the members whose contributions are complete before it are counted, and with fewer
than MIN_COUNT the bucket fails with INTERNAL, detail 0x0170 (R310, R348 to R350, R354, R355, R369). -/
def Obligations.BucketsCollectContributions : Prop :=
  ∀ (s : State) (dt : Nat) (errs : List SilentErr) (b : Bucket) (w : Work) (g : Group) (o : OwnerSide), s.stores = [] →
    s.bucket b.pid = some b → s.work b.pid = some w → s.group (w.slot.getD 0) w.pkt.bdesc.grp = some g → w.pkt.group = w.pkt.bdesc.grp →
    (s.buckets.filter fun c => c.pid == b.pid).length = 1 → b.owner = some o →
    let d := w.pkt.bdesc
    let me := g.rank s.fabric.mod
    let ends (t : State) : Prop := t.bucket b.pid = none
      ∧ (w.tags = [] → w.outs = [] → w.items = [] → s.tensorKept (w.slot.getD 0) d.mask = none → (s.pass dt).replied t w.pkt .internal true 0x0161 o.counted.length)
    -- a chunk of `rank` that reaches the adders, the bucket being `b1` and the state `u`
    let takes (u t : State) (b1 : Bucket) (rank off stamp : Nat) (xs : List LaneIn) : Prop :=
      let o1 := { o with members := o.members.mapIdx fun i m => if i = rank then m.after d off xs.length stamp else m }
      (d.count < off + xs.length → ends t)
      ∧ (off + xs.length ≤ d.count → o.accepts d w.mask rank off = false →
          t.bucket b.pid = some b1 ∧ u.only t [.buckets, .delivered])
      ∧ (off + xs.length ≤ d.count → o.accepts d w.mask rank off = true → o.closed = true →
          (o.counted.contains rank = true ∨ ((lget o.members rank {}).after d off xs.length stamp).added ≠ d.count
            ∨ (lget o.members rank {}).retracted = true) →
          t.bucket b.pid = some { b1 with owner := some o1 } ∧ u.only t ([.buckets, .delivered] ++ Part.movers)
            ∧ ∀ y, cellGet t.mem y = cellGet (u.land (u.addChunkLanes w.dma d o rank off xs errs)).mem y)
      ∧ (off + xs.length ≤ d.count → o.accepts d w.mask rank off = true → o.closed = false → o1.allIn d w.mask = false →
          t.bucket b.pid = some { b1 with owner := some o1 } ∧ u.only t ([.buckets, .delivered] ++ Part.movers)
            ∧ ∀ y, cellGet t.mem y = cellGet (u.land (u.addChunkLanes w.dma d o rank off xs errs)).mem y)
      ∧ (off + xs.length ≤ d.count → o.accepts d w.mask rank off = true → o.closed = false → o1.allIn d w.mask = true →
          ∀ b', t.bucket b.pid = some b' → ∃ o', b'.owner = some o' ∧ o'.closed = true)
    (∀ off qs rest, s.buckets.find? (fun b => !b.ownChunks.isEmpty) = some b → b.ownChunks = (off, qs) :: rest →
      (d.force = true ∨ (s.pass dt).ftNow < d.dl) → ∃ t, exec (.contributionChunk dt true errs) s = .next t
        ∧ takes ((s.pass dt).modBucket b.pid fun b => { b with ownChunks := rest }) t { b with ownChunks := rest } me off (s.pass dt).ftNow (ownLanes qs))
    ∧ (∀ x, s.delivered.find? (fun y => s.chunkReady y.msg) = some x → s.msgWork x.msg = some w → (d.force = true ∨ x.stamp < d.dl) →
      let ws := mData x.msg
      ∃ t, exec (.contributionChunk dt false errs) s = .next t
        ∧ takes { s.pass dt with delivered := dropFirst (fun y => s.chunkReady y.msg) s.delivered } t b (mRank x.msg) (mOffset x.msg) x.stamp
            ((lanesIn (ws.length + 1) ws).take ((x.msg.len + 1 - 8) / 72 * 8)))
    ∧ (∀ x, s.delivered.find? (fun y => s.noticeReady 0x20 true y.msg) = some x → s.noticeWork x.msg = some w → d.force = false →
      x.stamp < d.dl →
      let r := g.rank x.msg.src
      let o1 := { o with members := o.members.mapIdx fun i m => if i = r then
        { m with voided := true, voidElem := fld (noticeWords x.msg).1 0 32, voidPoison := bitOf (noticeWords x.msg).1 32 } else m }
      (o.closed = false → o1.allIn d w.mask = false → ∃ t, exec (.voidNotice dt) s = .next t ∧ t.bucket b.pid = some { b with owner := some o1 }
        ∧ (d.excl = true → (s.pass dt).only t [.buckets, .delivered])
        ∧ (d.excl = false → w.slot.getD 0 < 4 → (t.job (w.slot.getD 0)).stp.poisonTrap = true ∧ (s.pass dt).only t [.buckets, .delivered, .jobs]
            ∧ ((s.job (w.slot.getD 0)).stp.poisonTrap = false → (t.job (w.slot.getD 0)).stp.poisonRec =
                { bucket := d.num, rank := r, mod := g.memberOf r, step := w.step, ft := x.stamp, element := fld (noticeWords x.msg).1 0 32
                  poisoned := bitOf (noticeWords x.msg).1 32 })))
      ∧ (o.closed = false → o1.allIn d w.mask = true → ∃ t, exec (.voidNotice dt) s = .next t
        ∧ ∀ b', t.bucket b.pid = some b' → ∃ o', b'.owner = some o' ∧ o'.closed = true)
      ∧ (o.closed = true → ∃ t, exec (.voidNotice dt) s = .next t ∧ t.buckets = s.buckets ∧ (s.pass dt).only t [.delivered, .jobs]))
    ∧ (d.force = false → d.dl ≤ (s.pass dt).ftNow → o.closed = false → w.slot.getD 0 < 4 →
      let ranked := o.members.mapIdx fun i m => (i, m)
      let counted := (ranked.filter fun x => d.counts w.mask x.1 x.2).map Prod.fst
      (∃ t, exec (.bucketDeadline dt b.pid) s = .next t ∧ ∀ b', t.bucket b.pid = some b' → ∃ o', b'.owner = some o' ∧ o'.closed = true)
      ∧ (s.delivered = [] → (∀ m, m ∈ o.members → m.voided = false) → d.min_ ≤ counted.length →
          (∀ x, x ∈ ranked → x.1 ∉ counted → x.2.added ≠ d.count) → ∃ t, exec (.bucketDeadline dt b.pid) s = .next t
          ∧ t.bucket b.pid = some { b with owner := some { o with closed := true, counted := counted } }
          ∧ (t.job (w.slot.getD 0)).stp.late = min 65535 ((s.job (w.slot.getD 0)).stp.late + (o.members.length - counted.length))
          ∧ (s.pass dt).only t [.buckets, .jobs])
      ∧ (s.delivered = [] → (∀ m, m ∈ o.members → m.voided = false) → counted.length < d.min_ → o.failed = none →
          s.tensorKept (w.slot.getD 0) d.mask = none → w.tags = [] → w.outs = [] →
          ∃ t, exec (.bucketDeadline dt b.pid) s = .next t ∧ t.buckets = dropFirst (fun c => c.pid == b.pid) s.buckets
          ∧ (s.pass dt).answered t w .internal 0x0170 counted.length))
    ∧ ((s.pass dt).ftNow < d.dl ∨ d.force = true ∨ o.closed = true ∧ s.delivered = [] →
        ∃ t, exec (.bucketDeadline dt b.pid) s = .next t ∧ (s.pass dt).only t [])

/-- A member that receives RETRACT or RECOLLECT sends its chunks again, one message for each 448 elements, or fails its bucket where it may
not read the gradient; notices of buckets that have ended are discarded (R343, R347, R351, R487). OUTCOME at a member: the bucket ends
with the owner's status and count (R354, R371, R449). -/
def Obligations.MembersAnswerTheOwner : Prop :=
  (∀ (s : State) (dt : Nat), s.stores = [] →
    (∀ x, s.delivered.find? (fun y => s.noticeReady 0x21 false y.msg) = some x → s.noticeWork x.msg = none →
      ∃ t, exec (.retractNotice dt) s = .next t ∧ (s.pass dt).only t [.delivered])
    ∧ (∀ x, s.delivered.find? (fun y => s.noticeReady 0x23 false y.msg) = some x → s.noticeWork x.msg = none →
      ∃ t, exec (.recollectNotice dt) s = .next t ∧ (s.pass dt).only t [.delivered])
    ∧ (∀ x, s.delivered.find? (fun y => s.noticeReady 0x20 true y.msg) = some x → s.noticeWork x.msg = none →
      ∃ t, exec (.voidNotice dt) s = .next t ∧ (s.pass dt).only t [.delivered])
    ∧ (∀ x w b g u e gt, s.noticeWork x.msg = some w → s.work w.pid = some w → s.bucket w.pid = some b →
      (s.buckets.filter fun c => c.pid == w.pid).length = 1 → s.group (w.slot.getD 0) w.pkt.group = some g → w.pkt.bdesc.grp = w.pkt.group →
      (s.job (w.slot.getD 0)).scaleGroup w.pkt.bdesc.sgroup = some u → u.exp = some e →
      s.tensorKept (w.slot.getD 0) w.pkt.bdesc.grad = some gt →
      let d := w.pkt.bdesc
      let sent (t : State) : Prop :=
        (s.gradDenied w d d.off d.count = none → ∃ b', t.bucket w.pid = some b'
          ∧ (g.rank s.fabric.mod ≠ d.owner → b'.unacked.length = b.unacked.length + (d.count + 447) / 448)
          ∧ (g.rank s.fabric.mod = d.owner → b'.ownChunks.length = b.ownChunks.length + (d.count + 447) / 448)
          ∧ (s.pass dt).only t (Part.movers ++ [.remotes, .buckets, .delivered]))
        ∧ (s.gradDenied w d d.off d.count ≠ none → g.rank s.fabric.mod ≠ d.owner → t.bucket w.pid = none
          ∧ ∃ detail, (s.pass dt).replied t w.pkt .internal true detail 0)
      (s.delivered.find? (fun y => s.noticeReady 0x21 false y.msg) = some x → ∃ t, exec (.retractNotice dt) s = .next t ∧ sent t)
      ∧ (s.delivered.find? (fun y => s.noticeReady 0x23 false y.msg) = some x → ∃ t, exec (.recollectNotice dt) s = .next t ∧ sent t))) ∧
  (∀ (s : State) (dt : Nat) (x : Delivered), s.stores = [] →
    s.delivered.find? (fun y => s.noticeReady 0x22 false y.msg) = some x →
    (s.noticeWork x.msg = none → ∃ t, exec (.outcomeNotice dt) s = .next t
      ∧ t.delivered = dropFirst (fun y => s.noticeReady 0x22 false y.msg) s.delivered ∧ (s.pass dt).only t [.delivered])
    ∧ (∀ w g, s.noticeWork x.msg = some w → s.work w.pid = some w → s.group (w.slot.getD 0) w.pkt.group = some g →
      let w1 := (noticeWords x.msg).1
      let st := outcomeStatus (fld w1 33 8)
      let detail := if st = .checkMismatch then 0x0170
        else if st = .internal then (if noticeByReset x.msg then 0x0010 else if fld w1 41 13 < w.pkt.bdesc.min_ then 0x0170 else 0) else 0
      ∃ t, exec (.outcomeNotice dt) s = .next t
        ∧ (s.pass dt).answered t w st detail (fld w1 41 13)
        ∧ t.buckets = dropFirst (fun b => b.pid == w.pid) s.buckets
        ∧ (s.pass dt).only t [.windows, .works, .jobs, .pageMap, .itemMaps, .fetched, .buckets, .rowan, .delivered, .hostMemory]))

/-- The owner's check and the optimizer: lanes that all pass give the mean gradients; a lane that fails makes a re-collection, and a second
time fails the bucket with CHECK_MISMATCH, detail 0x0170; the optimizer waits for a shadow copy under STALL, for gathers and for an
available core, reads its program, and starts or fails; when it has finished, the bucket ends and the packet answers the count of the
contributions, at once or once its writes to other modules are acknowledged (R189, R351 to R354, R379, R538). -/
def Obligations.OwnersCheckAndOptimize : Prop :=
  ∀ (s : State) (dt pid : Nat) (errs : List SilentErr) (w : Work) (b : Bucket) (o : OwnerSide) (g : Group), s.stores = [] →
    s.work pid = some w → s.bucket pid = some b → (s.buckets.filter fun c => c.pid == pid).length = 1 →
    (s.works.filter fun v => v.pid == pid).length = 1 → b.owner = some o → s.group (w.slot.getD 0) w.pkt.bdesc.grp = some g →
    let j := w.slot.getD 0
    let d := w.pkt.bdesc
    let m := (s.pass dt).finishMoves
    m.work pid = some w →
    (∀ u e, (s.job j).scaleGroup d.sgroup = some u → u.exp = some e →
      let r := m.readWords o.bufTile o.base w.dma (bufferWords d g.size)
      (o.settled d = false ∨ o.mean.isSome = true ∨ s.ownerCore j o = none →
        ∃ t, exec (.laneCheck dt pid) s = .next t ∧ (s.pass dt).only t [])
      ∧ (∀ core, o.settled d = true → o.mean = none → s.ownerCore j o = some core → bufferFlaw r.1 d.count = none →
          ∃ t, exec (.laneCheck dt pid) s = .next t
          ∧ t.bucket pid = some { b with owner := some { o with
              mean := some ((meanOf (laneSums r.1 d.count) o.counted.length g.prec e).map fun q => q.bits)
              core := core, replayed := decide (o.collects ≠ 0) } }
          ∧ (s.pass dt).only t (Part.movers ++ [.buckets]))
      ∧ (∀ core i, o.settled d = true → o.mean = none → s.ownerCore j o = some core → bufferFlaw r.1 d.count = some i → o.collects = 0 → j < 4 →
          ∃ t, exec (.laneCheck dt pid) s = .next t ∧ (t.job j).stp.recollect = min 65535 ((s.job j).stp.recollect + 1)
            ∧ ∀ b', t.bucket pid = some b' → ∃ o', b'.owner = some o' ∧ o'.collects = 1 ∧ o'.closed = true)
      ∧ (∀ core i, o.settled d = true → o.mean = none → s.ownerCore j o = some core → bufferFlaw r.1 d.count = some i → o.collects ≠ 0 →
          s.tensorKept j d.mask = none → w.tags = [] → w.outs = [] → w.items = [] →
          ∃ t, exec (.laneCheck dt pid) s = .next t ∧ t.buckets = dropFirst (fun c => c.pid == pid) s.buckets
            ∧ (s.pass dt).replied t w.pkt .checkMismatch true 0x0170 o.counted.length))
    ∧ (∀ h, s.bucketShard w d = some h →
      (o.mean = none ∨ o.program.isSome = true ∨ s.gatherReads j h = true ∨ (s.copyInWay j = true ∧ (s.job j).shadow.stall = true)
          ∨ s.ownerCore j o = none → ∃ t, exec (.optimizerStart dt pid) s = .next t ∧ (s.pass dt).only t [])
      ∧ (∀ core, o.mean.isSome = true → o.program = none → s.gatherReads j h = false → (s.copyInWay j && (s.job j).shadow.stall) = false →
          s.ownerCore j o = some core → w.outs = [] →
          (∀ u, (s.pass dt).fetchRanges (w.ctx core) (s.optReads w h d) = some u →
            ∃ t, exec (.optimizerStart dt pid) s = .next t ∧ t.buckets = s.buckets ∧ t.remotes = u.remotes)
          ∧ ((s.pass dt).fetchRanges (w.ctx core) (s.optReads w h d) = none →
            let n := if m.copyInWay j then m.endCopy j else m
            let found := n.tensors.find? fun t => t.num == h.prog && t.slot == j
            n.work pid = some w →
            (found = none → n.tensorKept j d.mask = none → w.tags = [] → ∃ t, exec (.optimizerStart dt pid) s = .next t
              ∧ n.answered t w .internal 0x0118 o.counted.length)
            ∧ (∀ pt, found = some pt → n.tensorCheck (w.ctx core) .read pt pt.bytes = none →
                let q := n.steer pt core pt.bytes (w.ctx core)
                let sound := pt.bytes % 16 = 0 ∧ 16 ≤ pt.bytes ∧ pt.bytes ≤ 16384 ∧ vprogramOk h.argCount q.words = true
                  ∧ vreduceOk h.argCount (vprogram q.words) = true
                (q.bad = false → sound → ∃ t, exec (.optimizerStart dt pid) s = .next t
                  ∧ t.bucket pid = some { b with owner := some { o with program := some q.words, core := core, replayed := o.replayed || q.reread } }
                  ∧ (m.copyInWay j = false → (s.pass dt).only t (Part.movers ++ [.buckets])))
                ∧ (q.bad = true ∨ ¬ sound → ∃ t, exec (.optimizerStart dt pid) s = .next t ∧ t.bucket pid = none))))
      ∧ (o.program = none ∨ s.ownerCore j o = none → ∃ t, exec (.optimizerDone dt pid errs) s = .next t ∧ (s.pass dt).only t [])
      ∧ (∀ words core, o.program = some words → s.ownerCore j o = some core → ∃ t, exec (.optimizerDone dt pid errs) s = .next t
          ∧ t.bucket pid = none
          ∧ (t.work pid = none ∧ (∃ st detail, (s.pass dt).replied t w.pkt st true detail o.counted.length)
              ∨ ∃ v, t.work pid = some v ∧ v.stage = .waiting ∧ v.result = o.counted.length ∧ v.tags ≠ [])
          ∧ (s.pass dt).only t (Part.movers ++ [.windows, .hostMemory, .itemMaps, .fetched, .remotes, .buckets, .rowan])))

/-- Fabric Time: an FTSYNC edge within 0.5 µs of a millisecond boundary gives the offset estimate and another is counted as rejected; a time
message of the fabric manager or a locked neighbour sets an UNSET module; a time-transfer request is answered with its stamps, and an
answer gives the offset; a millisecond locks, holds or drifts, slews by at most 50 ns and asks every neighbour; the reference's loss and
return change the lock state (R28, R30 to R36, R435). -/
def Obligations.TimeIsKept : Prop :=
  (∀ ps : Int, (ps + msOffset ps) % msPs = 0 ∧ -(msPs : Int) ≤ 2 * msOffset ps ∧ 2 * msOffset ps ≤ msPs)
  ∧ (∀ e : Int, -50000 ≤ slewFor e ∧ slewFor e ≤ 50000 ∧ (-50000 ≤ e → e ≤ 50000 → slewFor e = e))
  ∧ ∀ (s : State) (dt : Nat), s.stores = [] → let u := s.pass dt
    (∀ err, s.ftRuns = true →
      ((msOffset ((u.ft.ps : Int) + err)).natAbs ≤ 500000 → ∃ t, exec (.ftsyncEdge dt err) s = .next t
        ∧ t.ft = { u.ft with edgePs := some (msOffset ((u.ft.ps : Int) + err)) } ∧ u.only t [.ft])
      ∧ (500000 < (msOffset ((u.ft.ps : Int) + err)).natAbs → ∃ t, exec (.ftsyncEdge dt err) s = .next t
        ∧ t.ft = { u.ft with rejected := min 65535 (s.ft.rejected + 1) } ∧ u.only t [.ft]))
    ∧ (s.delivered.find? (fun d => isTimeMessage d.msg) = none → ∃ t, exec (.timeMessage dt) s = .next t ∧ u.only t [])
    ∧ (∀ x ft src, s.delivered.find? (fun d => isTimeMessage d.msg) = some x → x.msg.ctl = .time ft src →
      ∃ t, exec (.timeMessage dt) s = .next t ∧ t.delivered = dropFirst (fun d => isTimeMessage d.msg) s.delivered
        ∧ (s.ft.state = .unset → s.ft.refPresent = true → (src = .manager ∨ src = .neighbour true) →
            t.ft.state = .acquiring ∧ t.ft.ps = 1000 * ft)
        ∧ (s.ft.state ≠ .unset ∨ s.ft.refPresent = false ∨ src = .neighbour false → t.ft = u.ft) ∧ u.only t [.ft, .delivered])
    ∧ (∀ (l : Nat) (e : Exchange), l < 18 →
      (s.delivered.find? (isTransfer l e) = none → ∃ t, exec (.timeTransfer dt l e.t1 e.t2 e.t3 e.t4 e.locked e.hops) s = .next t ∧ u.only t [])
      ∧ (∀ x, s.delivered.find? (isTransfer l e) = some x →
        (s.ftRuns = false → ∃ t,
          exec (.timeTransfer dt l e.t1 e.t2 e.t3 e.t4 e.locked e.hops) s = .next t
          ∧ t.delivered = dropFirst (isTransfer l e) s.delivered
          ∧ u.only t [.delivered])
        ∧ (∀ t1, s.ftRuns = true → x.msg.ctl = .xferReq t1 → ∃ t,
          exec (.timeTransfer dt l e.t1 e.t2 e.t3 e.t4 e.locked e.hops) s = .next t
          ∧ t.delivered = dropFirst (isTransfer l e) s.delivered ∧ u.only t [.delivered, .links]
          ∧ ((s.link l).st = .up → t.link l = (s.link l).transmit u.uptime { via := none, msg := { u.blank .control 0 with
              ctl := .xferAns t1 x.stamp u.ftNow (decide (s.ft.state = .locked)) u.syncHops } })
          ∧ ((s.link l).st ≠ .up → t.link l = s.link l))
        ∧ (∀ t1 t2 t3 locked hops, s.ftRuns = true → x.msg.ctl = .xferAns t1 t2 t3 locked hops → ∃ t,
          exec (.timeTransfer dt l e.t1 e.t2 e.t3 e.t4 e.locked e.hops) s = .next t
          ∧ t.delivered = dropFirst (isTransfer l e) s.delivered
          ∧ vget t.ft.links l = { vget s.ft.links l with
              offsetPs := transferOffset (1000 * t1) (1000 * t2) (1000 * t3) (1000 * x.stamp) (vget s.ft.links l).asymPs, measured := true
              at_ := u.uptime, peerLocked := locked, hops := hops }
          ∧ t.ft = { u.ft with links := t.ft.links } ∧ u.only t [.ft, .delivered])))
    ∧ (∀ w tiles, s.ftRuns = true → u.onGrid 1000000 = true →
      ∃ t, exec (.ftMillisecond dt w tiles) s = .next t
        ∧ t.power.inputW = w
        ∧ t.power.overruns = (if 102 * s.power.cap < 100 * w then min 65535 (s.power.overruns + 1) else s.power.overruns)
        ∧ (∀ src l e, u.estimate = (src, l, some e) → s.ft.state = .locked → t.ft.state = .locked ∧ t.ft.slewPs = slewFor e
            ∧ e.natAbs ≤ t.ft.boundPs ∧ t.ft.boundPs ≤ e.natAbs + 2500)
        ∧ (∀ l, u.estimate = (.none, l, none) → s.ft.state = .locked → t.ft.state = .holdover ∧ t.ft.slewPs = 0
            ∧ t.ft.boundPs = s.ft.boundPs)
        ∧ (∀ src l, u.estimate = (src, l, none) → s.ft.state = .holdover → t.ft.state = .holdover
            ∧ t.ft.boundPs = s.ft.boundPs + 500 + s.ft.driftPs)
        ∧ (∀ src l e, u.estimate = (src, l, some e) → s.ft.state = .holdover → s.ft.outOfLock = false → msPs < e.natAbs →
            t.ft.outOfLock = true ∧ t.ft.unsynced = true)
        ∧ (∀ src l e, u.estimate = (src, l, some e) → s.ft.state = .holdover → s.ft.outOfLock = false → e.natAbs ≤ msPs →
            t.ft.state = .locked ∧ t.ft.slewPs = slewFor e)
        ∧ (∀ src l e, u.estimate = (src, l, some e) → s.ft.state = .acquiring → s.ft.refPresent = true →
            (e.natAbs ≤ 10000 → 15 ≤ s.ft.quiet → t.ft.state = .locked) ∧ (10000 < e.natAbs → t.ft.state = .acquiring ∧ t.ft.quiet = 0))
        ∧ (s.ft.state = .freerun → t.ft.state = .freerun ∧ t.ft.boundPs = s.ft.boundPs + 20000)
        ∧ (∀ l, l < 18 → t.link l = if (s.link l).st = .up then
              (s.link l).transmit u.uptime { via := none, msg := { u.blank .control 0 with ctl := .xferReq u.ftNow } } else s.link l)
        ∧ u.only t [.ft, .power, .links])
    ∧ (∀ w tiles, s.ftRuns = false ∨ u.onGrid 1000000 = false → ∃ t, exec (.ftMillisecond dt w tiles) s = .next t ∧ u.only t [])
    ∧ (s.ft.refPresent = true → ∃ t, exec (.referenceLoss dt) s = .next t ∧ t.ft.refPresent = false
        ∧ (s.ft.state = .locked ∨ s.ft.state = .holdover → t.ft.state = .freerun) ∧ (s.ft.state = .acquiring → t.ft.state = .acquiring)
        ∧ t.cxl.linkUp = (s.cxl.linkUp && decide (s.boot.strapClk ≠ 2)) ∧ u.only t [.ft, .hostLink])
    ∧ (∃ t, exec (.referenceReturn dt) s = .next t ∧ t.ft.refPresent = true ∧ (s.ft.state ≠ .freerun → t.ft = { u.ft with refPresent := true })
        ∧ (s.ft.state = .freerun → t.ft.state = if s.ft.outOfLock then .holdover else
            match u.estimate.2.2 with
            | some e => if e.natAbs ≤ msPs then .locked else .holdover
            | none => if s.ft.silentMs < 3 then .locked else .holdover)
        ∧ u.only t [.ft])

/-- A shadow copy writes its sections and then its record, which names its generation, and waits for what it reads and writes over the fabric;
a slot of a barrier's ramp starts the released work of its cores and nothing before it does (R49, R50, R378, R380). -/
def Obligations.CopiesFinishAndSlotsBegin : Prop :=
  ∀ (s : State) (dt slot : Nat), s.stores = [] → slot < 4 →
    let waits : Bool := s.remotes.any fun r => r.pid == some (shadowPid slot)
    let h := (s.job slot).shadow
    let recorded (t : State) (c : ShadowCopy) : Prop := (t.job slot).shadow.copy = none ∧ (t.job slot).shadow.records = h.records + 1
      ∧ (t.job slot).shadow.lastRec = some c.gen ∧ (t.job slot).shadow.lastGen = c.gen
    (h.copy = none ∨ waits = true ∨ (h.fabric = false ∧ s.cxlOpen = false) →
      ∃ t, exec (.shadowCopyDone dt slot) s = .next t ∧ (s.pass dt).only t [])
    ∧ (∀ c, h.copy = some c → waits = false → (h.fabric = true ∨ s.cxlOpen = true) →
      (c.issued.isSome = true → c.failed = false → ∃ t, exec (.shadowCopyDone dt slot) s = .next t ∧ recorded t c)
      ∧ (c.issued = none ∨ c.failed = true → s.copyDenied slot c.gen = none →
        (∀ u, (s.pass dt).fetchRanges (s.shadowCtx slot) (s.copyReads slot c.gen) = some u →
          ∃ t, exec (.shadowCopyDone dt slot) s = .next t ∧ t.jobs = s.jobs ∧ t.remotes = u.remotes)
        ∧ ((s.pass dt).fetchRanges (s.shadowCtx slot) (s.copyReads slot c.gen) = none → ∃ t, exec (.shadowCopyDone dt slot) s = .next t
          ∧ (recorded t c ∨ ∃ d, (t.job slot).shadow.copy = some d ∧ d.gen = c.gen ∧ d.issued.isSome = true)
          ∧ (h.fabric = false → recorded t c ∧ (s.pass dt).only t (Part.movers ++ [.hostMemory, .fetched])))))
    ∧ (let u := (s.pass dt).settleWindows
      (∀ k, (∀ r, u.ramps.find? (fun r => r.slot == slot) = some r → u.ftNow < r.release + k * r.width) →
        ∃ t, exec (.barrierSlot dt slot k) s = .next t ∧ u.only t [])
      ∧ (∀ k r, u.ramps.find? (fun r => r.slot == slot) = some r → r.release + k * r.width ≤ u.ftNow →
        (u.works.map fun w => w.pid).Nodup → (∀ w, w ∈ u.works → (w.items.map fun i => i.num).Nodup) →
        ∃ t, exec (.barrierSlot dt slot k) s = .next t
          ∧ (∀ g, g < 512 → rampSlot g = k → u.nextItem g ≠ none → t.busy g = true)
          ∧ (∀ g, rampSlot g ≠ k → t.busy g = u.busy g)
          ∧ u.only t [.works, .threads, .power]))

/-- Links: light lets an enabled link that is down train; training ends up at the width its lanes reach, or down; a lane's fault on a
four-lane link makes it train again on a pair, a second pair's fault takes it down; ENABLE, PORT and RETRAIN do what a write of each says
(R278, R283 to R285, R300). -/
def Obligations.LinksTrainAndFail : Prop :=
  ∀ (s : State) (dt l : Nat), s.stores = [] → l < 18 →
    let k := s.link l
    let others (t : State) : Prop := ∀ m, m ≠ l → t.link m = s.link m
    (∀ lane, lane < 4 → s.linksRun = true →
      let b := k.lanesBad &&& (15 - 2 ^ lane)
      ∃ t, exec (.lightDetect dt l lane) s = .next t ∧ (t.link l).light = true ∧ (t.link l).lanesBad = b
        ∧ (k.enable = true → k.retired = false → k.st = .down → ({ k with lanesBad := b } : Link).trainWidth ≠ 0 → (t.link l).st = .training)
        ∧ (k.enable = false ∨ k.retired = true ∨ k.st ≠ .down → (t.link l).st = k.st) ∧ others t ∧ (s.pass dt).only t [.links])
    ∧ (∀ pm pl pv, s.linksRun = true → k.st = .training →
      (k.goalWidth ≠ 0 → ∃ t, exec (.trainingDone dt l true pm pl pv) s = .next t ∧ (t.link l).st = .up ∧ (t.link l).width = k.goalWidth
        ∧ (t.link l).peerModule = pm % 4096 ∧ (t.link l).peerLink = pl % 32 ∧ (t.link l).peerValid = pv
        ∧ (s.pass dt).only t [.links, .ports, .fabric])
      ∧ (∀ ok, ok = false ∨ k.goalWidth = 0 → ∃ t, exec (.trainingDone dt l ok pm pl pv) s = .next t ∧ (t.link l).st = .down ∧ (t.link l).failedTraining = true
        ∧ (t.link l).width = 0 ∧ others t ∧ (s.pass dt).only t [.links]))
    ∧ (s.linksRun = true → k.failedTraining = true → k.enable = true → k.retired = false → k.st = .down → k.light = true → k.trainWidth ≠ 0 →
      ∃ t, exec (.trainingRetry dt l) s = .next t ∧ t.link l = { k with st := .training, failedTraining := false, pair := 0 } ∧ others t
        ∧ (s.pass dt).only t [.links])
    ∧ (∀ lane, lane < 4 → s.linksRun = true → k.lanesBad &&& 2 ^ lane = 0 →
      let bad := k.lanesBad ||| 2 ^ lane
      let k1 : Link := { k with lanesBad := bad }
      (k.st = .up → k.width = 3 → k1.cleanPair ≠ 0 → ∃ t, exec (.laneFault dt l lane) s = .next t
        ∧ ((t.link l).st = .training ∨ (t.link l).st = .off) ∧ (t.link l).widthDrop = true ∧ (t.link l).lanesBad = bad
        ∧ (∃ e, e ∈ t.rel.hist ∧ e.unit = .link l ∧ e.mech = 9)
        ∧ (s.pass dt).only t [.works, .jobs, .pageMap, .staged, .memErr, .threads, .links, .ports, .fabric, .rel])
      ∧ (k.st = .up → k.width ≠ 3 ∨ k1.cleanPair = 0 → ∃ t, exec (.laneFault dt l lane) s = .next t
        ∧ ((t.link l).st = .down ∨ (t.link l).st = .off) ∧ (∃ e, e ∈ t.rel.hist ∧ e.unit = .link l ∧ e.mech = 10)
        ∧ (s.pass dt).only t [.works, .jobs, .pageMap, .staged, .memErr, .threads, .links, .ports, .fabric, .rel])
      ∧ (k.st = .training → ∃ t, exec (.laneFault dt l lane) s = .next t ∧ (t.link l).lanesBad = bad
        ∧ (k1.goalWidth ≠ 0 → (t.link l).st = .training) ∧ (k.pair = 0 → k1.goalWidth = 0 → (t.link l).st = .down) ∧ others t
        ∧ (s.pass dt).only t [.links])
      ∧ (k.st = .down ∨ k.st = .off → ∃ t, exec (.laneFault dt l lane) s = .next t
        ∧ t.link l = { k with lanesBad := bad, laneFault := k.laneFault ||| 2 ^ lane } ∧ others t ∧ (s.pass dt).only t [.links]))
    ∧ (s.registersRun = true → k.st = .up → k.lanesBad % 16 = 0 → ∃ t, exec (.linkRetrain dt l) s = .next t ∧ (t.link l).st = .training
      ∧ (t.link l).width = 0 ∧ (s.pass dt).only t [.links, .ports, .fabric])
    ∧ (s.registersRun = true → ∃ t, exec (.linkEnable dt l false) s = .next t ∧ (t.link l).enable = false ∧ (t.link l).st = .off
      ∧ (s.pass dt).only t [.links, .ports, .fabric])
    ∧ (s.registersRun = true → ∃ t, exec (.linkEnable dt l true) s = .next t ∧ (t.link l).enable = true
      ∧ (k.st = .off → k.retired = false → k.light = true → k.trainWidth ≠ 0 → (t.link l).st = .training)
      ∧ (k.st = .off → k.retired = false → (k.light = false ∨ k.trainWidth = 0) → (t.link l).st = .down)
      ∧ (k.st = .off → k.retired = true → (t.link l).st = .off) ∧ (k.st ≠ .off → (t.link l).st = k.st) ∧ others t ∧ (s.pass dt).only t [.links])
    ∧ (∀ p, s.registersRun = true → (17 < p → ∃ t, exec (.linkPort dt l p) s = .next t ∧ (s.pass dt).only t [])
      ∧ (p < 18 → ∃ t, exec (.linkPort dt l p) s = .next t ∧ (t.link l).port = p ∧ (s.pass dt).only t [.links, .ports, .fabric]))

/-- What links carry: a codeword in sequence is taken, acknowledged and acknowledges, one that is damaged is counted and asked for again; 2 µs
without an acknowledgement are counted; new transit is forwarded with a new number, or discarded and counted; a port's hold ends once what
it waits for is acknowledged (R272, R274, R278, R281, R282, R294, R298). -/
def Obligations.LinksCarryMessages : Prop :=
  ∀ (s : State) (dt l : Nat), s.stores = [] → l < 18 → s.linksRun = true →
    let k := s.link l
    (∀ c seq ack nak rowan worst, seq < 512 → ack < 512 → k.st = .up →
      (∃ t, exec (.bulkCodeword dt l false c seq ack ⟨nak, rowan⟩ worst) s = .next t ∧ (t.link l).cwUncorr = min (2 ^ 32 - 1) (k.cwUncorr + 1)
        ∧ (t.link l).nak = true ∧ (t.link l).rxNext = k.rxNext ∧ (∃ e, e ∈ t.rel.hist ∧ e.unit = .link l ∧ e.mech = 11)
        ∧ (s.pass dt).only t [.works, .jobs, .pageMap, .staged, .memErr, .threads, .links, .ports, .fabric, .rel])
      ∧ (seq ≠ k.rxNext → ∃ t, exec (.bulkCodeword dt l true c seq ack ⟨nak, rowan⟩ worst) s = .next t
        ∧ t.link l = { k with cwCorrected := min (2 ^ 32 - 1) (k.cwCorrected + b2n c), rowanNext := rowan } ∧ (s.pass dt).only t [.links])
      ∧ (seq = k.rxNext → ∃ t, exec (.bulkCodeword dt l true c seq ack ⟨nak, rowan⟩ worst) s = .next t
        ∧ (t.link l).rxNext = (seq + 1) % 512 ∧ (t.link l).rxAck = seq ∧ (t.link l).nak = false ∧ (t.link l).rowanNext = rowan
        ∧ (t.link l).replays = (if nak then min 65535 (k.replays + 1) else k.replays)
        ∧ (∀ x, x ∈ k.unacked → x ∉ ackedUpTo k.unacked ack → k.waiting = [] → (s.port k.port).held = [] → x ∉ (t.link l).unacked)
        ∧ (s.pass dt).only t [.links, .ports]))
    ∧ (k.st = .up → k.unacked ≠ [] → k.ackAt + 2000 ≤ s.uptime + dt → ∃ t, exec (.replayTimeout dt l) s = .next t
      ∧ t.link l = { k with replays := min 65535 (k.replays + 1), ackAt := s.uptime + dt } ∧ (s.pass dt).only t [.links])
    ∧ (k.st ≠ .up ∨ k.unacked = [] ∨ s.uptime + dt < k.ackAt + 2000 → ∃ t, exec (.replayTimeout dt l) s = .next t ∧ (s.pass dt).only t [])
    ∧ (∀ m, k.st ≠ .up ∨ s.formed k.port = false ∨ (isPeerMsg m = false ∧ (s.port k.port).seen.contains m.pseq = true) →
      ∃ t, exec (.transitMessage dt l m) s = .next t ∧ (s.pass dt).only t [])
    ∧ (∀ m, k.st = .up → s.formed k.port = true → isPeerMsg m = true ∨ (s.port k.port).seen.contains m.pseq = false →
      let taken (t : State) : Prop := isPeerMsg m = true ∨ (t.port k.port).seen.contains m.pseq = true ∨ 18 ≤ k.port
      let drops (t : State) (k' : Link) : Prop := t.link l = k' ∧ taken t ∧ (s.pass dt).only t [.links, .ports]
      (m.dest = s.fabric.mod → ∃ t, exec (.transitMessage dt l m) s = .next t ∧ drops t k)
      ∧ (m.dest ≠ s.fabric.mod → s.fabric.modValid = false ∨ s.fabric.legacy = true → ∃ t, exec (.transitMessage dt l m) s = .next t
        ∧ drops t { k with transitDrop := min 65535 (k.transitDrop + 1) })
      ∧ (m.dest ≠ s.fabric.mod → s.fabric.modValid = true → s.fabric.legacy = false →
        (s.outPort m.dest = none → ∃ t, exec (.transitMessage dt l m) s = .next t
          ∧ drops t { k with unreachDrop := min 65535 (k.unreachDrop + 1) })
        ∧ (∀ p, s.outPort m.dest = some p →
          let allowed : Prop := s.fabric.transitEn = true ∧ (m.vc = 0 ∨ ∃ r, r ∈ s.fabric.res.toList ∧ r.hits m.job k.port p = true)
          (¬ allowed → ∃ t, exec (.transitMessage dt l m) s = .next t ∧ drops t { k with transitDrop := min 65535 (k.transitDrop + 1) })
          ∧ (allowed → ∃ t, exec (.transitMessage dt l m) s = .next t ∧ (t.port p).pseq = ((s.port p).pseq + 1) % 2 ^ 32
              ∧ (t.link l).transitDrop = k.transitDrop ∧ (t.link l).unreachDrop = k.unreachDrop ∧ taken t
              ∧ (s.pass dt).only t [.links, .ports]))))
    ∧ (∀ p, p < 18 →
      let still : Bool := (s.sentOn (s.members p)).any fun o => (s.port p).sentBefore.contains o.msg.pseq
      ((s.port p).holding = false ∨ still = true → ∃ t, exec (.portHoldEnd dt p) s = .next t ∧ (s.pass dt).only t [])
      ∧ ((s.port p).holding = true → still = false →
        ∃ t, exec (.portHoldEnd dt p) s = .next t ∧ (t.port p).holding = false ∧ (s.pass dt).only t [.links, .ports]))

/-- Rowan: a flit's words spell it; a frame of damaged words is discarded and counted; a flit of the coming use of its tag waits for that use;
a run takes each flit it wants once; a resend request is answered with the flits of its step; a step that misses its flit for 1 µs is
asked for again (R273, R274, R278, R328, R330). -/
def Obligations.RowanFramesAreTaken : Prop :=
  (∀ f : Flit, f.tag < 64 → f.kind < 4 → f.op < 16 → f.axis < 4 → f.inst < 256 → f.step < 16 → f.part < 4 → f.dest < 4096 → f.group < 64 →
    f.jobLo < 65536 → f.lanes.length = 3 → (∀ v, v ∈ f.lanes → v < 2 ^ 64) → flitOf f.words = f)
  ∧ (∀ f : Flit, (f.words.map fun w => encodeWord w false).length = 4 ∧ frameFlit (f.words.map fun w => encodeWord w false) = some (flitOf f.words))
  ∧ ∀ (s : State) (dt l : Nat), s.stores = [] → l < 18 →
    let k := s.link l
    let here (cs : List Codeword) (f : Flit) : Prop := k.st = .up ∧ s.formed k.port = true ∧ s.fabric.modValid = true ∧ frameFlit cs = some f
      ∧ (flitOf (cs.map cwData)).dest = s.fabric.mod
    (∀ cs ok more, k.st ≠ .up → (∃ t, exec (.rowanFrame dt l ok ⟨cs, more⟩) s = .next t ∧ t.link l = { k with rowanNext := false }
          ∧ (s.pass dt).only t [.links])
      ∧ ∃ t, exec (.rowanResendRequest dt l cs) s = .next t ∧ (s.pass dt).only t [])
    ∧ (∀ cs ok more, k.st = .up → ok = false ∨ s.formed k.port = false ∨ s.fabric.modValid = false →
      ∃ t, exec (.rowanFrame dt l ok ⟨cs, more⟩) s = .next t
      ∧ t.link l = { k with rowanNext := more, rowanDiscard := min 65535 (k.rowanDiscard + 1) } ∧ (s.pass dt).only t [.links])
    ∧ (∀ cs f more, here cs f → f.kind ≠ 2 →
      (∀ j g, s.run f.tag = none → s.flitGroup f = some (j, g) → f.kind ≤ 1 → f.inst = s.tagCount f.tag (s.job j).fjob g.num % 256 →
        ∃ t, exec (.rowanFrame dt l true ⟨cs, more⟩) s = .next t ∧ f ∈ t.rowanEarly ∧ (s.pass dt).only t [.rowan, .links])
      ∧ (s.flitGroup f = none → (∀ u, s.run f.tag = some u → u.owns f = false) → ∃ t, exec (.rowanFrame dt l true ⟨cs, more⟩) s = .next t
        ∧ t.link l = { k with rowanNext := more, rowanDiscard := min 65535 (k.rowanDiscard + 1) } ∧ (s.pass dt).only t [.links])
      ∧ (∀ u, s.run f.tag = some u → u.owns f = true → u.wants f = false → ∃ t, exec (.rowanFrame dt l true ⟨cs, more⟩) s = .next t
        ∧ t.link l = { k with rowanNext := more } ∧ (s.pass dt).only t [.links])
      ∧ (∀ u, s.run f.tag = some u → f.tag < 64 → u.owns f = true → u.wants f = true → ({ u with got := u.got ++ [f] } : RowanRun).stepOnce = none →
        ∃ t, exec (.rowanFrame dt l true ⟨cs, more⟩) s = .next t ∧ t.run f.tag = some { u with got := u.got ++ [f] }
          ∧ (s.pass dt).only t [.rowan, .links]))
    ∧ (∀ cs f, here cs f → f.kind = 2 → s.sentFlits f = [] →
      ∃ t, exec (.rowanResendRequest dt l cs) s = .next t ∧ (s.pass dt).only t [])
    ∧ (∀ cs f g p m, here cs f → f.kind = 2 → s.sentFlits f = [g] →
      s.fabric.legacy = false → s.outPort g.dest = some p → memberOf (s.slots p) g.tag = some m → m < 18 →
      ∃ t, exec (.rowanResendRequest dt l cs) s = .next t
        ∧ t.link m = { s.link m with rowanTx := pushFrame (s.uptime + dt) (g.words.map fun w => encodeWord w false) (s.link m).rowanTx }
        ∧ (s.pass dt).only t [.links])
    ∧ (∀ tag u, tag < 64 → s.run tag = some u →
      ((s.pass dt).ftNow < u.sentAt + 1000 → ∃ t, exec (.rowanResendTimer dt tag) s = .next t ∧ (s.pass dt).only t [])
      ∧ (u.sentAt + 1000 ≤ (s.pass dt).ftNow → ∃ t, exec (.rowanResendTimer dt tag) s = .next t
        ∧ t.run tag = some { u with asked := u.asked + 1, sentAt := (s.pass dt).ftNow } ∧ (s.pass dt).only t [.rowan, .links, .ports, .fabric]))

/-- Rails and temperatures: a rail at its limit is recorded and counted, and its release ends the action; 105 °C lowers the thermal floor by
one point, and again for each further 100 µs; 95 °C halves a stack's rate until 90 °C; a settled VCORE takes the waiting point, no faster
than the floor (R422 to R424, R430, R436, R437, R439, R440). -/
def Obligations.RailsAndTemperatures : Prop :=
  ∀ (s : State) (dt tile : Nat), s.stores = [] → tile < 32 → s.clocksRun = true →
    let x := s.ptile tile
    let counted (t : State) : Prop := t.power.railEvt = true ∧ t.power.railCount = min 65535 (s.power.railCount + 1)
    let others (t : State) : Prop := ∀ k, k ≠ tile → t.ptile k = s.ptile k
    (∃ t, exec (.railLimit dt .vlink tile) s = .next t ∧ counted t ∧ t.power.vlinkEvt = true ∧ others t ∧ (s.pass dt).only t [.power])
    ∧ (∃ t, exec (.railLimit dt .vcore tile) s = .next t ∧ counted t ∧ (t.ptile tile).vcoreEvt = true ∧ others t
        ∧ (s.pass dt).only t [.power, .rel])
    ∧ (∃ t, exec (.railLimit dt .vsram tile) s = .next t ∧ counted t ∧ (t.ptile tile).vsramEvt = true ∧ others t
        ∧ (s.pass dt).only t [.power, .rel])
    ∧ (∃ t, exec (.railLimit dt .vstack tile) s = .next t ∧ counted t ∧ (t.ptile tile).vstackEvt = true ∧ others t
        ∧ (s.pass dt).only t [.power])
    ∧ (∃ t, exec (.railRelease dt .vcore tile) s = .next t ∧ t.ptile tile = { x with vcoreEvt := false } ∧ others t
        ∧ (s.pass dt).only t [.power])
    ∧ (∃ t, exec (.railRelease dt .vsram tile) s = .next t ∧ t.ptile tile = { x with vsramEvt := false } ∧ others t
        ∧ (s.pass dt).only t [.power])
    ∧ (∃ t, exec (.railRelease dt .vstack tile) s = .next t ∧ t.ptile tile = { x with vstackEvt := false } ∧ others t
        ∧ (s.pass dt).only t [.power])
    ∧ (∃ t, exec (.railRelease dt .vlink tile) s = .next t ∧ (s.pass dt).only t [])
    ∧ (∀ sensor temp, sensor < 8 → (105 : Int) ≤ temp → (∀ c, c ∈ x.sensors → c < (105 : Int)) →
      ∃ t, exec (.junctionHot dt tile sensor temp) s = .next t ∧ (t.ptile tile).floor = min 7 (x.floor + 1)
        ∧ min 7 (x.floor + 1) ≤ (t.ptile tile).op ∧ t.power.thermEvt = true ∧ t.power.throttles = min 65535 (s.power.throttles + 1)
        ∧ (t.ptile tile).sensors = x.sensors.mapIdx (fun i c => if i = sensor then temp else c) ∧ others t
        ∧ (s.pass dt).only t [.power, .rel])
    ∧ (∀ sensor temp, sensor < 8 → temp < (105 : Int) ∨ (∃ c, c ∈ x.sensors ∧ (105 : Int) ≤ c) → ∃ t, exec (.junctionHot dt tile sensor temp) s = .next t
        ∧ t.ptile tile = { x with sensors := x.sensors.mapIdx fun i c => if i = sensor then temp else c } ∧ others t
        ∧ (s.pass dt).only t [.power])
    ∧ ((∀ c, c ∈ x.sensors → c < (105 : Int)) → ∃ t, exec (.thermalFloorTimer dt tile) s = .next t ∧ (s.pass dt).only t [])
    ∧ ((∃ c, c ∈ x.sensors ∧ (105 : Int) ≤ c) → ∃ t, exec (.thermalFloorTimer dt tile) s = .next t
        ∧ (t.ptile tile).floor = min 7 (x.floor + 1) ∧ others t ∧ (s.pass dt).only t [.power, .rel])
    ∧ (∀ temp, (95 : Int) ≤ temp → x.stackHot = false → ∃ t, exec (.stackHot dt tile temp) s = .next t ∧ (t.ptile tile).stackHot = true
        ∧ (t.ptile tile).stackC = temp ∧ t.power.thermEvt = true ∧ others t ∧ (s.pass dt).only t [.power])
    ∧ (∀ temp, temp < (95 : Int) ∨ x.stackHot = true → ∃ t, exec (.stackHot dt tile temp) s = .next t
        ∧ t.ptile tile = { x with stackC := temp, stackHot := x.stackHot && decide ((90 : Int) < temp) } ∧ others t
        ∧ (s.pass dt).only t [.power])
    ∧ (∀ temp, (95 : Int) ≤ temp → x.stackHot = false → ∃ t, exec (.stackCool dt tile temp) s = .next t ∧ (t.ptile tile).stackHot = true
        ∧ (t.ptile tile).stackC = temp ∧ t.power.thermEvt = true ∧ others t ∧ (s.pass dt).only t [.power])
    ∧ (∀ temp, temp < (95 : Int) ∨ x.stackHot = true → ∃ t, exec (.stackCool dt tile temp) s = .next t
        ∧ t.ptile tile = { x with stackC := temp, stackHot := x.stackHot && decide ((90 : Int) < temp) } ∧ others t
        ∧ (s.pass dt).only t [.power])
    ∧ (x.settling = none → ∃ t, exec (.vcoreSettled dt tile) s = .next t ∧ (s.pass dt).only t [])
    ∧ (∀ k, x.settling = some k → ∃ t, exec (.vcoreSettled dt tile) s = .next t
        ∧ t.ptile tile = { x with op := max k x.floor, settling := none, spoilt := true } ∧ others t ∧ (s.pass dt).only t [.power])
    ∧ (s.registersRun = true → ∃ t, exec (.profileClear dt) s = .next t ∧ t.power.profiles = []
        ∧ (∀ k, k < 32 → t.ptile k = { s.ptile k with learnt := false }) ∧ (s.pass dt).only t [.power])

/-- Lowering tiles ends with their needs within the compute cap, or with every tile at the slowest point, and never makes a tile faster; so
does every phase boundary, at which a booked PHASE_MARK, OP_PREFER or CAP_SET takes effect and answers with the boundary's FT (R45, R431,
R432, R434, R438). -/
def Obligations.PhaseBoundariesKeepTheCap : Prop :=
  (∀ (s : State) (as : List Alloc), as.length ≤ 32 → (as.map fun a => a.1).Nodup →
    let r := s.lowerTiles 224 as
    (((r.map fun a => a.2.2).foldl (· + ·) 0 ≤ s.power.computeCap * 1000 ∨ ∀ a, a ∈ r → 7 ≤ a.2.1)
      ∧ r.map (fun a => a.1) = as.map fun a => a.1)
    ∧ ∀ a, a ∈ r → ∃ b, b ∈ as ∧ b.1 = a.1 ∧ b.2.1 ≤ a.2.1)
  ∧ ∀ (s : State) (dt : Nat) (peaks temps : List Nat), s.stores = [] →
    let u := (s.pass dt).settleSwitch
    let per := max 1 u.ft.phasePeriod
    (u.ftRuns = false ∨ u.onGrid per = false → ∃ t, exec (.phaseBoundary dt peaks temps) s = .next t ∧ u.only t [])
    ∧ (u.ftRuns = true → u.onGrid per = true → ∃ t, exec (.phaseBoundary dt peaks temps) s = .next t
      ∧ (((List.range 32).map fun k => (t.ptile k).budget).foldl (· + ·) 0 ≤ 10 * t.power.computeCap ∨ ∀ k, k < 32 → 7 ≤ (t.ptile k).alloc)
      ∧ u.only t [.windows, .works, .jobs, .power, .rel, .itemMaps, .fetched, .hostMemory])
    ∧ (∀ w j, u.ftRuns = true → u.onGrid per = true → u.works = [w] → w.stage = .waiting → w.due ≤ u.ftNow / per * per →
      w.slot.getD 0 = j → j < 4 →
      let x := vget u.windows w.pkt.window
      let reply (t : State) (result : Nat) : Prop := t.works = [] ∧ t.hostView = applyHostWrite u.hostView
        { addr := x.replyAddr + 32 * x.tail
          bytes := (replyWords w.pkt .done x.tailPhase true (u.ftNow / per * per) x.head x.headPhase 0 result).flatMap wordBytes }
      (w.pkt.opcode = 0x72 → ∃ t, exec (.phaseBoundary dt peaks temps) s = .next t ∧ reply t 0 ∧ (t.job j).phase = fld (w.pkt.par 0) 0 8)
      ∧ (w.pkt.opcode = 0x80 → ∃ t, exec (.phaseBoundary dt peaks temps) s = .next t ∧ reply t 0
          ∧ (fld (w.pkt.par 1) 0 3 ≠ 0 → kvGet (t.job j).prefs (fld (w.pkt.par 0) 0 8) = some (fld (w.pkt.par 1) 0 3)))
      ∧ (w.pkt.opcode = 0x81 → ∃ t, exec (.phaseBoundary dt peaks temps) s = .next t
          ∧ reply t (max 2400 (min 4800 (fld (w.pkt.par 0) 0 13))) ∧ t.power.cap = max 2400 (min 4800 (fld (w.pkt.par 0) 0 13))))

/-- The security controllers and the host link: an SPDM request through DOE is answered while the link is up, with at most four sessions; a
session without a heartbeat for 60 s ends; the second failed controller puts the module in its security error state; the host link's
conditions hold and release the module's requests; MCTP reads the identity block; a JTAG instruction is loaded (R467, R474, R477, R480,
R494, R495, R507, R516, R517). -/
def Obligations.SecurityAndHostLink : Prop :=
  ∀ (s : State) (dt : Nat), s.stores = [] →
    (∀ req, s.registersRun = true → s.cxl.linkUp = true → s.sec.sessions.length ≤ 4 → ∃ t, exec (.doeRequest dt req) s = .next t
      ∧ t.sec.sessions.length ≤ 4 ∧ t.cxl.lastDoe.length ≤ 65536 ∧ (s.sec.error = true → t.sec = s.sec)
      ∧ t.sec.tables = s.sec.tables ∧ t.sec.officer = s.sec.officer ∧ t.sec.fmKey = s.sec.fmKey ∧ (s.pass dt).only t [.sec, .hostLink])
    ∧ (∀ req, s.registersRun = false ∨ s.cxl.linkUp = false → ∃ t, exec (.doeRequest dt req) s = .next t ∧ (s.pass dt).only t [])
    ∧ (∀ n x, s.sec.sessions.find? (fun x => x.num == n) = some x →
      (s.uptime + dt < x.lastBeat + 60000000000 → ∃ t, exec (.heartbeatTimeout dt n) s = .next t ∧ (s.pass dt).only t [])
      ∧ (x.lastBeat + 60000000000 ≤ s.uptime + dt → ∃ t, exec (.heartbeatTimeout dt n) s = .next t
          ∧ (∀ y, y ∈ t.sec.sessions ↔ y ∈ s.sec.sessions ∧ y.num ≠ n) ∧ t.sec = { s.sec with sessions := t.sec.sessions }
          ∧ (s.pass dt).only t [.sec]))
    ∧ (s.sec.ok16 = true → ∃ t, exec (.controllerFail dt 0) s = .next t ∧ t.sec = { s.sec with ok0 := false, mirror := true }
        ∧ (s.pass dt).only t [.sec])
    ∧ (s.sec.ok16 = false → ∃ t, exec (.controllerFail dt 0) s = .next t
        ∧ t.sec = { s.sec with ok0 := false, error := true, sessions := [], ideIo := false, ideCm := false, drbg := false } ∧ (s.pass dt).only t [.sec])
    ∧ (∀ n, n < 32 → n ≠ 0 → n ≠ 16 → ∃ t, exec (.controllerFail dt n) s = .next t ∧ (s.pass dt).only t [])
    ∧ (s.sec.ok0 = true → ∃ t, exec (.controllerFail dt 16) s = .next t ∧ t.sec = { s.sec with ok16 := false, mirror := false }
        ∧ (s.pass dt).only t [.sec])
    ∧ (s.sec.ok0 = false → ∃ t, exec (.controllerFail dt 16) s = .next t
        ∧ t.sec = { s.sec with ok16 := false, error := true, sessions := [], ideIo := false, ideCm := false, drbg := false } ∧ (s.pass dt).only t [.sec])
    ∧ (∀ why, ∃ t, exec (.cxlLinkDown dt why) s = .next t ∧ t.cxlOpen = false ∧ t.cxl.speed = s.cxl.speed ∧ t.cxl.width = s.cxl.width
        ∧ (s.pass dt).only t [.hostLink])
    ∧ (∀ why, (why = .linkDown → s.boot.strapClk ≠ 2 ∨ s.ft.refPresent = true) →
      ∃ t, exec (.cxlResume dt why) s = .next t ∧ (why = .linkDown → t.cxl.linkUp = true) ∧ (why = .noBme → t.cxl.bme = true)
        ∧ (why = .d3hot → t.cxl.d3 = false) ∧ (t.cxlOpen = true → t.cxl.held = [] ∧ t.hostMem = s.cxl.held.foldl applyHostWrite s.hostMem)
        ∧ ((why = .linkDown → s.cxl.linkUp = true) → t.cxl.speed = s.cxl.speed ∧ t.cxl.width = s.cxl.width)
        ∧ (why = .linkDown → s.cxl.linkUp = false →
            (t.cxl.speed = 64 ∨ t.cxl.speed = 32 ∨ t.cxl.speed = 16)
              ∧ (t.cxl.width = 8 ∨ t.cxl.width = 4 ∨ t.cxl.width = 2 ∨ t.cxl.width = 1))
        ∧ (s.boot.awaits 1 = true → t.cxlOpen = true → t.boot.awaits 1 = false)
        ∧ (s.boot.awaits 1 = false → (s.pass dt).only t [.hostLink]) ∧ (s.pass dt).only t [.boot, .hostLink, .ports, .links, .sec])
    ∧ (s.boot.strapClk = 2 → s.ft.refPresent = false → ∃ t, exec (.cxlResume dt .linkDown) s = .next t ∧ (s.pass dt).only t [])
    ∧ (∀ body, s.boot.sideband = true → ∃ t, exec (.mctpMessage dt 0 body) s = .next t
        ∧ t.sec = { s.sec with endpoint := (Config.mctpEndpoint body).getD s.sec.endpoint }
        ∧ t.cxl.lastMctp = Config.mctpResponse 0 body [t.sec.endpoint] ∧ (s.pass dt).only t [.sec, .hostLink])
    ∧ (∀ body, s.boot.sideband = true → ∃ t, exec (.mctpMessage dt 1 body) s = .next t
        ∧ t.cxl.lastMctp = Config.mctpResponse 1 body (s.pass dt).drawStep.pldmSensors
        ∧ (s.boot.bringup = false → t.boot = s.boot) ∧ (s.pass dt).only t [.boot, .hostLink])
    ∧ (∀ kind body, kind = 5 ∨ kind = 6 → s.boot.sideband = true → s.boot.selfTested = true → s.sec.sessions.length ≤ 4 →
      ∃ t, exec (.mctpMessage dt kind body) s = .next t ∧ t.sec.sessions.length ≤ 4 ∧ t.cxl.lastMctp.length ≤ 65536
        ∧ (s.sec.error = true → t.sec = s.sec) ∧ t.sec.tables = s.sec.tables ∧ t.sec.officer = s.sec.officer ∧ t.sec.fmKey = s.sec.fmKey
        ∧ (s.boot.bringup = false → t.boot = s.boot) ∧ (s.pass dt).only t [.boot, .sec, .hostLink])
    ∧ (∀ kind body, kind = 5 ∨ kind = 6 → s.boot.bringup = false → s.boot.selfTested = false →
      ∃ t, exec (.mctpMessage dt kind body) s = .next t ∧ (s.pass dt).only t [])
    ∧ (∀ body, s.boot.sideband = true → bytesNat (body.take 4) < 0x400 → bytesNat (body.take 4) % 8 = 0 →
      ∃ t, exec (.mctpMessage dt 0x7E body) s = .next t
        ∧ t.cxl.lastMctp = wordBytes ((s.pass dt).drawStep.regValue (bytesNat (body.take 4)))
        ∧ (s.boot.bringup = false → t.boot = s.boot) ∧ (s.pass dt).only t [.boot, .hostLink])
    ∧ (∀ body, 0x400 ≤ bytesNat (body.take 4) ∨ bytesNat (body.take 4) % 8 ≠ 0 →
      ∃ t, exec (.mctpMessage dt 0x7E body) s = .next t ∧ (s.pass dt).only t [])
    ∧ (∀ kind body, s.boot.sideband = false ∨ ¬ (kind = 0 ∨ kind = 1 ∨ kind = 5 ∨ kind = 6 ∨ kind = 0x7E) →
      ∃ t, exec (.mctpMessage dt kind body) s = .next t ∧ (s.pass dt).only t [])
    ∧ (∀ ins, s.boot.powered = true → ∃ t, exec (.jtagInstruction dt ins) s = .next t ∧ t.cxl.jtag = ins
        ∧ (ins = .idcode → t.jtagCapture = some 0x1E3204D7)
        ∧ (ins = .debug → s.sec.jtagLocked = true → t.jtagActs = .bypass)
        ∧ (ins = .extest → s.boot.perstLow = false → t.jtagActs = .bypass) ∧ (s.pass dt).only t [.hostLink])
    ∧ (∀ ins, s.boot.powered = false → ∃ t, exec (.jtagInstruction dt ins) s = .next t ∧ (s.pass dt).only t [])

/-- A step takes the command at the front of the queue: its answer is exec's on the state with the queue's rest. With an empty queue the block
idles (log entry 14, the model's choice). -/
def Obligations.StepRunsTheFrontCommand : Prop :=
  (∀ (s : State) (c : Instr) (q : List Instr), s.pending = c :: q → step s = exec c { s with pending := q })
  ∧ ∀ s : State, s.pending = [] → step s = .next s

/-- The state after reset meets the invariant that the states between commands meet. -/
def Obligations.ResetMeetsTheInvariant : Prop :=
 State.reset.Inv ∧ State.reset.pending = []

/-- Every step that answers a next state leaves both memories in their canonical form, no store half made, no posted write and no MSI-X vector
waiting while the module may issue its requests, the queue one command shorter, and no time taken back. -/
def Obligations.StepKeepsTheInvariant : Prop :=
  ∀ (s t : State), s.Inv → step s = .next t → t.Inv ∧ t.pending = s.pending.tail ∧ s.uptime ≤ t.uptime

/-- A command that names a part beyond the numbering the spec gives it (18 links and ports, 32 tiles, 512 cores, 4 job slots, 64 tags, 64
windows, 4096 ring slots, 2^40 bytes of HDM, the 0x1000000-byte register space, 64 reservations) stops with the fault noSuchPart and its
name. The numbering is R5's and the register tables'; the fault is the model's way to say that no such part exists. -/
def Obligations.PartsOutsideTheNumberingFault : Prop :=
  ∀ (s : State) (dt : Nat),
    (∀ n, 18 ≤ n →
      (∀ t1 t2 t3 t4 peerLocked hops, exec (.timeTransfer dt n t1 t2 t3 t4 peerLocked hops) s = .fault (.noSuchPart "link"))
      ∧ (∀ words, exec (.rowanResendRequest dt n words) s = .fault (.noSuchPart "link"))
      ∧ (∀ lane, exec (.lightDetect dt n lane) s = .fault (.noSuchPart "link"))
      ∧ (exec (.trainingRetry dt n) s = .fault (.noSuchPart "link"))
      ∧ (∀ lane, exec (.laneFault dt n lane) s = .fault (.noSuchPart "link"))
      ∧ (exec (.linkRetrain dt n) s = .fault (.noSuchPart "link"))
      ∧ (∀ enable, exec (.linkEnable dt n enable) s = .fault (.noSuchPart "link"))
      ∧ (∀ port, exec (.linkPort dt n port) s = .fault (.noSuchPart "link"))
      ∧ (exec (.replayTimeout dt n) s = .fault (.noSuchPart "link"))
      ∧ (∀ m, exec (.transitMessage dt n m) s = .fault (.noSuchPart "link"))
      ∧ (∀ m, exec (.messageArrival dt n m) s = .fault (.noSuchPart "link"))
      ∧ (∀ intact frame, exec (.rowanFrame dt n intact frame) s = .fault (.noSuchPart "link"))
      ∧ (∀ ok peerModule peerLink peerValid, exec (.trainingDone dt n ok peerModule peerLink peerValid) s = .fault (.noSuchPart "link"))
      ∧ (∀ intact corrected seq ack flags worstLane, exec (.bulkCodeword dt n intact corrected seq ack flags worstLane) s = .fault (.noSuchPart "link")))
    ∧ (∀ n, (2 ^ 40) ≤ n →
      (exec (.hostMemRead dt n) s = .fault (.noSuchPart "HDM offset"))
      ∧ (∀ line, exec (.hostMemWrite dt n line) s = .fault (.noSuchPart "HDM offset")))
    ∧ (∀ n, 4096 ≤ n →
      (∀ w words, w < 64 → exec (.headerWrite dt w n words) s = .fault (.noSuchPart "ring slot")))
    ∧ (∀ n, 32 ≤ n →
      (∀ stack temp, exec (.thermalTrip dt n stack temp) s = .fault (.noSuchPart "tile"))
      ∧ (exec (.watchdogMiss dt n) s = .fault (.noSuchPart "tile"))
      ∧ (exec (.tileResetDone dt n) s = .fault (.noSuchPart "tile"))
      ∧ (exec (.controllerFail dt n) s = .fault (.noSuchPart "tile"))
      ∧ (exec (.vcoreSettled dt n) s = .fault (.noSuchPart "tile"))
      ∧ (∀ rail, exec (.railLimit dt rail n) s = .fault (.noSuchPart "tile"))
      ∧ (∀ rail, exec (.railRelease dt rail n) s = .fault (.noSuchPart "tile"))
      ∧ (∀ sensor temp, exec (.junctionHot dt n sensor temp) s = .fault (.noSuchPart "tile"))
      ∧ (exec (.thermalFloorTimer dt n) s = .fault (.noSuchPart "tile"))
      ∧ (∀ temp, exec (.stackHot dt n temp) s = .fault (.noSuchPart "tile"))
      ∧ (∀ temp, exec (.stackCool dt n temp) s = .fault (.noSuchPart "tile"))
      ∧ (∀ page, exec (.pageMoveDone dt n page) s = .fault (.noSuchPart "tile"))
      ∧ (∀ page toTile toChannel toPage, exec (.pageMove dt n page toTile toChannel toPage) s = .fault (.noSuchPart "tile")))
    ∧ (∀ n, 512 ≤ n →
      (exec (.coreResetDone dt n) s = .fault (.noSuchPart "core"))
      ∧ (∀ errs, exec (.workItemDone dt n errs) s = .fault (.noSuchPart "core"))
      ∧ (∀ sample errs, exec (.recomputeDone dt sample n errs) s = .fault (.noSuchPart "core"))
      ∧ (∀ sample errs, exec (.thirdComputeDone dt sample n errs) s = .fault (.noSuchPart "core"))
      ∧ (exec (.drainTimeout dt n) s = .fault (.noSuchPart "core"))
      ∧ (exec (.testStart dt n) s = .fault (.noSuchPart "core"))
      ∧ (∀ result, exec (.testPassDone dt n result) s = .fault (.noSuchPart "core")))
    ∧ (∀ n, 4 ≤ n →
      (exec (.commitVote dt n) s = .fault (.noSuchPart "slot"))
      ∧ (exec (.commitDeadline dt n) s = .fault (.noSuchPart "slot"))
      ∧ (∀ k, exec (.barrierSlot dt n k) s = .fault (.noSuchPart "slot"))
      ∧ (exec (.safeDeadline dt n) s = .fault (.noSuchPart "slot"))
      ∧ (∀ value, exec (.jnsStatusWrite dt n value) s = .fault (.noSuchPart "slot"))
      ∧ (∀ value, exec (.jscGenWrite dt n value) s = .fault (.noSuchPart "slot"))
      ∧ (∀ value, exec (.shadowEnable dt n value) s = .fault (.noSuchPart "slot"))
      ∧ (∀ group, exec (.bindTimeout dt n group) s = .fault (.noSuchPart "slot"))
      ∧ (exec (.shadowCopyDone dt n) s = .fault (.noSuchPart "slot"))
      ∧ (∀ group, exec (.collectiveStart dt n group) s = .fault (.noSuchPart "slot")))
    ∧ (∀ n, 64 ≤ n →
      (exec (.rowanResendTimer dt n) s = .fault (.noSuchPart "tag")))
    ∧ (∀ n, 18 ≤ n →
      (exec (.portHoldEnd dt n) s = .fault (.noSuchPart "port")))
    ∧ (∀ n, 64 ≤ n →
      (exec (.dispatch dt n) s = .fault (.noSuchPart "window"))
      ∧ (∀ value, exec (.cmdwEnable dt n value) s = .fault (.noSuchPart "window"))
      ∧ (exec (.cmdwDisable dt n) s = .fault (.noSuchPart "window"))
      ∧ (∀ index, exec (.cmdwReplyAck dt n index) s = .fault (.noSuchPart "window"))
      ∧ (∀ hs, exec (.ringPoll dt n hs) s = .fault (.noSuchPart "window"))
      ∧ (∀ hs, exec (.packetConsume dt n hs) s = .fault (.noSuchPart "window"))
      ∧ (∀ slot words, exec (.headerWrite dt n slot words) s = .fault (.noSuchPart "window")))
    ∧ (∀ n, 0x1000000 ≤ n →
      (∀ master size value, exec (.registerWrite dt master n size value) s = .fault (.noSuchPart "register")))
    ∧ (∀ n, 64 ≤ n →
      (∀ master word value, exec (.reservationWrite dt master n word value) s = .fault (.noSuchPart "reservation")))

/-- What the spec gives the module after a power-on reset: FT unset and reading 0, FT_PHASE_PERIOD 100,000 and FT_RELEASE_LEAD 2,000 (R35,
R530); every window disabled (R64); no job open, with COMMIT_GRACE 100,000, GEN_OPEN 1, CONTENT 1, EVERY 1 and RATE 256 (R368, R375); link
L enabled in port L div 3 and down, with VC weights 8, 64 and 16 (R300); no module number, TRANSIT_EN 1 and every route 0x1F (R301);
SCRUB_EN and LOG_CE 1 with 12 hours and 60 minutes (R236); SAMPLE_EN and SAMPLE_GATE 1 with LOG2 6 (R416); PWR_CAP 4,800 (R443); site
alerts enabled with a limit of 50 ms (R382); bring-up in progress at step 1 (R452). -/
def Obligations.ResetValues : Prop :=
  let s := State.reset
  s.ft.state = .unset ∧ s.ftNow = 0 ∧ s.ft.phasePeriod = 100000 ∧ s.ft.releaseLead = 2000
    ∧ (∀ w, w < 64 → (vget s.windows w) = ({} : Window) ∧ (vget s.windows w).enable = false ∧ (vget s.windows w).pollUs = 0
        ∧ (vget s.windows w).ack = 0 ∧ (vget s.windows w).seqErr = 0)
    ∧ (∀ j, j < 4 → (s.job j).opened = false ∧ (s.job j).stp.grace = 100000 ∧ (s.job j).stp.gen = 0 ∧ (s.job j).stp.genOpen = true
        ∧ (s.job j).shadow.enable = false ∧ (s.job j).shadow.content = 1 ∧ (s.job j).shadow.every = 1 ∧ (s.job j).shadow.rate = 256)
    ∧ (∀ l, l < 18 → (s.link l).enable = true ∧ (s.link l).port = l / 3 ∧ (s.link l).st = .down ∧ (s.link l).wVc0 = 8
        ∧ (s.link l).wVc2 = 64 ∧ (s.link l).wVc3 = 16)
    ∧ s.fabric.modValid = false ∧ s.fabric.transitEn = true ∧ (∀ m, m < 4096 → s.route m = 0x1F)
    ∧ s.memErr.scrubEn = true ∧ s.memErr.logCe = true ∧ s.memErr.hours = 12 ∧ s.memErr.mins = 60
    ∧ s.rel.sampleEn = true ∧ s.rel.gate = true ∧ s.rel.log2 = 6 ∧ s.power.cap = 4800
    ∧ s.site.enable = true ∧ s.site.limitMs = 50 ∧ s.boot.bringup = true ∧ s.boot.step = 1 ∧ s.pending = []

/-- Link L leaves the port block of one of the eighteen edge tiles: up column 0, along row 7 and down column 3. -/
def Obligations.LinksLeaveTheEdgeTiles : Prop :=
  (List.range 18).map linkTile = [0, 4, 8, 12, 16, 20, 24, 28, 29, 30, 31, 27, 23, 19, 15, 11, 7, 3]
    ∧ (∀ l, l ≤ 7 → linkTile l = 4 * l) ∧ (∀ l, 7 ≤ l → l ≤ 10 → linkTile l = 21 + l) ∧ (∀ l, 10 ≤ l → l < 18 → linkTile l = 71 - 4 * l)
end

