-- ==== Sys2Proof/Laws/Memory.lean ====
section
/-! SUPPORT. The sparse byte memories: every operation keeps the canonical form, a read after a write gives what was written, and a
write leaves every other byte alone. -/

namespace Sys2Proof.Machine

theorem cellsFrom_mono {a b : Nat} (h : a ≤ b) : ∀ {m : List Host.Cell}, cellsFrom b m = true → cellsFrom a m = true
  | [], _ => rfl
  | (k, v) :: t, hm => by
    simp only [cellsFrom, Bool.and_eq_true, decide_eq_true_eq] at hm ⊢
    exact ⟨⟨Nat.le_trans h hm.1.1, hm.1.2⟩, hm.2⟩

theorem cellsFrom_cellSet (a : Nat) (b : Byte) : ∀ {m : List Host.Cell} {lo : Nat}, lo ≤ a → cellsFrom lo m = true →
    cellsFrom lo (cellSet m a b) = true
  | [], lo, h, _ => by
    unfold cellSet
    split <;> simp_all [cellsFrom]
  | (k, v) :: t, lo, h, hm => by
    simp only [cellsFrom, Bool.and_eq_true, decide_eq_true_eq] at hm
    obtain ⟨⟨h1, h2⟩, h3⟩ := hm
    unfold cellSet
    split
    · split
      · simp_all [cellsFrom]
      · simp_all [cellsFrom] <;> omega
    · split
      · split
        · exact cellsFrom_mono (by omega) h3
        · subst_vars; simp_all [cellsFrom]
      · simp only [cellsFrom, Bool.and_eq_true, decide_eq_true_eq]
        exact ⟨⟨h1, h2⟩, cellsFrom_cellSet a b (by omega) h3⟩

/-- Writing a byte keeps the canonical form. -/
theorem wf_cellSet {m : List Host.Cell} (h : Memory.wf m = true) (a : Nat) (b : Byte) : Memory.wf (cellSet m a b) = true :=
  cellsFrom_cellSet a b (Nat.zero_le a) h

theorem wf_cellSetAll : ∀ (bs : List Byte) {m : List Host.Cell} (_ : Memory.wf m = true) (a : Nat),
    Memory.wf (cellSetAll m a bs) = true
  | [], _, h, _ => h
  | b :: bs, _, h, a => wf_cellSetAll bs (wf_cellSet h a b) (a + 1)

theorem cellsFrom_filter (p : Host.Cell → Bool) : ∀ {m : List Host.Cell} {lo : Nat}, cellsFrom lo m = true →
    cellsFrom lo (m.filter p) = true
  | [], _, _ => rfl
  | (k, v) :: t, lo, hm => by
    simp only [cellsFrom, Bool.and_eq_true, decide_eq_true_eq] at hm
    obtain ⟨⟨h1, h2⟩, h3⟩ := hm
    rw [List.filter_cons]
    split
    · simp only [cellsFrom, Bool.and_eq_true, decide_eq_true_eq]
      exact ⟨⟨h1, h2⟩, cellsFrom_filter p h3⟩
    · exact cellsFrom_mono (by omega) (cellsFrom_filter p h3)

theorem wf_cellErase {m : List Host.Cell} (h : Memory.wf m = true) (lo hi : Nat) : Memory.wf (cellErase m lo hi) = true :=
  cellsFrom_filter _ h

theorem wf_applyStore {m : List Host.Cell} (h : Memory.wf m = true) : ∀ x : Store, Memory.wf (applyStore m x) = true
  | .word _ _ => wf_cellSetAll _ h _
  | .erase _ _ => wf_cellErase h _ _

theorem wf_applyStores : ∀ (xs : List Store) {m : List Host.Cell}, Memory.wf m = true → Memory.wf (xs.foldl applyStore m) = true
  | [], _, h => h
  | x :: xs, _, h => wf_applyStores xs (wf_applyStore h x)

theorem wf_applyHostWrites : ∀ (xs : List HostWrite) {m : List Host.Cell}, Memory.wf m = true →
    Memory.wf (xs.foldl applyHostWrite m) = true
  | [], _, h => h
  | x :: xs, _, h => wf_applyHostWrites xs (wf_cellSetAll x.bytes h x.addr)

theorem wf_hostStores : ∀ (hs : List Host.Cell) {m : List Host.Cell}, Memory.wf m = true →
    Memory.wf (hs.foldl (fun m c => cellSet m c.1 c.2) m) = true
  | [], _, h => h
  | c :: hs, _, h => wf_hostStores hs (wf_cellSet h c.1 c.2)

/-! ## Reads after writes -/

theorem cellGet_of_lt : ∀ {m : List Host.Cell} {lo a : Nat}, cellsFrom lo m = true → a < lo → cellGet m a = 0
  | [], _, _, _, _ => rfl
  | (k, v) :: t, lo, a, hm, h => by
    simp only [cellsFrom, Bool.and_eq_true, decide_eq_true_eq] at hm
    have : k ≠ a := by omega
    simp only [cellGet, this, if_false]
    exact cellGet_of_lt hm.2 (by omega)

theorem cellGet_cellSet (a : Nat) (b : Byte) (x : Nat) : ∀ {m : List Host.Cell} {lo : Nat}, cellsFrom lo m = true →
    cellGet (cellSet m a b) x = if x = a then b else cellGet m x
  | [], lo, _ => by
    unfold cellSet
    by_cases hx : x = a
    · subst hx; split <;> simp_all [cellGet]
    · have : ¬ a = x := fun h => hx h.symm
      split <;> simp_all [cellGet]
  | (k, v) :: t, lo, hm => by
    simp only [cellsFrom, Bool.and_eq_true, decide_eq_true_eq] at hm
    obtain ⟨⟨h1, h2⟩, h3⟩ := hm
    unfold cellSet
    split
    · rename_i hak
      by_cases hx : x = a
      · subst hx
        have hk : k ≠ x := by omega
        have : cellGet t x = 0 := cellGet_of_lt h3 (by omega)
        split <;> simp_all [cellGet]
      · have : ¬ a = x := fun h => hx h.symm
        split <;> simp_all [cellGet]
    · split
      · rename_i hak
        subst hak
        by_cases hx : x = a
        · subst hx
          have : cellGet t x = 0 := cellGet_of_lt h3 (by omega)
          split <;> simp_all [cellGet]
        · have : ¬ a = x := fun h => hx h.symm
          split <;> simp_all [cellGet]
      · rename_i hak hne
        simp only [cellGet]
        rw [cellGet_cellSet a b x h3]
        by_cases hx : k = x
        · subst hx
          have : ¬ k = a := fun h => hne h.symm
          simp [this]
        · simp [hx]

/-- A byte reads as written, and every other byte as before. -/
theorem cellGet_set {m : List Host.Cell} (h : Memory.wf m = true) (a : Nat) (b : Byte) (x : Nat) :
    cellGet (cellSet m a b) x = if x = a then b else cellGet m x := cellGet_cellSet a b x h

/-- Bytes read as written, and every other byte as before. -/
theorem cellGet_setAll : ∀ (bs : List Byte) {m : List Host.Cell} (_ : Memory.wf m = true) (a x : Nat),
    cellGet (cellSetAll m a bs) x = if a ≤ x ∧ x < a + bs.length then lget bs (x - a) 0 else cellGet m x
  | [], _, _, a, x => by simp [cellSetAll] <;> omega
  | b :: bs, m, h, a, x => by
    simp only [cellSetAll, List.length_cons]
    rw [cellGet_setAll bs (wf_cellSet h a b) (a + 1) x, cellGet_set h]
    by_cases hx : x = a
    · subst hx
      have h1 : ¬ (x + 1 ≤ x ∧ x < x + 1 + bs.length) := by omega
      simp [lget, h1]
    · by_cases h1 : a + 1 ≤ x ∧ x < a + 1 + bs.length
      · have h2 : a ≤ x ∧ x < a + (bs.length + 1) := by omega
        have h3 : x - a = (x - (a + 1)) + 1 := by omega
        rw [if_pos h1, if_pos h2, h3]; simp [lget]
      · have h2 : ¬ (a ≤ x ∧ x < a + (bs.length + 1)) := by omega
        rw [if_neg h1, if_neg hx, if_neg h2]

theorem cellsFrom_ge : ∀ {m : List Host.Cell} {lo : Nat}, cellsFrom lo m = true → ∀ c ∈ m, lo ≤ c.1
  | [], _, _, _, h => by simp at h
  | (k, v) :: t, lo, hm, c, h => by
    simp only [cellsFrom, Bool.and_eq_true, decide_eq_true_eq] at hm
    rcases List.mem_cons.1 h with rfl | h
    · exact hm.1.1
    · exact Nat.le_trans (by omega) (cellsFrom_ge hm.2 c h)

theorem cellGet_filter (p : Host.Cell → Bool) (a : Nat) (hp : ∀ b, p (a, b) = true) : ∀ m : List Host.Cell,
    cellGet (m.filter p) a = cellGet m a
  | [] => rfl
  | (k, v) :: t => by
    rw [List.filter_cons]
    by_cases hk : k = a
    · subst hk; simp [hp, cellGet]
    · split <;> simp [cellGet, hk, cellGet_filter p a hp t]

theorem cellGet_filter_out (p : Host.Cell → Bool) (a : Nat) (hp : ∀ b, p (a, b) = false) : ∀ m : List Host.Cell,
    cellGet (m.filter p) a = 0
  | [] => rfl
  | (k, v) :: t => by
    rw [List.filter_cons]
    by_cases hk : k = a
    · subst hk; simp [hp, cellGet_filter_out p k hp t]
    · split <;> simp [cellGet, hk, cellGet_filter_out p a hp t]

/-- Erased bytes read as 0, and every other byte as before. -/
theorem cellGet_erase (m : List Host.Cell) (lo hi a : Nat) :
    cellGet (cellErase m lo hi) a = if lo ≤ a ∧ a < hi then 0 else cellGet m a := by
  by_cases h : lo ≤ a ∧ a < hi
  · rw [if_pos h]; exact cellGet_filter_out _ _ (by intro b; simp; omega) m
  · rw [if_neg h]; exact cellGet_filter _ _ (by intro b; simp; omega) m

end Sys2Proof.Machine
end

