-- ==== Sys2Proof/Laws/State.lean ====
section
/-! SUPPORT. One lemma per field per update of the state: what each update writes and what it leaves. -/

namespace Sys2Proof.Machine

variable (s : State)

@[simp] theorem State.pass_pending (dt : Nat) : (s.pass dt).pending = s.pending := rfl
@[simp] theorem State.pass_uptime (dt : Nat) : (s.pass dt).uptime = s.uptime + dt := rfl
@[simp] theorem State.pass_ft (dt : Nat) : (s.pass dt).ft = s.ft.pass dt := rfl
@[simp] theorem State.pass_windows (dt : Nat) : (s.pass dt).windows = s.windows := rfl
@[simp] theorem State.pass_works (dt : Nat) : (s.pass dt).works = s.works := rfl
@[simp] theorem State.pass_nextPid (dt : Nat) : (s.pass dt).nextPid = s.nextPid := rfl
@[simp] theorem State.pass_freeCount (dt : Nat) : (s.pass dt).freeCount = s.freeCount := rfl
@[simp] theorem State.pass_jobs (dt : Nat) : (s.pass dt).jobs = s.jobs := rfl
@[simp] theorem State.pass_tensors (dt : Nat) : (s.pass dt).tensors = s.tensors := rfl
@[simp] theorem State.pass_shards (dt : Nat) : (s.pass dt).shards = s.shards := rfl
@[simp] theorem State.pass_mem (dt : Nat) : (s.pass dt).mem = s.mem := rfl
@[simp] theorem State.pass_stores (dt : Nat) : (s.pass dt).stores = s.stores := rfl
@[simp] theorem State.pass_hostMem (dt : Nat) : (s.pass dt).hostMem = s.hostMem := rfl
@[simp] theorem State.pass_pageMap (dt : Nat) : (s.pass dt).pageMap = s.pageMap := rfl
@[simp] theorem State.pass_moves (dt : Nat) : (s.pass dt).moves = s.moves := rfl
@[simp] theorem State.pass_deferred (dt : Nat) : (s.pass dt).deferred = s.deferred := rfl
@[simp] theorem State.pass_staged (dt : Nat) : (s.pass dt).staged = s.staged := rfl
@[simp] theorem State.pass_access (dt : Nat) : (s.pass dt).access = s.access := rfl
@[simp] theorem State.pass_memErr (dt : Nat) : (s.pass dt).memErr = s.memErr := rfl
@[simp] theorem State.pass_itemMaps (dt : Nat) : (s.pass dt).itemMaps = s.itemMaps := rfl
@[simp] theorem State.pass_threads (dt : Nat) : (s.pass dt).threads = s.threads := rfl
@[simp] theorem State.pass_weights (dt : Nat) : (s.pass dt).weights = s.weights := rfl
@[simp] theorem State.pass_gathered (dt : Nat) : (s.pass dt).gathered = s.gathered := rfl
@[simp] theorem State.pass_fetched (dt : Nat) : (s.pass dt).fetched = s.fetched := rfl
@[simp] theorem State.pass_remotes (dt : Nat) : (s.pass dt).remotes = s.remotes := rfl
@[simp] theorem State.pass_nextTag (dt : Nat) : (s.pass dt).nextTag = s.nextTag := rfl
@[simp] theorem State.pass_lastData (dt : Nat) : (s.pass dt).lastData = s.lastData := rfl
@[simp] theorem State.pass_colls (dt : Nat) : (s.pass dt).colls = s.colls := rfl
@[simp] theorem State.pass_buckets (dt : Nat) : (s.pass dt).buckets = s.buckets := rfl
@[simp] theorem State.pass_rowan (dt : Nat) : (s.pass dt).rowan = s.rowan := rfl
@[simp] theorem State.pass_rowanEarly (dt : Nat) : (s.pass dt).rowanEarly = s.rowanEarly := rfl
@[simp] theorem State.pass_tagUses (dt : Nat) : (s.pass dt).tagUses = s.tagUses := rfl
@[simp] theorem State.pass_binds (dt : Nat) : (s.pass dt).binds = s.binds := rfl
@[simp] theorem State.pass_bindSent (dt : Nat) : (s.pass dt).bindSent = s.bindSent := rfl
@[simp] theorem State.pass_vcMarks (dt : Nat) : (s.pass dt).vcMarks = s.vcMarks := rfl
@[simp] theorem State.pass_ramps (dt : Nat) : (s.pass dt).ramps = s.ramps := rfl
@[simp] theorem State.pass_links (dt : Nat) : (s.pass dt).links = s.links := rfl
@[simp] theorem State.pass_ports (dt : Nat) : (s.pass dt).ports = s.ports := rfl
@[simp] theorem State.pass_fabric (dt : Nat) : (s.pass dt).fabric = s.fabric := rfl
@[simp] theorem State.pass_delivered (dt : Nat) : (s.pass dt).delivered = s.delivered := rfl
@[simp] theorem State.pass_rel (dt : Nat) : (s.pass dt).rel = { s.rel with ophNs := s.rel.ophNs + (if s.boot.powered then dt else 0) } := rfl
@[simp] theorem State.pass_power (dt : Nat) : (s.pass dt).power = s.power := rfl
@[simp] theorem State.pass_boot (dt : Nat) : (s.pass dt).boot = s.boot := rfl
@[simp] theorem State.pass_sec (dt : Nat) : (s.pass dt).sec = s.sec := rfl
@[simp] theorem State.pass_cxl (dt : Nat) : (s.pass dt).cxl = s.cxl := rfl
@[simp] theorem State.pass_site (dt : Nat) : (s.pass dt).site = s.site := rfl

@[simp] theorem State.hostStores_pending (hs : List Host.Cell) : (s.hostStores hs).pending = s.pending := rfl
@[simp] theorem State.hostStores_uptime (hs : List Host.Cell) : (s.hostStores hs).uptime = s.uptime := rfl
@[simp] theorem State.hostStores_ft (hs : List Host.Cell) : (s.hostStores hs).ft = s.ft := rfl
@[simp] theorem State.hostStores_windows (hs : List Host.Cell) : (s.hostStores hs).windows = s.windows := rfl
@[simp] theorem State.hostStores_works (hs : List Host.Cell) : (s.hostStores hs).works = s.works := rfl
@[simp] theorem State.hostStores_nextPid (hs : List Host.Cell) : (s.hostStores hs).nextPid = s.nextPid := rfl
@[simp] theorem State.hostStores_freeCount (hs : List Host.Cell) : (s.hostStores hs).freeCount = s.freeCount := rfl
@[simp] theorem State.hostStores_jobs (hs : List Host.Cell) : (s.hostStores hs).jobs = s.jobs := rfl
@[simp] theorem State.hostStores_tensors (hs : List Host.Cell) : (s.hostStores hs).tensors = s.tensors := rfl
@[simp] theorem State.hostStores_shards (hs : List Host.Cell) : (s.hostStores hs).shards = s.shards := rfl
@[simp] theorem State.hostStores_mem (hs : List Host.Cell) : (s.hostStores hs).mem = s.mem := rfl
@[simp] theorem State.hostStores_stores (hs : List Host.Cell) : (s.hostStores hs).stores = s.stores := rfl
@[simp] theorem State.hostStores_pageMap (hs : List Host.Cell) : (s.hostStores hs).pageMap = s.pageMap := rfl
@[simp] theorem State.hostStores_moves (hs : List Host.Cell) : (s.hostStores hs).moves = s.moves := rfl
@[simp] theorem State.hostStores_deferred (hs : List Host.Cell) : (s.hostStores hs).deferred = s.deferred := rfl
@[simp] theorem State.hostStores_staged (hs : List Host.Cell) : (s.hostStores hs).staged = s.staged := rfl
@[simp] theorem State.hostStores_access (hs : List Host.Cell) : (s.hostStores hs).access = s.access := rfl
@[simp] theorem State.hostStores_memErr (hs : List Host.Cell) : (s.hostStores hs).memErr = s.memErr := rfl
@[simp] theorem State.hostStores_itemMaps (hs : List Host.Cell) : (s.hostStores hs).itemMaps = s.itemMaps := rfl
@[simp] theorem State.hostStores_threads (hs : List Host.Cell) : (s.hostStores hs).threads = s.threads := rfl
@[simp] theorem State.hostStores_weights (hs : List Host.Cell) : (s.hostStores hs).weights = s.weights := rfl
@[simp] theorem State.hostStores_gathered (hs : List Host.Cell) : (s.hostStores hs).gathered = s.gathered := rfl
@[simp] theorem State.hostStores_fetched (hs : List Host.Cell) : (s.hostStores hs).fetched = s.fetched := rfl
@[simp] theorem State.hostStores_remotes (hs : List Host.Cell) : (s.hostStores hs).remotes = s.remotes := rfl
@[simp] theorem State.hostStores_nextTag (hs : List Host.Cell) : (s.hostStores hs).nextTag = s.nextTag := rfl
@[simp] theorem State.hostStores_lastData (hs : List Host.Cell) : (s.hostStores hs).lastData = s.lastData := rfl
@[simp] theorem State.hostStores_colls (hs : List Host.Cell) : (s.hostStores hs).colls = s.colls := rfl
@[simp] theorem State.hostStores_buckets (hs : List Host.Cell) : (s.hostStores hs).buckets = s.buckets := rfl
@[simp] theorem State.hostStores_rowan (hs : List Host.Cell) : (s.hostStores hs).rowan = s.rowan := rfl
@[simp] theorem State.hostStores_rowanEarly (hs : List Host.Cell) : (s.hostStores hs).rowanEarly = s.rowanEarly := rfl
@[simp] theorem State.hostStores_tagUses (hs : List Host.Cell) : (s.hostStores hs).tagUses = s.tagUses := rfl
@[simp] theorem State.hostStores_binds (hs : List Host.Cell) : (s.hostStores hs).binds = s.binds := rfl
@[simp] theorem State.hostStores_bindSent (hs : List Host.Cell) : (s.hostStores hs).bindSent = s.bindSent := rfl
@[simp] theorem State.hostStores_vcMarks (hs : List Host.Cell) : (s.hostStores hs).vcMarks = s.vcMarks := rfl
@[simp] theorem State.hostStores_ramps (hs : List Host.Cell) : (s.hostStores hs).ramps = s.ramps := rfl
@[simp] theorem State.hostStores_links (hs : List Host.Cell) : (s.hostStores hs).links = s.links := rfl
@[simp] theorem State.hostStores_ports (hs : List Host.Cell) : (s.hostStores hs).ports = s.ports := rfl
@[simp] theorem State.hostStores_fabric (hs : List Host.Cell) : (s.hostStores hs).fabric = s.fabric := rfl
@[simp] theorem State.hostStores_delivered (hs : List Host.Cell) : (s.hostStores hs).delivered = s.delivered := rfl
@[simp] theorem State.hostStores_rel (hs : List Host.Cell) : (s.hostStores hs).rel = s.rel := rfl
@[simp] theorem State.hostStores_power (hs : List Host.Cell) : (s.hostStores hs).power = s.power := rfl
@[simp] theorem State.hostStores_boot (hs : List Host.Cell) : (s.hostStores hs).boot = s.boot := rfl
@[simp] theorem State.hostStores_sec (hs : List Host.Cell) : (s.hostStores hs).sec = s.sec := rfl
@[simp] theorem State.hostStores_cxl (hs : List Host.Cell) : (s.hostStores hs).cxl = s.cxl := rfl
@[simp] theorem State.hostStores_site (hs : List Host.Cell) : (s.hostStores hs).site = s.site := rfl

@[simp] theorem State.post_pending (a : Nat) (bs : List Byte) (p : Bool) : (s.post a bs p).pending = s.pending := rfl
@[simp] theorem State.post_uptime (a : Nat) (bs : List Byte) (p : Bool) : (s.post a bs p).uptime = s.uptime := rfl
@[simp] theorem State.post_ft (a : Nat) (bs : List Byte) (p : Bool) : (s.post a bs p).ft = s.ft := rfl
@[simp] theorem State.post_windows (a : Nat) (bs : List Byte) (p : Bool) : (s.post a bs p).windows = s.windows := rfl
@[simp] theorem State.post_works (a : Nat) (bs : List Byte) (p : Bool) : (s.post a bs p).works = s.works := rfl
@[simp] theorem State.post_nextPid (a : Nat) (bs : List Byte) (p : Bool) : (s.post a bs p).nextPid = s.nextPid := rfl
@[simp] theorem State.post_freeCount (a : Nat) (bs : List Byte) (p : Bool) : (s.post a bs p).freeCount = s.freeCount := rfl
@[simp] theorem State.post_jobs (a : Nat) (bs : List Byte) (p : Bool) : (s.post a bs p).jobs = s.jobs := rfl
@[simp] theorem State.post_tensors (a : Nat) (bs : List Byte) (p : Bool) : (s.post a bs p).tensors = s.tensors := rfl
@[simp] theorem State.post_shards (a : Nat) (bs : List Byte) (p : Bool) : (s.post a bs p).shards = s.shards := rfl
@[simp] theorem State.post_mem (a : Nat) (bs : List Byte) (p : Bool) : (s.post a bs p).mem = s.mem := rfl
@[simp] theorem State.post_stores (a : Nat) (bs : List Byte) (p : Bool) : (s.post a bs p).stores = s.stores := rfl
@[simp] theorem State.post_hostMem (a : Nat) (bs : List Byte) (p : Bool) : (s.post a bs p).hostMem = s.hostMem := rfl
@[simp] theorem State.post_pageMap (a : Nat) (bs : List Byte) (p : Bool) : (s.post a bs p).pageMap = s.pageMap := rfl
@[simp] theorem State.post_moves (a : Nat) (bs : List Byte) (p : Bool) : (s.post a bs p).moves = s.moves := rfl
@[simp] theorem State.post_deferred (a : Nat) (bs : List Byte) (p : Bool) : (s.post a bs p).deferred = s.deferred := rfl
@[simp] theorem State.post_staged (a : Nat) (bs : List Byte) (p : Bool) : (s.post a bs p).staged = s.staged := rfl
@[simp] theorem State.post_access (a : Nat) (bs : List Byte) (p : Bool) : (s.post a bs p).access = s.access := rfl
@[simp] theorem State.post_memErr (a : Nat) (bs : List Byte) (p : Bool) : (s.post a bs p).memErr = s.memErr := rfl
@[simp] theorem State.post_itemMaps (a : Nat) (bs : List Byte) (p : Bool) : (s.post a bs p).itemMaps = s.itemMaps := rfl
@[simp] theorem State.post_threads (a : Nat) (bs : List Byte) (p : Bool) : (s.post a bs p).threads = s.threads := rfl
@[simp] theorem State.post_weights (a : Nat) (bs : List Byte) (p : Bool) : (s.post a bs p).weights = s.weights := rfl
@[simp] theorem State.post_gathered (a : Nat) (bs : List Byte) (p : Bool) : (s.post a bs p).gathered = s.gathered := rfl
@[simp] theorem State.post_fetched (a : Nat) (bs : List Byte) (p : Bool) : (s.post a bs p).fetched = s.fetched := rfl
@[simp] theorem State.post_remotes (a : Nat) (bs : List Byte) (p : Bool) : (s.post a bs p).remotes = s.remotes := rfl
@[simp] theorem State.post_nextTag (a : Nat) (bs : List Byte) (p : Bool) : (s.post a bs p).nextTag = s.nextTag := rfl
@[simp] theorem State.post_lastData (a : Nat) (bs : List Byte) (p : Bool) : (s.post a bs p).lastData = s.lastData := rfl
@[simp] theorem State.post_colls (a : Nat) (bs : List Byte) (p : Bool) : (s.post a bs p).colls = s.colls := rfl
@[simp] theorem State.post_buckets (a : Nat) (bs : List Byte) (p : Bool) : (s.post a bs p).buckets = s.buckets := rfl
@[simp] theorem State.post_rowan (a : Nat) (bs : List Byte) (p : Bool) : (s.post a bs p).rowan = s.rowan := rfl
@[simp] theorem State.post_rowanEarly (a : Nat) (bs : List Byte) (p : Bool) : (s.post a bs p).rowanEarly = s.rowanEarly := rfl
@[simp] theorem State.post_tagUses (a : Nat) (bs : List Byte) (p : Bool) : (s.post a bs p).tagUses = s.tagUses := rfl
@[simp] theorem State.post_binds (a : Nat) (bs : List Byte) (p : Bool) : (s.post a bs p).binds = s.binds := rfl
@[simp] theorem State.post_bindSent (a : Nat) (bs : List Byte) (p : Bool) : (s.post a bs p).bindSent = s.bindSent := rfl
@[simp] theorem State.post_vcMarks (a : Nat) (bs : List Byte) (p : Bool) : (s.post a bs p).vcMarks = s.vcMarks := rfl
@[simp] theorem State.post_ramps (a : Nat) (bs : List Byte) (p : Bool) : (s.post a bs p).ramps = s.ramps := rfl
@[simp] theorem State.post_links (a : Nat) (bs : List Byte) (p : Bool) : (s.post a bs p).links = s.links := rfl
@[simp] theorem State.post_ports (a : Nat) (bs : List Byte) (p : Bool) : (s.post a bs p).ports = s.ports := rfl
@[simp] theorem State.post_fabric (a : Nat) (bs : List Byte) (p : Bool) : (s.post a bs p).fabric = s.fabric := rfl
@[simp] theorem State.post_delivered (a : Nat) (bs : List Byte) (p : Bool) : (s.post a bs p).delivered = s.delivered := rfl
@[simp] theorem State.post_rel (a : Nat) (bs : List Byte) (p : Bool) : (s.post a bs p).rel = s.rel := rfl
@[simp] theorem State.post_power (a : Nat) (bs : List Byte) (p : Bool) : (s.post a bs p).power = s.power := rfl
@[simp] theorem State.post_boot (a : Nat) (bs : List Byte) (p : Bool) : (s.post a bs p).boot = s.boot := rfl
@[simp] theorem State.post_sec (a : Nat) (bs : List Byte) (p : Bool) : (s.post a bs p).sec = s.sec := rfl
@[simp] theorem State.post_cxl (a : Nat) (bs : List Byte) (p : Bool) : (s.post a bs p).cxl = { s.cxl with held := s.cxl.held ++ [{ addr := a, bytes := bs, poison := p }] } := rfl
@[simp] theorem State.post_site (a : Nat) (bs : List Byte) (p : Bool) : (s.post a bs p).site = s.site := rfl

@[simp] theorem State.release_pending (w n : Nat) : (s.release w n).pending = s.pending := rfl
@[simp] theorem State.release_uptime (w n : Nat) : (s.release w n).uptime = s.uptime := rfl
@[simp] theorem State.release_ft (w n : Nat) : (s.release w n).ft = s.ft := rfl
@[simp] theorem State.release_windows (w n : Nat) : (s.release w n).windows = vmod s.windows w fun x => { x with reserved := x.reserved - n } := rfl
@[simp] theorem State.release_works (w n : Nat) : (s.release w n).works = s.works := rfl
@[simp] theorem State.release_nextPid (w n : Nat) : (s.release w n).nextPid = s.nextPid := rfl
@[simp] theorem State.release_freeCount (w n : Nat) : (s.release w n).freeCount = s.freeCount := rfl
@[simp] theorem State.release_jobs (w n : Nat) : (s.release w n).jobs = s.jobs := rfl
@[simp] theorem State.release_tensors (w n : Nat) : (s.release w n).tensors = s.tensors := rfl
@[simp] theorem State.release_shards (w n : Nat) : (s.release w n).shards = s.shards := rfl
@[simp] theorem State.release_mem (w n : Nat) : (s.release w n).mem = s.mem := rfl
@[simp] theorem State.release_stores (w n : Nat) : (s.release w n).stores = s.stores := rfl
@[simp] theorem State.release_hostMem (w n : Nat) : (s.release w n).hostMem = s.hostMem := rfl
@[simp] theorem State.release_pageMap (w n : Nat) : (s.release w n).pageMap = s.pageMap := rfl
@[simp] theorem State.release_moves (w n : Nat) : (s.release w n).moves = s.moves := rfl
@[simp] theorem State.release_deferred (w n : Nat) : (s.release w n).deferred = s.deferred := rfl
@[simp] theorem State.release_staged (w n : Nat) : (s.release w n).staged = s.staged := rfl
@[simp] theorem State.release_access (w n : Nat) : (s.release w n).access = s.access := rfl
@[simp] theorem State.release_memErr (w n : Nat) : (s.release w n).memErr = s.memErr := rfl
@[simp] theorem State.release_itemMaps (w n : Nat) : (s.release w n).itemMaps = s.itemMaps := rfl
@[simp] theorem State.release_threads (w n : Nat) : (s.release w n).threads = s.threads := rfl
@[simp] theorem State.release_weights (w n : Nat) : (s.release w n).weights = s.weights := rfl
@[simp] theorem State.release_gathered (w n : Nat) : (s.release w n).gathered = s.gathered := rfl
@[simp] theorem State.release_fetched (w n : Nat) : (s.release w n).fetched = s.fetched := rfl
@[simp] theorem State.release_remotes (w n : Nat) : (s.release w n).remotes = s.remotes := rfl
@[simp] theorem State.release_nextTag (w n : Nat) : (s.release w n).nextTag = s.nextTag := rfl
@[simp] theorem State.release_lastData (w n : Nat) : (s.release w n).lastData = s.lastData := rfl
@[simp] theorem State.release_colls (w n : Nat) : (s.release w n).colls = s.colls := rfl
@[simp] theorem State.release_buckets (w n : Nat) : (s.release w n).buckets = s.buckets := rfl
@[simp] theorem State.release_rowan (w n : Nat) : (s.release w n).rowan = s.rowan := rfl
@[simp] theorem State.release_rowanEarly (w n : Nat) : (s.release w n).rowanEarly = s.rowanEarly := rfl
@[simp] theorem State.release_tagUses (w n : Nat) : (s.release w n).tagUses = s.tagUses := rfl
@[simp] theorem State.release_binds (w n : Nat) : (s.release w n).binds = s.binds := rfl
@[simp] theorem State.release_bindSent (w n : Nat) : (s.release w n).bindSent = s.bindSent := rfl
@[simp] theorem State.release_vcMarks (w n : Nat) : (s.release w n).vcMarks = s.vcMarks := rfl
@[simp] theorem State.release_ramps (w n : Nat) : (s.release w n).ramps = s.ramps := rfl
@[simp] theorem State.release_links (w n : Nat) : (s.release w n).links = s.links := rfl
@[simp] theorem State.release_ports (w n : Nat) : (s.release w n).ports = s.ports := rfl
@[simp] theorem State.release_fabric (w n : Nat) : (s.release w n).fabric = s.fabric := rfl
@[simp] theorem State.release_delivered (w n : Nat) : (s.release w n).delivered = s.delivered := rfl
@[simp] theorem State.release_rel (w n : Nat) : (s.release w n).rel = s.rel := rfl
@[simp] theorem State.release_power (w n : Nat) : (s.release w n).power = s.power := rfl
@[simp] theorem State.release_boot (w n : Nat) : (s.release w n).boot = s.boot := rfl
@[simp] theorem State.release_sec (w n : Nat) : (s.release w n).sec = s.sec := rfl
@[simp] theorem State.release_cxl (w n : Nat) : (s.release w n).cxl = s.cxl := rfl
@[simp] theorem State.release_site (w n : Nat) : (s.release w n).site = s.site := rfl

@[simp] theorem State.modWork_pending (pid : Nat) (f : Work → Work) : (s.modWork pid f).pending = s.pending := rfl
@[simp] theorem State.modWork_uptime (pid : Nat) (f : Work → Work) : (s.modWork pid f).uptime = s.uptime := rfl
@[simp] theorem State.modWork_ft (pid : Nat) (f : Work → Work) : (s.modWork pid f).ft = s.ft := rfl
@[simp] theorem State.modWork_windows (pid : Nat) (f : Work → Work) : (s.modWork pid f).windows = s.windows := rfl
@[simp] theorem State.modWork_works (pid : Nat) (f : Work → Work) : (s.modWork pid f).works = updFirst (fun w => w.pid == pid) f s.works := rfl
@[simp] theorem State.modWork_nextPid (pid : Nat) (f : Work → Work) : (s.modWork pid f).nextPid = s.nextPid := rfl
@[simp] theorem State.modWork_freeCount (pid : Nat) (f : Work → Work) : (s.modWork pid f).freeCount = s.freeCount := rfl
@[simp] theorem State.modWork_jobs (pid : Nat) (f : Work → Work) : (s.modWork pid f).jobs = s.jobs := rfl
@[simp] theorem State.modWork_tensors (pid : Nat) (f : Work → Work) : (s.modWork pid f).tensors = s.tensors := rfl
@[simp] theorem State.modWork_shards (pid : Nat) (f : Work → Work) : (s.modWork pid f).shards = s.shards := rfl
@[simp] theorem State.modWork_mem (pid : Nat) (f : Work → Work) : (s.modWork pid f).mem = s.mem := rfl
@[simp] theorem State.modWork_stores (pid : Nat) (f : Work → Work) : (s.modWork pid f).stores = s.stores := rfl
@[simp] theorem State.modWork_hostMem (pid : Nat) (f : Work → Work) : (s.modWork pid f).hostMem = s.hostMem := rfl
@[simp] theorem State.modWork_pageMap (pid : Nat) (f : Work → Work) : (s.modWork pid f).pageMap = s.pageMap := rfl
@[simp] theorem State.modWork_moves (pid : Nat) (f : Work → Work) : (s.modWork pid f).moves = s.moves := rfl
@[simp] theorem State.modWork_deferred (pid : Nat) (f : Work → Work) : (s.modWork pid f).deferred = s.deferred := rfl
@[simp] theorem State.modWork_staged (pid : Nat) (f : Work → Work) : (s.modWork pid f).staged = s.staged := rfl
@[simp] theorem State.modWork_access (pid : Nat) (f : Work → Work) : (s.modWork pid f).access = s.access := rfl
@[simp] theorem State.modWork_memErr (pid : Nat) (f : Work → Work) : (s.modWork pid f).memErr = s.memErr := rfl
@[simp] theorem State.modWork_itemMaps (pid : Nat) (f : Work → Work) : (s.modWork pid f).itemMaps = s.itemMaps := rfl
@[simp] theorem State.modWork_threads (pid : Nat) (f : Work → Work) : (s.modWork pid f).threads = s.threads := rfl
@[simp] theorem State.modWork_weights (pid : Nat) (f : Work → Work) : (s.modWork pid f).weights = s.weights := rfl
@[simp] theorem State.modWork_gathered (pid : Nat) (f : Work → Work) : (s.modWork pid f).gathered = s.gathered := rfl
@[simp] theorem State.modWork_fetched (pid : Nat) (f : Work → Work) : (s.modWork pid f).fetched = s.fetched := rfl
@[simp] theorem State.modWork_remotes (pid : Nat) (f : Work → Work) : (s.modWork pid f).remotes = s.remotes := rfl
@[simp] theorem State.modWork_nextTag (pid : Nat) (f : Work → Work) : (s.modWork pid f).nextTag = s.nextTag := rfl
@[simp] theorem State.modWork_lastData (pid : Nat) (f : Work → Work) : (s.modWork pid f).lastData = s.lastData := rfl
@[simp] theorem State.modWork_colls (pid : Nat) (f : Work → Work) : (s.modWork pid f).colls = s.colls := rfl
@[simp] theorem State.modWork_buckets (pid : Nat) (f : Work → Work) : (s.modWork pid f).buckets = s.buckets := rfl
@[simp] theorem State.modWork_rowan (pid : Nat) (f : Work → Work) : (s.modWork pid f).rowan = s.rowan := rfl
@[simp] theorem State.modWork_rowanEarly (pid : Nat) (f : Work → Work) : (s.modWork pid f).rowanEarly = s.rowanEarly := rfl
@[simp] theorem State.modWork_tagUses (pid : Nat) (f : Work → Work) : (s.modWork pid f).tagUses = s.tagUses := rfl
@[simp] theorem State.modWork_binds (pid : Nat) (f : Work → Work) : (s.modWork pid f).binds = s.binds := rfl
@[simp] theorem State.modWork_bindSent (pid : Nat) (f : Work → Work) : (s.modWork pid f).bindSent = s.bindSent := rfl
@[simp] theorem State.modWork_vcMarks (pid : Nat) (f : Work → Work) : (s.modWork pid f).vcMarks = s.vcMarks := rfl
@[simp] theorem State.modWork_ramps (pid : Nat) (f : Work → Work) : (s.modWork pid f).ramps = s.ramps := rfl
@[simp] theorem State.modWork_links (pid : Nat) (f : Work → Work) : (s.modWork pid f).links = s.links := rfl
@[simp] theorem State.modWork_ports (pid : Nat) (f : Work → Work) : (s.modWork pid f).ports = s.ports := rfl
@[simp] theorem State.modWork_fabric (pid : Nat) (f : Work → Work) : (s.modWork pid f).fabric = s.fabric := rfl
@[simp] theorem State.modWork_delivered (pid : Nat) (f : Work → Work) : (s.modWork pid f).delivered = s.delivered := rfl
@[simp] theorem State.modWork_rel (pid : Nat) (f : Work → Work) : (s.modWork pid f).rel = s.rel := rfl
@[simp] theorem State.modWork_power (pid : Nat) (f : Work → Work) : (s.modWork pid f).power = s.power := rfl
@[simp] theorem State.modWork_boot (pid : Nat) (f : Work → Work) : (s.modWork pid f).boot = s.boot := rfl
@[simp] theorem State.modWork_sec (pid : Nat) (f : Work → Work) : (s.modWork pid f).sec = s.sec := rfl
@[simp] theorem State.modWork_cxl (pid : Nat) (f : Work → Work) : (s.modWork pid f).cxl = s.cxl := rfl
@[simp] theorem State.modWork_site (pid : Nat) (f : Work → Work) : (s.modWork pid f).site = s.site := rfl

@[simp] theorem State.modJob_pending (j : Nat) (f : Job → Job) : (s.modJob j f).pending = s.pending := rfl
@[simp] theorem State.modJob_uptime (j : Nat) (f : Job → Job) : (s.modJob j f).uptime = s.uptime := rfl
@[simp] theorem State.modJob_ft (j : Nat) (f : Job → Job) : (s.modJob j f).ft = s.ft := rfl
@[simp] theorem State.modJob_windows (j : Nat) (f : Job → Job) : (s.modJob j f).windows = s.windows := rfl
@[simp] theorem State.modJob_works (j : Nat) (f : Job → Job) : (s.modJob j f).works = s.works := rfl
@[simp] theorem State.modJob_nextPid (j : Nat) (f : Job → Job) : (s.modJob j f).nextPid = s.nextPid := rfl
@[simp] theorem State.modJob_freeCount (j : Nat) (f : Job → Job) : (s.modJob j f).freeCount = s.freeCount := rfl
@[simp] theorem State.modJob_jobs (j : Nat) (f : Job → Job) : (s.modJob j f).jobs = vmod s.jobs j f := rfl
@[simp] theorem State.modJob_tensors (j : Nat) (f : Job → Job) : (s.modJob j f).tensors = s.tensors := rfl
@[simp] theorem State.modJob_shards (j : Nat) (f : Job → Job) : (s.modJob j f).shards = s.shards := rfl
@[simp] theorem State.modJob_mem (j : Nat) (f : Job → Job) : (s.modJob j f).mem = s.mem := rfl
@[simp] theorem State.modJob_stores (j : Nat) (f : Job → Job) : (s.modJob j f).stores = s.stores := rfl
@[simp] theorem State.modJob_hostMem (j : Nat) (f : Job → Job) : (s.modJob j f).hostMem = s.hostMem := rfl
@[simp] theorem State.modJob_pageMap (j : Nat) (f : Job → Job) : (s.modJob j f).pageMap = s.pageMap := rfl
@[simp] theorem State.modJob_moves (j : Nat) (f : Job → Job) : (s.modJob j f).moves = s.moves := rfl
@[simp] theorem State.modJob_deferred (j : Nat) (f : Job → Job) : (s.modJob j f).deferred = s.deferred := rfl
@[simp] theorem State.modJob_staged (j : Nat) (f : Job → Job) : (s.modJob j f).staged = s.staged := rfl
@[simp] theorem State.modJob_access (j : Nat) (f : Job → Job) : (s.modJob j f).access = s.access := rfl
@[simp] theorem State.modJob_memErr (j : Nat) (f : Job → Job) : (s.modJob j f).memErr = s.memErr := rfl
@[simp] theorem State.modJob_itemMaps (j : Nat) (f : Job → Job) : (s.modJob j f).itemMaps = s.itemMaps := rfl
@[simp] theorem State.modJob_threads (j : Nat) (f : Job → Job) : (s.modJob j f).threads = s.threads := rfl
@[simp] theorem State.modJob_weights (j : Nat) (f : Job → Job) : (s.modJob j f).weights = s.weights := rfl
@[simp] theorem State.modJob_gathered (j : Nat) (f : Job → Job) : (s.modJob j f).gathered = s.gathered := rfl
@[simp] theorem State.modJob_fetched (j : Nat) (f : Job → Job) : (s.modJob j f).fetched = s.fetched := rfl
@[simp] theorem State.modJob_remotes (j : Nat) (f : Job → Job) : (s.modJob j f).remotes = s.remotes := rfl
@[simp] theorem State.modJob_nextTag (j : Nat) (f : Job → Job) : (s.modJob j f).nextTag = s.nextTag := rfl
@[simp] theorem State.modJob_lastData (j : Nat) (f : Job → Job) : (s.modJob j f).lastData = s.lastData := rfl
@[simp] theorem State.modJob_colls (j : Nat) (f : Job → Job) : (s.modJob j f).colls = s.colls := rfl
@[simp] theorem State.modJob_buckets (j : Nat) (f : Job → Job) : (s.modJob j f).buckets = s.buckets := rfl
@[simp] theorem State.modJob_rowan (j : Nat) (f : Job → Job) : (s.modJob j f).rowan = s.rowan := rfl
@[simp] theorem State.modJob_rowanEarly (j : Nat) (f : Job → Job) : (s.modJob j f).rowanEarly = s.rowanEarly := rfl
@[simp] theorem State.modJob_tagUses (j : Nat) (f : Job → Job) : (s.modJob j f).tagUses = s.tagUses := rfl
@[simp] theorem State.modJob_binds (j : Nat) (f : Job → Job) : (s.modJob j f).binds = s.binds := rfl
@[simp] theorem State.modJob_bindSent (j : Nat) (f : Job → Job) : (s.modJob j f).bindSent = s.bindSent := rfl
@[simp] theorem State.modJob_vcMarks (j : Nat) (f : Job → Job) : (s.modJob j f).vcMarks = s.vcMarks := rfl
@[simp] theorem State.modJob_ramps (j : Nat) (f : Job → Job) : (s.modJob j f).ramps = s.ramps := rfl
@[simp] theorem State.modJob_links (j : Nat) (f : Job → Job) : (s.modJob j f).links = s.links := rfl
@[simp] theorem State.modJob_ports (j : Nat) (f : Job → Job) : (s.modJob j f).ports = s.ports := rfl
@[simp] theorem State.modJob_fabric (j : Nat) (f : Job → Job) : (s.modJob j f).fabric = s.fabric := rfl
@[simp] theorem State.modJob_delivered (j : Nat) (f : Job → Job) : (s.modJob j f).delivered = s.delivered := rfl
@[simp] theorem State.modJob_rel (j : Nat) (f : Job → Job) : (s.modJob j f).rel = s.rel := rfl
@[simp] theorem State.modJob_power (j : Nat) (f : Job → Job) : (s.modJob j f).power = s.power := rfl
@[simp] theorem State.modJob_boot (j : Nat) (f : Job → Job) : (s.modJob j f).boot = s.boot := rfl
@[simp] theorem State.modJob_sec (j : Nat) (f : Job → Job) : (s.modJob j f).sec = s.sec := rfl
@[simp] theorem State.modJob_cxl (j : Nat) (f : Job → Job) : (s.modJob j f).cxl = s.cxl := rfl
@[simp] theorem State.modJob_site (j : Nat) (f : Job → Job) : (s.modJob j f).site = s.site := rfl

@[simp] theorem State.modWindow_pending (w : Nat) (f : Window → Window) : (s.modWindow w f).pending = s.pending := rfl
@[simp] theorem State.modWindow_uptime (w : Nat) (f : Window → Window) : (s.modWindow w f).uptime = s.uptime := rfl
@[simp] theorem State.modWindow_ft (w : Nat) (f : Window → Window) : (s.modWindow w f).ft = s.ft := rfl
@[simp] theorem State.modWindow_windows (w : Nat) (f : Window → Window) : (s.modWindow w f).windows = vmod s.windows w f := rfl
@[simp] theorem State.modWindow_works (w : Nat) (f : Window → Window) : (s.modWindow w f).works = s.works := rfl
@[simp] theorem State.modWindow_nextPid (w : Nat) (f : Window → Window) : (s.modWindow w f).nextPid = s.nextPid := rfl
@[simp] theorem State.modWindow_freeCount (w : Nat) (f : Window → Window) : (s.modWindow w f).freeCount = s.freeCount := rfl
@[simp] theorem State.modWindow_jobs (w : Nat) (f : Window → Window) : (s.modWindow w f).jobs = s.jobs := rfl
@[simp] theorem State.modWindow_tensors (w : Nat) (f : Window → Window) : (s.modWindow w f).tensors = s.tensors := rfl
@[simp] theorem State.modWindow_shards (w : Nat) (f : Window → Window) : (s.modWindow w f).shards = s.shards := rfl
@[simp] theorem State.modWindow_mem (w : Nat) (f : Window → Window) : (s.modWindow w f).mem = s.mem := rfl
@[simp] theorem State.modWindow_stores (w : Nat) (f : Window → Window) : (s.modWindow w f).stores = s.stores := rfl
@[simp] theorem State.modWindow_hostMem (w : Nat) (f : Window → Window) : (s.modWindow w f).hostMem = s.hostMem := rfl
@[simp] theorem State.modWindow_pageMap (w : Nat) (f : Window → Window) : (s.modWindow w f).pageMap = s.pageMap := rfl
@[simp] theorem State.modWindow_moves (w : Nat) (f : Window → Window) : (s.modWindow w f).moves = s.moves := rfl
@[simp] theorem State.modWindow_deferred (w : Nat) (f : Window → Window) : (s.modWindow w f).deferred = s.deferred := rfl
@[simp] theorem State.modWindow_staged (w : Nat) (f : Window → Window) : (s.modWindow w f).staged = s.staged := rfl
@[simp] theorem State.modWindow_access (w : Nat) (f : Window → Window) : (s.modWindow w f).access = s.access := rfl
@[simp] theorem State.modWindow_memErr (w : Nat) (f : Window → Window) : (s.modWindow w f).memErr = s.memErr := rfl
@[simp] theorem State.modWindow_itemMaps (w : Nat) (f : Window → Window) : (s.modWindow w f).itemMaps = s.itemMaps := rfl
@[simp] theorem State.modWindow_threads (w : Nat) (f : Window → Window) : (s.modWindow w f).threads = s.threads := rfl
@[simp] theorem State.modWindow_weights (w : Nat) (f : Window → Window) : (s.modWindow w f).weights = s.weights := rfl
@[simp] theorem State.modWindow_gathered (w : Nat) (f : Window → Window) : (s.modWindow w f).gathered = s.gathered := rfl
@[simp] theorem State.modWindow_fetched (w : Nat) (f : Window → Window) : (s.modWindow w f).fetched = s.fetched := rfl
@[simp] theorem State.modWindow_remotes (w : Nat) (f : Window → Window) : (s.modWindow w f).remotes = s.remotes := rfl
@[simp] theorem State.modWindow_nextTag (w : Nat) (f : Window → Window) : (s.modWindow w f).nextTag = s.nextTag := rfl
@[simp] theorem State.modWindow_lastData (w : Nat) (f : Window → Window) : (s.modWindow w f).lastData = s.lastData := rfl
@[simp] theorem State.modWindow_colls (w : Nat) (f : Window → Window) : (s.modWindow w f).colls = s.colls := rfl
@[simp] theorem State.modWindow_buckets (w : Nat) (f : Window → Window) : (s.modWindow w f).buckets = s.buckets := rfl
@[simp] theorem State.modWindow_rowan (w : Nat) (f : Window → Window) : (s.modWindow w f).rowan = s.rowan := rfl
@[simp] theorem State.modWindow_rowanEarly (w : Nat) (f : Window → Window) : (s.modWindow w f).rowanEarly = s.rowanEarly := rfl
@[simp] theorem State.modWindow_tagUses (w : Nat) (f : Window → Window) : (s.modWindow w f).tagUses = s.tagUses := rfl
@[simp] theorem State.modWindow_binds (w : Nat) (f : Window → Window) : (s.modWindow w f).binds = s.binds := rfl
@[simp] theorem State.modWindow_bindSent (w : Nat) (f : Window → Window) : (s.modWindow w f).bindSent = s.bindSent := rfl
@[simp] theorem State.modWindow_vcMarks (w : Nat) (f : Window → Window) : (s.modWindow w f).vcMarks = s.vcMarks := rfl
@[simp] theorem State.modWindow_ramps (w : Nat) (f : Window → Window) : (s.modWindow w f).ramps = s.ramps := rfl
@[simp] theorem State.modWindow_links (w : Nat) (f : Window → Window) : (s.modWindow w f).links = s.links := rfl
@[simp] theorem State.modWindow_ports (w : Nat) (f : Window → Window) : (s.modWindow w f).ports = s.ports := rfl
@[simp] theorem State.modWindow_fabric (w : Nat) (f : Window → Window) : (s.modWindow w f).fabric = s.fabric := rfl
@[simp] theorem State.modWindow_delivered (w : Nat) (f : Window → Window) : (s.modWindow w f).delivered = s.delivered := rfl
@[simp] theorem State.modWindow_rel (w : Nat) (f : Window → Window) : (s.modWindow w f).rel = s.rel := rfl
@[simp] theorem State.modWindow_power (w : Nat) (f : Window → Window) : (s.modWindow w f).power = s.power := rfl
@[simp] theorem State.modWindow_boot (w : Nat) (f : Window → Window) : (s.modWindow w f).boot = s.boot := rfl
@[simp] theorem State.modWindow_sec (w : Nat) (f : Window → Window) : (s.modWindow w f).sec = s.sec := rfl
@[simp] theorem State.modWindow_cxl (w : Nat) (f : Window → Window) : (s.modWindow w f).cxl = s.cxl := rfl
@[simp] theorem State.modWindow_site (w : Nat) (f : Window → Window) : (s.modWindow w f).site = s.site := rfl

@[simp] theorem State.modLink_pending (l : Nat) (f : Link → Link) : (s.modLink l f).pending = s.pending := rfl
@[simp] theorem State.modLink_uptime (l : Nat) (f : Link → Link) : (s.modLink l f).uptime = s.uptime := rfl
@[simp] theorem State.modLink_ft (l : Nat) (f : Link → Link) : (s.modLink l f).ft = s.ft := rfl
@[simp] theorem State.modLink_windows (l : Nat) (f : Link → Link) : (s.modLink l f).windows = s.windows := rfl
@[simp] theorem State.modLink_works (l : Nat) (f : Link → Link) : (s.modLink l f).works = s.works := rfl
@[simp] theorem State.modLink_nextPid (l : Nat) (f : Link → Link) : (s.modLink l f).nextPid = s.nextPid := rfl
@[simp] theorem State.modLink_freeCount (l : Nat) (f : Link → Link) : (s.modLink l f).freeCount = s.freeCount := rfl
@[simp] theorem State.modLink_jobs (l : Nat) (f : Link → Link) : (s.modLink l f).jobs = s.jobs := rfl
@[simp] theorem State.modLink_tensors (l : Nat) (f : Link → Link) : (s.modLink l f).tensors = s.tensors := rfl
@[simp] theorem State.modLink_shards (l : Nat) (f : Link → Link) : (s.modLink l f).shards = s.shards := rfl
@[simp] theorem State.modLink_mem (l : Nat) (f : Link → Link) : (s.modLink l f).mem = s.mem := rfl
@[simp] theorem State.modLink_stores (l : Nat) (f : Link → Link) : (s.modLink l f).stores = s.stores := rfl
@[simp] theorem State.modLink_hostMem (l : Nat) (f : Link → Link) : (s.modLink l f).hostMem = s.hostMem := rfl
@[simp] theorem State.modLink_pageMap (l : Nat) (f : Link → Link) : (s.modLink l f).pageMap = s.pageMap := rfl
@[simp] theorem State.modLink_moves (l : Nat) (f : Link → Link) : (s.modLink l f).moves = s.moves := rfl
@[simp] theorem State.modLink_deferred (l : Nat) (f : Link → Link) : (s.modLink l f).deferred = s.deferred := rfl
@[simp] theorem State.modLink_staged (l : Nat) (f : Link → Link) : (s.modLink l f).staged = s.staged := rfl
@[simp] theorem State.modLink_access (l : Nat) (f : Link → Link) : (s.modLink l f).access = s.access := rfl
@[simp] theorem State.modLink_memErr (l : Nat) (f : Link → Link) : (s.modLink l f).memErr = s.memErr := rfl
@[simp] theorem State.modLink_itemMaps (l : Nat) (f : Link → Link) : (s.modLink l f).itemMaps = s.itemMaps := rfl
@[simp] theorem State.modLink_threads (l : Nat) (f : Link → Link) : (s.modLink l f).threads = s.threads := rfl
@[simp] theorem State.modLink_weights (l : Nat) (f : Link → Link) : (s.modLink l f).weights = s.weights := rfl
@[simp] theorem State.modLink_gathered (l : Nat) (f : Link → Link) : (s.modLink l f).gathered = s.gathered := rfl
@[simp] theorem State.modLink_fetched (l : Nat) (f : Link → Link) : (s.modLink l f).fetched = s.fetched := rfl
@[simp] theorem State.modLink_remotes (l : Nat) (f : Link → Link) : (s.modLink l f).remotes = s.remotes := rfl
@[simp] theorem State.modLink_nextTag (l : Nat) (f : Link → Link) : (s.modLink l f).nextTag = s.nextTag := rfl
@[simp] theorem State.modLink_lastData (l : Nat) (f : Link → Link) : (s.modLink l f).lastData = s.lastData := rfl
@[simp] theorem State.modLink_colls (l : Nat) (f : Link → Link) : (s.modLink l f).colls = s.colls := rfl
@[simp] theorem State.modLink_buckets (l : Nat) (f : Link → Link) : (s.modLink l f).buckets = s.buckets := rfl
@[simp] theorem State.modLink_rowan (l : Nat) (f : Link → Link) : (s.modLink l f).rowan = s.rowan := rfl
@[simp] theorem State.modLink_rowanEarly (l : Nat) (f : Link → Link) : (s.modLink l f).rowanEarly = s.rowanEarly := rfl
@[simp] theorem State.modLink_tagUses (l : Nat) (f : Link → Link) : (s.modLink l f).tagUses = s.tagUses := rfl
@[simp] theorem State.modLink_binds (l : Nat) (f : Link → Link) : (s.modLink l f).binds = s.binds := rfl
@[simp] theorem State.modLink_bindSent (l : Nat) (f : Link → Link) : (s.modLink l f).bindSent = s.bindSent := rfl
@[simp] theorem State.modLink_vcMarks (l : Nat) (f : Link → Link) : (s.modLink l f).vcMarks = s.vcMarks := rfl
@[simp] theorem State.modLink_ramps (l : Nat) (f : Link → Link) : (s.modLink l f).ramps = s.ramps := rfl
@[simp] theorem State.modLink_links (l : Nat) (f : Link → Link) : (s.modLink l f).links = vmod s.links l f := rfl
@[simp] theorem State.modLink_ports (l : Nat) (f : Link → Link) : (s.modLink l f).ports = s.ports := rfl
@[simp] theorem State.modLink_fabric (l : Nat) (f : Link → Link) : (s.modLink l f).fabric = s.fabric := rfl
@[simp] theorem State.modLink_delivered (l : Nat) (f : Link → Link) : (s.modLink l f).delivered = s.delivered := rfl
@[simp] theorem State.modLink_rel (l : Nat) (f : Link → Link) : (s.modLink l f).rel = s.rel := rfl
@[simp] theorem State.modLink_power (l : Nat) (f : Link → Link) : (s.modLink l f).power = s.power := rfl
@[simp] theorem State.modLink_boot (l : Nat) (f : Link → Link) : (s.modLink l f).boot = s.boot := rfl
@[simp] theorem State.modLink_sec (l : Nat) (f : Link → Link) : (s.modLink l f).sec = s.sec := rfl
@[simp] theorem State.modLink_cxl (l : Nat) (f : Link → Link) : (s.modLink l f).cxl = s.cxl := rfl
@[simp] theorem State.modLink_site (l : Nat) (f : Link → Link) : (s.modLink l f).site = s.site := rfl

@[simp] theorem State.modPort_pending (p : Nat) (f : Port → Port) : (s.modPort p f).pending = s.pending := rfl
@[simp] theorem State.modPort_uptime (p : Nat) (f : Port → Port) : (s.modPort p f).uptime = s.uptime := rfl
@[simp] theorem State.modPort_ft (p : Nat) (f : Port → Port) : (s.modPort p f).ft = s.ft := rfl
@[simp] theorem State.modPort_windows (p : Nat) (f : Port → Port) : (s.modPort p f).windows = s.windows := rfl
@[simp] theorem State.modPort_works (p : Nat) (f : Port → Port) : (s.modPort p f).works = s.works := rfl
@[simp] theorem State.modPort_nextPid (p : Nat) (f : Port → Port) : (s.modPort p f).nextPid = s.nextPid := rfl
@[simp] theorem State.modPort_freeCount (p : Nat) (f : Port → Port) : (s.modPort p f).freeCount = s.freeCount := rfl
@[simp] theorem State.modPort_jobs (p : Nat) (f : Port → Port) : (s.modPort p f).jobs = s.jobs := rfl
@[simp] theorem State.modPort_tensors (p : Nat) (f : Port → Port) : (s.modPort p f).tensors = s.tensors := rfl
@[simp] theorem State.modPort_shards (p : Nat) (f : Port → Port) : (s.modPort p f).shards = s.shards := rfl
@[simp] theorem State.modPort_mem (p : Nat) (f : Port → Port) : (s.modPort p f).mem = s.mem := rfl
@[simp] theorem State.modPort_stores (p : Nat) (f : Port → Port) : (s.modPort p f).stores = s.stores := rfl
@[simp] theorem State.modPort_hostMem (p : Nat) (f : Port → Port) : (s.modPort p f).hostMem = s.hostMem := rfl
@[simp] theorem State.modPort_pageMap (p : Nat) (f : Port → Port) : (s.modPort p f).pageMap = s.pageMap := rfl
@[simp] theorem State.modPort_moves (p : Nat) (f : Port → Port) : (s.modPort p f).moves = s.moves := rfl
@[simp] theorem State.modPort_deferred (p : Nat) (f : Port → Port) : (s.modPort p f).deferred = s.deferred := rfl
@[simp] theorem State.modPort_staged (p : Nat) (f : Port → Port) : (s.modPort p f).staged = s.staged := rfl
@[simp] theorem State.modPort_access (p : Nat) (f : Port → Port) : (s.modPort p f).access = s.access := rfl
@[simp] theorem State.modPort_memErr (p : Nat) (f : Port → Port) : (s.modPort p f).memErr = s.memErr := rfl
@[simp] theorem State.modPort_itemMaps (p : Nat) (f : Port → Port) : (s.modPort p f).itemMaps = s.itemMaps := rfl
@[simp] theorem State.modPort_threads (p : Nat) (f : Port → Port) : (s.modPort p f).threads = s.threads := rfl
@[simp] theorem State.modPort_weights (p : Nat) (f : Port → Port) : (s.modPort p f).weights = s.weights := rfl
@[simp] theorem State.modPort_gathered (p : Nat) (f : Port → Port) : (s.modPort p f).gathered = s.gathered := rfl
@[simp] theorem State.modPort_fetched (p : Nat) (f : Port → Port) : (s.modPort p f).fetched = s.fetched := rfl
@[simp] theorem State.modPort_remotes (p : Nat) (f : Port → Port) : (s.modPort p f).remotes = s.remotes := rfl
@[simp] theorem State.modPort_nextTag (p : Nat) (f : Port → Port) : (s.modPort p f).nextTag = s.nextTag := rfl
@[simp] theorem State.modPort_lastData (p : Nat) (f : Port → Port) : (s.modPort p f).lastData = s.lastData := rfl
@[simp] theorem State.modPort_colls (p : Nat) (f : Port → Port) : (s.modPort p f).colls = s.colls := rfl
@[simp] theorem State.modPort_buckets (p : Nat) (f : Port → Port) : (s.modPort p f).buckets = s.buckets := rfl
@[simp] theorem State.modPort_rowan (p : Nat) (f : Port → Port) : (s.modPort p f).rowan = s.rowan := rfl
@[simp] theorem State.modPort_rowanEarly (p : Nat) (f : Port → Port) : (s.modPort p f).rowanEarly = s.rowanEarly := rfl
@[simp] theorem State.modPort_tagUses (p : Nat) (f : Port → Port) : (s.modPort p f).tagUses = s.tagUses := rfl
@[simp] theorem State.modPort_binds (p : Nat) (f : Port → Port) : (s.modPort p f).binds = s.binds := rfl
@[simp] theorem State.modPort_bindSent (p : Nat) (f : Port → Port) : (s.modPort p f).bindSent = s.bindSent := rfl
@[simp] theorem State.modPort_vcMarks (p : Nat) (f : Port → Port) : (s.modPort p f).vcMarks = s.vcMarks := rfl
@[simp] theorem State.modPort_ramps (p : Nat) (f : Port → Port) : (s.modPort p f).ramps = s.ramps := rfl
@[simp] theorem State.modPort_links (p : Nat) (f : Port → Port) : (s.modPort p f).links = s.links := rfl
@[simp] theorem State.modPort_ports (p : Nat) (f : Port → Port) : (s.modPort p f).ports = vmod s.ports p f := rfl
@[simp] theorem State.modPort_fabric (p : Nat) (f : Port → Port) : (s.modPort p f).fabric = s.fabric := rfl
@[simp] theorem State.modPort_delivered (p : Nat) (f : Port → Port) : (s.modPort p f).delivered = s.delivered := rfl
@[simp] theorem State.modPort_rel (p : Nat) (f : Port → Port) : (s.modPort p f).rel = s.rel := rfl
@[simp] theorem State.modPort_power (p : Nat) (f : Port → Port) : (s.modPort p f).power = s.power := rfl
@[simp] theorem State.modPort_boot (p : Nat) (f : Port → Port) : (s.modPort p f).boot = s.boot := rfl
@[simp] theorem State.modPort_sec (p : Nat) (f : Port → Port) : (s.modPort p f).sec = s.sec := rfl
@[simp] theorem State.modPort_cxl (p : Nat) (f : Port → Port) : (s.modPort p f).cxl = s.cxl := rfl
@[simp] theorem State.modPort_site (p : Nat) (f : Port → Port) : (s.modPort p f).site = s.site := rfl

@[simp] theorem State.modPower_pending (f : Power → Power) : (s.modPower f).pending = s.pending := rfl
@[simp] theorem State.modPower_uptime (f : Power → Power) : (s.modPower f).uptime = s.uptime := rfl
@[simp] theorem State.modPower_ft (f : Power → Power) : (s.modPower f).ft = s.ft := rfl
@[simp] theorem State.modPower_windows (f : Power → Power) : (s.modPower f).windows = s.windows := rfl
@[simp] theorem State.modPower_works (f : Power → Power) : (s.modPower f).works = s.works := rfl
@[simp] theorem State.modPower_nextPid (f : Power → Power) : (s.modPower f).nextPid = s.nextPid := rfl
@[simp] theorem State.modPower_freeCount (f : Power → Power) : (s.modPower f).freeCount = s.freeCount := rfl
@[simp] theorem State.modPower_jobs (f : Power → Power) : (s.modPower f).jobs = s.jobs := rfl
@[simp] theorem State.modPower_tensors (f : Power → Power) : (s.modPower f).tensors = s.tensors := rfl
@[simp] theorem State.modPower_shards (f : Power → Power) : (s.modPower f).shards = s.shards := rfl
@[simp] theorem State.modPower_mem (f : Power → Power) : (s.modPower f).mem = s.mem := rfl
@[simp] theorem State.modPower_stores (f : Power → Power) : (s.modPower f).stores = s.stores := rfl
@[simp] theorem State.modPower_hostMem (f : Power → Power) : (s.modPower f).hostMem = s.hostMem := rfl
@[simp] theorem State.modPower_pageMap (f : Power → Power) : (s.modPower f).pageMap = s.pageMap := rfl
@[simp] theorem State.modPower_moves (f : Power → Power) : (s.modPower f).moves = s.moves := rfl
@[simp] theorem State.modPower_deferred (f : Power → Power) : (s.modPower f).deferred = s.deferred := rfl
@[simp] theorem State.modPower_staged (f : Power → Power) : (s.modPower f).staged = s.staged := rfl
@[simp] theorem State.modPower_access (f : Power → Power) : (s.modPower f).access = s.access := rfl
@[simp] theorem State.modPower_memErr (f : Power → Power) : (s.modPower f).memErr = s.memErr := rfl
@[simp] theorem State.modPower_itemMaps (f : Power → Power) : (s.modPower f).itemMaps = s.itemMaps := rfl
@[simp] theorem State.modPower_threads (f : Power → Power) : (s.modPower f).threads = s.threads := rfl
@[simp] theorem State.modPower_weights (f : Power → Power) : (s.modPower f).weights = s.weights := rfl
@[simp] theorem State.modPower_gathered (f : Power → Power) : (s.modPower f).gathered = s.gathered := rfl
@[simp] theorem State.modPower_fetched (f : Power → Power) : (s.modPower f).fetched = s.fetched := rfl
@[simp] theorem State.modPower_remotes (f : Power → Power) : (s.modPower f).remotes = s.remotes := rfl
@[simp] theorem State.modPower_nextTag (f : Power → Power) : (s.modPower f).nextTag = s.nextTag := rfl
@[simp] theorem State.modPower_lastData (f : Power → Power) : (s.modPower f).lastData = s.lastData := rfl
@[simp] theorem State.modPower_colls (f : Power → Power) : (s.modPower f).colls = s.colls := rfl
@[simp] theorem State.modPower_buckets (f : Power → Power) : (s.modPower f).buckets = s.buckets := rfl
@[simp] theorem State.modPower_rowan (f : Power → Power) : (s.modPower f).rowan = s.rowan := rfl
@[simp] theorem State.modPower_rowanEarly (f : Power → Power) : (s.modPower f).rowanEarly = s.rowanEarly := rfl
@[simp] theorem State.modPower_tagUses (f : Power → Power) : (s.modPower f).tagUses = s.tagUses := rfl
@[simp] theorem State.modPower_binds (f : Power → Power) : (s.modPower f).binds = s.binds := rfl
@[simp] theorem State.modPower_bindSent (f : Power → Power) : (s.modPower f).bindSent = s.bindSent := rfl
@[simp] theorem State.modPower_vcMarks (f : Power → Power) : (s.modPower f).vcMarks = s.vcMarks := rfl
@[simp] theorem State.modPower_ramps (f : Power → Power) : (s.modPower f).ramps = s.ramps := rfl
@[simp] theorem State.modPower_links (f : Power → Power) : (s.modPower f).links = s.links := rfl
@[simp] theorem State.modPower_ports (f : Power → Power) : (s.modPower f).ports = s.ports := rfl
@[simp] theorem State.modPower_fabric (f : Power → Power) : (s.modPower f).fabric = s.fabric := rfl
@[simp] theorem State.modPower_delivered (f : Power → Power) : (s.modPower f).delivered = s.delivered := rfl
@[simp] theorem State.modPower_rel (f : Power → Power) : (s.modPower f).rel = s.rel := rfl
@[simp] theorem State.modPower_power (f : Power → Power) : (s.modPower f).power = f s.power := rfl
@[simp] theorem State.modPower_boot (f : Power → Power) : (s.modPower f).boot = s.boot := rfl
@[simp] theorem State.modPower_sec (f : Power → Power) : (s.modPower f).sec = s.sec := rfl
@[simp] theorem State.modPower_cxl (f : Power → Power) : (s.modPower f).cxl = s.cxl := rfl
@[simp] theorem State.modPower_site (f : Power → Power) : (s.modPower f).site = s.site := rfl

@[simp] theorem State.modBoot_pending (f : Boot → Boot) : (s.modBoot f).pending = s.pending := rfl
@[simp] theorem State.modBoot_uptime (f : Boot → Boot) : (s.modBoot f).uptime = s.uptime := rfl
@[simp] theorem State.modBoot_ft (f : Boot → Boot) : (s.modBoot f).ft = s.ft := rfl
@[simp] theorem State.modBoot_windows (f : Boot → Boot) : (s.modBoot f).windows = s.windows := rfl
@[simp] theorem State.modBoot_works (f : Boot → Boot) : (s.modBoot f).works = s.works := rfl
@[simp] theorem State.modBoot_nextPid (f : Boot → Boot) : (s.modBoot f).nextPid = s.nextPid := rfl
@[simp] theorem State.modBoot_freeCount (f : Boot → Boot) : (s.modBoot f).freeCount = s.freeCount := rfl
@[simp] theorem State.modBoot_jobs (f : Boot → Boot) : (s.modBoot f).jobs = s.jobs := rfl
@[simp] theorem State.modBoot_tensors (f : Boot → Boot) : (s.modBoot f).tensors = s.tensors := rfl
@[simp] theorem State.modBoot_shards (f : Boot → Boot) : (s.modBoot f).shards = s.shards := rfl
@[simp] theorem State.modBoot_mem (f : Boot → Boot) : (s.modBoot f).mem = s.mem := rfl
@[simp] theorem State.modBoot_stores (f : Boot → Boot) : (s.modBoot f).stores = s.stores := rfl
@[simp] theorem State.modBoot_hostMem (f : Boot → Boot) : (s.modBoot f).hostMem = s.hostMem := rfl
@[simp] theorem State.modBoot_pageMap (f : Boot → Boot) : (s.modBoot f).pageMap = s.pageMap := rfl
@[simp] theorem State.modBoot_moves (f : Boot → Boot) : (s.modBoot f).moves = s.moves := rfl
@[simp] theorem State.modBoot_deferred (f : Boot → Boot) : (s.modBoot f).deferred = s.deferred := rfl
@[simp] theorem State.modBoot_staged (f : Boot → Boot) : (s.modBoot f).staged = s.staged := rfl
@[simp] theorem State.modBoot_access (f : Boot → Boot) : (s.modBoot f).access = s.access := rfl
@[simp] theorem State.modBoot_memErr (f : Boot → Boot) : (s.modBoot f).memErr = s.memErr := rfl
@[simp] theorem State.modBoot_itemMaps (f : Boot → Boot) : (s.modBoot f).itemMaps = s.itemMaps := rfl
@[simp] theorem State.modBoot_threads (f : Boot → Boot) : (s.modBoot f).threads = s.threads := rfl
@[simp] theorem State.modBoot_weights (f : Boot → Boot) : (s.modBoot f).weights = s.weights := rfl
@[simp] theorem State.modBoot_gathered (f : Boot → Boot) : (s.modBoot f).gathered = s.gathered := rfl
@[simp] theorem State.modBoot_fetched (f : Boot → Boot) : (s.modBoot f).fetched = s.fetched := rfl
@[simp] theorem State.modBoot_remotes (f : Boot → Boot) : (s.modBoot f).remotes = s.remotes := rfl
@[simp] theorem State.modBoot_nextTag (f : Boot → Boot) : (s.modBoot f).nextTag = s.nextTag := rfl
@[simp] theorem State.modBoot_lastData (f : Boot → Boot) : (s.modBoot f).lastData = s.lastData := rfl
@[simp] theorem State.modBoot_colls (f : Boot → Boot) : (s.modBoot f).colls = s.colls := rfl
@[simp] theorem State.modBoot_buckets (f : Boot → Boot) : (s.modBoot f).buckets = s.buckets := rfl
@[simp] theorem State.modBoot_rowan (f : Boot → Boot) : (s.modBoot f).rowan = s.rowan := rfl
@[simp] theorem State.modBoot_rowanEarly (f : Boot → Boot) : (s.modBoot f).rowanEarly = s.rowanEarly := rfl
@[simp] theorem State.modBoot_tagUses (f : Boot → Boot) : (s.modBoot f).tagUses = s.tagUses := rfl
@[simp] theorem State.modBoot_binds (f : Boot → Boot) : (s.modBoot f).binds = s.binds := rfl
@[simp] theorem State.modBoot_bindSent (f : Boot → Boot) : (s.modBoot f).bindSent = s.bindSent := rfl
@[simp] theorem State.modBoot_vcMarks (f : Boot → Boot) : (s.modBoot f).vcMarks = s.vcMarks := rfl
@[simp] theorem State.modBoot_ramps (f : Boot → Boot) : (s.modBoot f).ramps = s.ramps := rfl
@[simp] theorem State.modBoot_links (f : Boot → Boot) : (s.modBoot f).links = s.links := rfl
@[simp] theorem State.modBoot_ports (f : Boot → Boot) : (s.modBoot f).ports = s.ports := rfl
@[simp] theorem State.modBoot_fabric (f : Boot → Boot) : (s.modBoot f).fabric = s.fabric := rfl
@[simp] theorem State.modBoot_delivered (f : Boot → Boot) : (s.modBoot f).delivered = s.delivered := rfl
@[simp] theorem State.modBoot_rel (f : Boot → Boot) : (s.modBoot f).rel = s.rel := rfl
@[simp] theorem State.modBoot_power (f : Boot → Boot) : (s.modBoot f).power = s.power := rfl
@[simp] theorem State.modBoot_boot (f : Boot → Boot) : (s.modBoot f).boot = f s.boot := rfl
@[simp] theorem State.modBoot_sec (f : Boot → Boot) : (s.modBoot f).sec = s.sec := rfl
@[simp] theorem State.modBoot_cxl (f : Boot → Boot) : (s.modBoot f).cxl = s.cxl := rfl
@[simp] theorem State.modBoot_site (f : Boot → Boot) : (s.modBoot f).site = s.site := rfl

@[simp] theorem State.modSec_pending (f : Sec → Sec) : (s.modSec f).pending = s.pending := rfl
@[simp] theorem State.modSec_uptime (f : Sec → Sec) : (s.modSec f).uptime = s.uptime := rfl
@[simp] theorem State.modSec_ft (f : Sec → Sec) : (s.modSec f).ft = s.ft := rfl
@[simp] theorem State.modSec_windows (f : Sec → Sec) : (s.modSec f).windows = s.windows := rfl
@[simp] theorem State.modSec_works (f : Sec → Sec) : (s.modSec f).works = s.works := rfl
@[simp] theorem State.modSec_nextPid (f : Sec → Sec) : (s.modSec f).nextPid = s.nextPid := rfl
@[simp] theorem State.modSec_freeCount (f : Sec → Sec) : (s.modSec f).freeCount = s.freeCount := rfl
@[simp] theorem State.modSec_jobs (f : Sec → Sec) : (s.modSec f).jobs = s.jobs := rfl
@[simp] theorem State.modSec_tensors (f : Sec → Sec) : (s.modSec f).tensors = s.tensors := rfl
@[simp] theorem State.modSec_shards (f : Sec → Sec) : (s.modSec f).shards = s.shards := rfl
@[simp] theorem State.modSec_mem (f : Sec → Sec) : (s.modSec f).mem = s.mem := rfl
@[simp] theorem State.modSec_stores (f : Sec → Sec) : (s.modSec f).stores = s.stores := rfl
@[simp] theorem State.modSec_hostMem (f : Sec → Sec) : (s.modSec f).hostMem = s.hostMem := rfl
@[simp] theorem State.modSec_pageMap (f : Sec → Sec) : (s.modSec f).pageMap = s.pageMap := rfl
@[simp] theorem State.modSec_moves (f : Sec → Sec) : (s.modSec f).moves = s.moves := rfl
@[simp] theorem State.modSec_deferred (f : Sec → Sec) : (s.modSec f).deferred = s.deferred := rfl
@[simp] theorem State.modSec_staged (f : Sec → Sec) : (s.modSec f).staged = s.staged := rfl
@[simp] theorem State.modSec_access (f : Sec → Sec) : (s.modSec f).access = s.access := rfl
@[simp] theorem State.modSec_memErr (f : Sec → Sec) : (s.modSec f).memErr = s.memErr := rfl
@[simp] theorem State.modSec_itemMaps (f : Sec → Sec) : (s.modSec f).itemMaps = s.itemMaps := rfl
@[simp] theorem State.modSec_threads (f : Sec → Sec) : (s.modSec f).threads = s.threads := rfl
@[simp] theorem State.modSec_weights (f : Sec → Sec) : (s.modSec f).weights = s.weights := rfl
@[simp] theorem State.modSec_gathered (f : Sec → Sec) : (s.modSec f).gathered = s.gathered := rfl
@[simp] theorem State.modSec_fetched (f : Sec → Sec) : (s.modSec f).fetched = s.fetched := rfl
@[simp] theorem State.modSec_remotes (f : Sec → Sec) : (s.modSec f).remotes = s.remotes := rfl
@[simp] theorem State.modSec_nextTag (f : Sec → Sec) : (s.modSec f).nextTag = s.nextTag := rfl
@[simp] theorem State.modSec_lastData (f : Sec → Sec) : (s.modSec f).lastData = s.lastData := rfl
@[simp] theorem State.modSec_colls (f : Sec → Sec) : (s.modSec f).colls = s.colls := rfl
@[simp] theorem State.modSec_buckets (f : Sec → Sec) : (s.modSec f).buckets = s.buckets := rfl
@[simp] theorem State.modSec_rowan (f : Sec → Sec) : (s.modSec f).rowan = s.rowan := rfl
@[simp] theorem State.modSec_rowanEarly (f : Sec → Sec) : (s.modSec f).rowanEarly = s.rowanEarly := rfl
@[simp] theorem State.modSec_tagUses (f : Sec → Sec) : (s.modSec f).tagUses = s.tagUses := rfl
@[simp] theorem State.modSec_binds (f : Sec → Sec) : (s.modSec f).binds = s.binds := rfl
@[simp] theorem State.modSec_bindSent (f : Sec → Sec) : (s.modSec f).bindSent = s.bindSent := rfl
@[simp] theorem State.modSec_vcMarks (f : Sec → Sec) : (s.modSec f).vcMarks = s.vcMarks := rfl
@[simp] theorem State.modSec_ramps (f : Sec → Sec) : (s.modSec f).ramps = s.ramps := rfl
@[simp] theorem State.modSec_links (f : Sec → Sec) : (s.modSec f).links = s.links := rfl
@[simp] theorem State.modSec_ports (f : Sec → Sec) : (s.modSec f).ports = s.ports := rfl
@[simp] theorem State.modSec_fabric (f : Sec → Sec) : (s.modSec f).fabric = s.fabric := rfl
@[simp] theorem State.modSec_delivered (f : Sec → Sec) : (s.modSec f).delivered = s.delivered := rfl
@[simp] theorem State.modSec_rel (f : Sec → Sec) : (s.modSec f).rel = s.rel := rfl
@[simp] theorem State.modSec_power (f : Sec → Sec) : (s.modSec f).power = s.power := rfl
@[simp] theorem State.modSec_boot (f : Sec → Sec) : (s.modSec f).boot = s.boot := rfl
@[simp] theorem State.modSec_sec (f : Sec → Sec) : (s.modSec f).sec = f s.sec := rfl
@[simp] theorem State.modSec_cxl (f : Sec → Sec) : (s.modSec f).cxl = s.cxl := rfl
@[simp] theorem State.modSec_site (f : Sec → Sec) : (s.modSec f).site = s.site := rfl

@[simp] theorem State.modFt_pending (f : FtBlock → FtBlock) : (s.modFt f).pending = s.pending := rfl
@[simp] theorem State.modFt_uptime (f : FtBlock → FtBlock) : (s.modFt f).uptime = s.uptime := rfl
@[simp] theorem State.modFt_ft (f : FtBlock → FtBlock) : (s.modFt f).ft = f s.ft := rfl
@[simp] theorem State.modFt_windows (f : FtBlock → FtBlock) : (s.modFt f).windows = s.windows := rfl
@[simp] theorem State.modFt_works (f : FtBlock → FtBlock) : (s.modFt f).works = s.works := rfl
@[simp] theorem State.modFt_nextPid (f : FtBlock → FtBlock) : (s.modFt f).nextPid = s.nextPid := rfl
@[simp] theorem State.modFt_freeCount (f : FtBlock → FtBlock) : (s.modFt f).freeCount = s.freeCount := rfl
@[simp] theorem State.modFt_jobs (f : FtBlock → FtBlock) : (s.modFt f).jobs = s.jobs := rfl
@[simp] theorem State.modFt_tensors (f : FtBlock → FtBlock) : (s.modFt f).tensors = s.tensors := rfl
@[simp] theorem State.modFt_shards (f : FtBlock → FtBlock) : (s.modFt f).shards = s.shards := rfl
@[simp] theorem State.modFt_mem (f : FtBlock → FtBlock) : (s.modFt f).mem = s.mem := rfl
@[simp] theorem State.modFt_stores (f : FtBlock → FtBlock) : (s.modFt f).stores = s.stores := rfl
@[simp] theorem State.modFt_hostMem (f : FtBlock → FtBlock) : (s.modFt f).hostMem = s.hostMem := rfl
@[simp] theorem State.modFt_pageMap (f : FtBlock → FtBlock) : (s.modFt f).pageMap = s.pageMap := rfl
@[simp] theorem State.modFt_moves (f : FtBlock → FtBlock) : (s.modFt f).moves = s.moves := rfl
@[simp] theorem State.modFt_deferred (f : FtBlock → FtBlock) : (s.modFt f).deferred = s.deferred := rfl
@[simp] theorem State.modFt_staged (f : FtBlock → FtBlock) : (s.modFt f).staged = s.staged := rfl
@[simp] theorem State.modFt_access (f : FtBlock → FtBlock) : (s.modFt f).access = s.access := rfl
@[simp] theorem State.modFt_memErr (f : FtBlock → FtBlock) : (s.modFt f).memErr = s.memErr := rfl
@[simp] theorem State.modFt_itemMaps (f : FtBlock → FtBlock) : (s.modFt f).itemMaps = s.itemMaps := rfl
@[simp] theorem State.modFt_threads (f : FtBlock → FtBlock) : (s.modFt f).threads = s.threads := rfl
@[simp] theorem State.modFt_weights (f : FtBlock → FtBlock) : (s.modFt f).weights = s.weights := rfl
@[simp] theorem State.modFt_gathered (f : FtBlock → FtBlock) : (s.modFt f).gathered = s.gathered := rfl
@[simp] theorem State.modFt_fetched (f : FtBlock → FtBlock) : (s.modFt f).fetched = s.fetched := rfl
@[simp] theorem State.modFt_remotes (f : FtBlock → FtBlock) : (s.modFt f).remotes = s.remotes := rfl
@[simp] theorem State.modFt_nextTag (f : FtBlock → FtBlock) : (s.modFt f).nextTag = s.nextTag := rfl
@[simp] theorem State.modFt_lastData (f : FtBlock → FtBlock) : (s.modFt f).lastData = s.lastData := rfl
@[simp] theorem State.modFt_colls (f : FtBlock → FtBlock) : (s.modFt f).colls = s.colls := rfl
@[simp] theorem State.modFt_buckets (f : FtBlock → FtBlock) : (s.modFt f).buckets = s.buckets := rfl
@[simp] theorem State.modFt_rowan (f : FtBlock → FtBlock) : (s.modFt f).rowan = s.rowan := rfl
@[simp] theorem State.modFt_rowanEarly (f : FtBlock → FtBlock) : (s.modFt f).rowanEarly = s.rowanEarly := rfl
@[simp] theorem State.modFt_tagUses (f : FtBlock → FtBlock) : (s.modFt f).tagUses = s.tagUses := rfl
@[simp] theorem State.modFt_binds (f : FtBlock → FtBlock) : (s.modFt f).binds = s.binds := rfl
@[simp] theorem State.modFt_bindSent (f : FtBlock → FtBlock) : (s.modFt f).bindSent = s.bindSent := rfl
@[simp] theorem State.modFt_vcMarks (f : FtBlock → FtBlock) : (s.modFt f).vcMarks = s.vcMarks := rfl
@[simp] theorem State.modFt_ramps (f : FtBlock → FtBlock) : (s.modFt f).ramps = s.ramps := rfl
@[simp] theorem State.modFt_links (f : FtBlock → FtBlock) : (s.modFt f).links = s.links := rfl
@[simp] theorem State.modFt_ports (f : FtBlock → FtBlock) : (s.modFt f).ports = s.ports := rfl
@[simp] theorem State.modFt_fabric (f : FtBlock → FtBlock) : (s.modFt f).fabric = s.fabric := rfl
@[simp] theorem State.modFt_delivered (f : FtBlock → FtBlock) : (s.modFt f).delivered = s.delivered := rfl
@[simp] theorem State.modFt_rel (f : FtBlock → FtBlock) : (s.modFt f).rel = s.rel := rfl
@[simp] theorem State.modFt_power (f : FtBlock → FtBlock) : (s.modFt f).power = s.power := rfl
@[simp] theorem State.modFt_boot (f : FtBlock → FtBlock) : (s.modFt f).boot = s.boot := rfl
@[simp] theorem State.modFt_sec (f : FtBlock → FtBlock) : (s.modFt f).sec = s.sec := rfl
@[simp] theorem State.modFt_cxl (f : FtBlock → FtBlock) : (s.modFt f).cxl = s.cxl := rfl
@[simp] theorem State.modFt_site (f : FtBlock → FtBlock) : (s.modFt f).site = s.site := rfl

@[simp] theorem State.modColl_pending (pid : Nat) (f : Coll → Coll) : (s.modColl pid f).pending = s.pending := rfl
@[simp] theorem State.modColl_uptime (pid : Nat) (f : Coll → Coll) : (s.modColl pid f).uptime = s.uptime := rfl
@[simp] theorem State.modColl_ft (pid : Nat) (f : Coll → Coll) : (s.modColl pid f).ft = s.ft := rfl
@[simp] theorem State.modColl_windows (pid : Nat) (f : Coll → Coll) : (s.modColl pid f).windows = s.windows := rfl
@[simp] theorem State.modColl_works (pid : Nat) (f : Coll → Coll) : (s.modColl pid f).works = s.works := rfl
@[simp] theorem State.modColl_nextPid (pid : Nat) (f : Coll → Coll) : (s.modColl pid f).nextPid = s.nextPid := rfl
@[simp] theorem State.modColl_freeCount (pid : Nat) (f : Coll → Coll) : (s.modColl pid f).freeCount = s.freeCount := rfl
@[simp] theorem State.modColl_jobs (pid : Nat) (f : Coll → Coll) : (s.modColl pid f).jobs = s.jobs := rfl
@[simp] theorem State.modColl_tensors (pid : Nat) (f : Coll → Coll) : (s.modColl pid f).tensors = s.tensors := rfl
@[simp] theorem State.modColl_shards (pid : Nat) (f : Coll → Coll) : (s.modColl pid f).shards = s.shards := rfl
@[simp] theorem State.modColl_mem (pid : Nat) (f : Coll → Coll) : (s.modColl pid f).mem = s.mem := rfl
@[simp] theorem State.modColl_stores (pid : Nat) (f : Coll → Coll) : (s.modColl pid f).stores = s.stores := rfl
@[simp] theorem State.modColl_hostMem (pid : Nat) (f : Coll → Coll) : (s.modColl pid f).hostMem = s.hostMem := rfl
@[simp] theorem State.modColl_pageMap (pid : Nat) (f : Coll → Coll) : (s.modColl pid f).pageMap = s.pageMap := rfl
@[simp] theorem State.modColl_moves (pid : Nat) (f : Coll → Coll) : (s.modColl pid f).moves = s.moves := rfl
@[simp] theorem State.modColl_deferred (pid : Nat) (f : Coll → Coll) : (s.modColl pid f).deferred = s.deferred := rfl
@[simp] theorem State.modColl_staged (pid : Nat) (f : Coll → Coll) : (s.modColl pid f).staged = s.staged := rfl
@[simp] theorem State.modColl_access (pid : Nat) (f : Coll → Coll) : (s.modColl pid f).access = s.access := rfl
@[simp] theorem State.modColl_memErr (pid : Nat) (f : Coll → Coll) : (s.modColl pid f).memErr = s.memErr := rfl
@[simp] theorem State.modColl_itemMaps (pid : Nat) (f : Coll → Coll) : (s.modColl pid f).itemMaps = s.itemMaps := rfl
@[simp] theorem State.modColl_threads (pid : Nat) (f : Coll → Coll) : (s.modColl pid f).threads = s.threads := rfl
@[simp] theorem State.modColl_weights (pid : Nat) (f : Coll → Coll) : (s.modColl pid f).weights = s.weights := rfl
@[simp] theorem State.modColl_gathered (pid : Nat) (f : Coll → Coll) : (s.modColl pid f).gathered = s.gathered := rfl
@[simp] theorem State.modColl_fetched (pid : Nat) (f : Coll → Coll) : (s.modColl pid f).fetched = s.fetched := rfl
@[simp] theorem State.modColl_remotes (pid : Nat) (f : Coll → Coll) : (s.modColl pid f).remotes = s.remotes := rfl
@[simp] theorem State.modColl_nextTag (pid : Nat) (f : Coll → Coll) : (s.modColl pid f).nextTag = s.nextTag := rfl
@[simp] theorem State.modColl_lastData (pid : Nat) (f : Coll → Coll) : (s.modColl pid f).lastData = s.lastData := rfl
@[simp] theorem State.modColl_colls (pid : Nat) (f : Coll → Coll) : (s.modColl pid f).colls = updFirst (fun c => c.pid == pid) f s.colls := rfl
@[simp] theorem State.modColl_buckets (pid : Nat) (f : Coll → Coll) : (s.modColl pid f).buckets = s.buckets := rfl
@[simp] theorem State.modColl_rowan (pid : Nat) (f : Coll → Coll) : (s.modColl pid f).rowan = s.rowan := rfl
@[simp] theorem State.modColl_rowanEarly (pid : Nat) (f : Coll → Coll) : (s.modColl pid f).rowanEarly = s.rowanEarly := rfl
@[simp] theorem State.modColl_tagUses (pid : Nat) (f : Coll → Coll) : (s.modColl pid f).tagUses = s.tagUses := rfl
@[simp] theorem State.modColl_binds (pid : Nat) (f : Coll → Coll) : (s.modColl pid f).binds = s.binds := rfl
@[simp] theorem State.modColl_bindSent (pid : Nat) (f : Coll → Coll) : (s.modColl pid f).bindSent = s.bindSent := rfl
@[simp] theorem State.modColl_vcMarks (pid : Nat) (f : Coll → Coll) : (s.modColl pid f).vcMarks = s.vcMarks := rfl
@[simp] theorem State.modColl_ramps (pid : Nat) (f : Coll → Coll) : (s.modColl pid f).ramps = s.ramps := rfl
@[simp] theorem State.modColl_links (pid : Nat) (f : Coll → Coll) : (s.modColl pid f).links = s.links := rfl
@[simp] theorem State.modColl_ports (pid : Nat) (f : Coll → Coll) : (s.modColl pid f).ports = s.ports := rfl
@[simp] theorem State.modColl_fabric (pid : Nat) (f : Coll → Coll) : (s.modColl pid f).fabric = s.fabric := rfl
@[simp] theorem State.modColl_delivered (pid : Nat) (f : Coll → Coll) : (s.modColl pid f).delivered = s.delivered := rfl
@[simp] theorem State.modColl_rel (pid : Nat) (f : Coll → Coll) : (s.modColl pid f).rel = s.rel := rfl
@[simp] theorem State.modColl_power (pid : Nat) (f : Coll → Coll) : (s.modColl pid f).power = s.power := rfl
@[simp] theorem State.modColl_boot (pid : Nat) (f : Coll → Coll) : (s.modColl pid f).boot = s.boot := rfl
@[simp] theorem State.modColl_sec (pid : Nat) (f : Coll → Coll) : (s.modColl pid f).sec = s.sec := rfl
@[simp] theorem State.modColl_cxl (pid : Nat) (f : Coll → Coll) : (s.modColl pid f).cxl = s.cxl := rfl
@[simp] theorem State.modColl_site (pid : Nat) (f : Coll → Coll) : (s.modColl pid f).site = s.site := rfl

@[simp] theorem State.modBucket_pending (pid : Nat) (f : Bucket → Bucket) : (s.modBucket pid f).pending = s.pending := rfl
@[simp] theorem State.modBucket_uptime (pid : Nat) (f : Bucket → Bucket) : (s.modBucket pid f).uptime = s.uptime := rfl
@[simp] theorem State.modBucket_ft (pid : Nat) (f : Bucket → Bucket) : (s.modBucket pid f).ft = s.ft := rfl
@[simp] theorem State.modBucket_windows (pid : Nat) (f : Bucket → Bucket) : (s.modBucket pid f).windows = s.windows := rfl
@[simp] theorem State.modBucket_works (pid : Nat) (f : Bucket → Bucket) : (s.modBucket pid f).works = s.works := rfl
@[simp] theorem State.modBucket_nextPid (pid : Nat) (f : Bucket → Bucket) : (s.modBucket pid f).nextPid = s.nextPid := rfl
@[simp] theorem State.modBucket_freeCount (pid : Nat) (f : Bucket → Bucket) : (s.modBucket pid f).freeCount = s.freeCount := rfl
@[simp] theorem State.modBucket_jobs (pid : Nat) (f : Bucket → Bucket) : (s.modBucket pid f).jobs = s.jobs := rfl
@[simp] theorem State.modBucket_tensors (pid : Nat) (f : Bucket → Bucket) : (s.modBucket pid f).tensors = s.tensors := rfl
@[simp] theorem State.modBucket_shards (pid : Nat) (f : Bucket → Bucket) : (s.modBucket pid f).shards = s.shards := rfl
@[simp] theorem State.modBucket_mem (pid : Nat) (f : Bucket → Bucket) : (s.modBucket pid f).mem = s.mem := rfl
@[simp] theorem State.modBucket_stores (pid : Nat) (f : Bucket → Bucket) : (s.modBucket pid f).stores = s.stores := rfl
@[simp] theorem State.modBucket_hostMem (pid : Nat) (f : Bucket → Bucket) : (s.modBucket pid f).hostMem = s.hostMem := rfl
@[simp] theorem State.modBucket_pageMap (pid : Nat) (f : Bucket → Bucket) : (s.modBucket pid f).pageMap = s.pageMap := rfl
@[simp] theorem State.modBucket_moves (pid : Nat) (f : Bucket → Bucket) : (s.modBucket pid f).moves = s.moves := rfl
@[simp] theorem State.modBucket_deferred (pid : Nat) (f : Bucket → Bucket) : (s.modBucket pid f).deferred = s.deferred := rfl
@[simp] theorem State.modBucket_staged (pid : Nat) (f : Bucket → Bucket) : (s.modBucket pid f).staged = s.staged := rfl
@[simp] theorem State.modBucket_access (pid : Nat) (f : Bucket → Bucket) : (s.modBucket pid f).access = s.access := rfl
@[simp] theorem State.modBucket_memErr (pid : Nat) (f : Bucket → Bucket) : (s.modBucket pid f).memErr = s.memErr := rfl
@[simp] theorem State.modBucket_itemMaps (pid : Nat) (f : Bucket → Bucket) : (s.modBucket pid f).itemMaps = s.itemMaps := rfl
@[simp] theorem State.modBucket_threads (pid : Nat) (f : Bucket → Bucket) : (s.modBucket pid f).threads = s.threads := rfl
@[simp] theorem State.modBucket_weights (pid : Nat) (f : Bucket → Bucket) : (s.modBucket pid f).weights = s.weights := rfl
@[simp] theorem State.modBucket_gathered (pid : Nat) (f : Bucket → Bucket) : (s.modBucket pid f).gathered = s.gathered := rfl
@[simp] theorem State.modBucket_fetched (pid : Nat) (f : Bucket → Bucket) : (s.modBucket pid f).fetched = s.fetched := rfl
@[simp] theorem State.modBucket_remotes (pid : Nat) (f : Bucket → Bucket) : (s.modBucket pid f).remotes = s.remotes := rfl
@[simp] theorem State.modBucket_nextTag (pid : Nat) (f : Bucket → Bucket) : (s.modBucket pid f).nextTag = s.nextTag := rfl
@[simp] theorem State.modBucket_lastData (pid : Nat) (f : Bucket → Bucket) : (s.modBucket pid f).lastData = s.lastData := rfl
@[simp] theorem State.modBucket_colls (pid : Nat) (f : Bucket → Bucket) : (s.modBucket pid f).colls = s.colls := rfl
@[simp] theorem State.modBucket_buckets (pid : Nat) (f : Bucket → Bucket) : (s.modBucket pid f).buckets = updFirst (fun b => b.pid == pid) f s.buckets := rfl
@[simp] theorem State.modBucket_rowan (pid : Nat) (f : Bucket → Bucket) : (s.modBucket pid f).rowan = s.rowan := rfl
@[simp] theorem State.modBucket_rowanEarly (pid : Nat) (f : Bucket → Bucket) : (s.modBucket pid f).rowanEarly = s.rowanEarly := rfl
@[simp] theorem State.modBucket_tagUses (pid : Nat) (f : Bucket → Bucket) : (s.modBucket pid f).tagUses = s.tagUses := rfl
@[simp] theorem State.modBucket_binds (pid : Nat) (f : Bucket → Bucket) : (s.modBucket pid f).binds = s.binds := rfl
@[simp] theorem State.modBucket_bindSent (pid : Nat) (f : Bucket → Bucket) : (s.modBucket pid f).bindSent = s.bindSent := rfl
@[simp] theorem State.modBucket_vcMarks (pid : Nat) (f : Bucket → Bucket) : (s.modBucket pid f).vcMarks = s.vcMarks := rfl
@[simp] theorem State.modBucket_ramps (pid : Nat) (f : Bucket → Bucket) : (s.modBucket pid f).ramps = s.ramps := rfl
@[simp] theorem State.modBucket_links (pid : Nat) (f : Bucket → Bucket) : (s.modBucket pid f).links = s.links := rfl
@[simp] theorem State.modBucket_ports (pid : Nat) (f : Bucket → Bucket) : (s.modBucket pid f).ports = s.ports := rfl
@[simp] theorem State.modBucket_fabric (pid : Nat) (f : Bucket → Bucket) : (s.modBucket pid f).fabric = s.fabric := rfl
@[simp] theorem State.modBucket_delivered (pid : Nat) (f : Bucket → Bucket) : (s.modBucket pid f).delivered = s.delivered := rfl
@[simp] theorem State.modBucket_rel (pid : Nat) (f : Bucket → Bucket) : (s.modBucket pid f).rel = s.rel := rfl
@[simp] theorem State.modBucket_power (pid : Nat) (f : Bucket → Bucket) : (s.modBucket pid f).power = s.power := rfl
@[simp] theorem State.modBucket_boot (pid : Nat) (f : Bucket → Bucket) : (s.modBucket pid f).boot = s.boot := rfl
@[simp] theorem State.modBucket_sec (pid : Nat) (f : Bucket → Bucket) : (s.modBucket pid f).sec = s.sec := rfl
@[simp] theorem State.modBucket_cxl (pid : Nat) (f : Bucket → Bucket) : (s.modBucket pid f).cxl = s.cxl := rfl
@[simp] theorem State.modBucket_site (pid : Nat) (f : Bucket → Bucket) : (s.modBucket pid f).site = s.site := rfl

@[simp] theorem State.modGroup_pending (j g : Nat) (f : Group → Group) : (s.modGroup j g f).pending = s.pending := rfl
@[simp] theorem State.modGroup_uptime (j g : Nat) (f : Group → Group) : (s.modGroup j g f).uptime = s.uptime := rfl
@[simp] theorem State.modGroup_ft (j g : Nat) (f : Group → Group) : (s.modGroup j g f).ft = s.ft := rfl
@[simp] theorem State.modGroup_windows (j g : Nat) (f : Group → Group) : (s.modGroup j g f).windows = s.windows := rfl
@[simp] theorem State.modGroup_works (j g : Nat) (f : Group → Group) : (s.modGroup j g f).works = s.works := rfl
@[simp] theorem State.modGroup_nextPid (j g : Nat) (f : Group → Group) : (s.modGroup j g f).nextPid = s.nextPid := rfl
@[simp] theorem State.modGroup_freeCount (j g : Nat) (f : Group → Group) : (s.modGroup j g f).freeCount = s.freeCount := rfl
@[simp] theorem State.modGroup_tensors (j g : Nat) (f : Group → Group) : (s.modGroup j g f).tensors = s.tensors := rfl
@[simp] theorem State.modGroup_shards (j g : Nat) (f : Group → Group) : (s.modGroup j g f).shards = s.shards := rfl
@[simp] theorem State.modGroup_mem (j g : Nat) (f : Group → Group) : (s.modGroup j g f).mem = s.mem := rfl
@[simp] theorem State.modGroup_stores (j g : Nat) (f : Group → Group) : (s.modGroup j g f).stores = s.stores := rfl
@[simp] theorem State.modGroup_hostMem (j g : Nat) (f : Group → Group) : (s.modGroup j g f).hostMem = s.hostMem := rfl
@[simp] theorem State.modGroup_pageMap (j g : Nat) (f : Group → Group) : (s.modGroup j g f).pageMap = s.pageMap := rfl
@[simp] theorem State.modGroup_moves (j g : Nat) (f : Group → Group) : (s.modGroup j g f).moves = s.moves := rfl
@[simp] theorem State.modGroup_deferred (j g : Nat) (f : Group → Group) : (s.modGroup j g f).deferred = s.deferred := rfl
@[simp] theorem State.modGroup_staged (j g : Nat) (f : Group → Group) : (s.modGroup j g f).staged = s.staged := rfl
@[simp] theorem State.modGroup_access (j g : Nat) (f : Group → Group) : (s.modGroup j g f).access = s.access := rfl
@[simp] theorem State.modGroup_memErr (j g : Nat) (f : Group → Group) : (s.modGroup j g f).memErr = s.memErr := rfl
@[simp] theorem State.modGroup_itemMaps (j g : Nat) (f : Group → Group) : (s.modGroup j g f).itemMaps = s.itemMaps := rfl
@[simp] theorem State.modGroup_threads (j g : Nat) (f : Group → Group) : (s.modGroup j g f).threads = s.threads := rfl
@[simp] theorem State.modGroup_weights (j g : Nat) (f : Group → Group) : (s.modGroup j g f).weights = s.weights := rfl
@[simp] theorem State.modGroup_gathered (j g : Nat) (f : Group → Group) : (s.modGroup j g f).gathered = s.gathered := rfl
@[simp] theorem State.modGroup_fetched (j g : Nat) (f : Group → Group) : (s.modGroup j g f).fetched = s.fetched := rfl
@[simp] theorem State.modGroup_remotes (j g : Nat) (f : Group → Group) : (s.modGroup j g f).remotes = s.remotes := rfl
@[simp] theorem State.modGroup_nextTag (j g : Nat) (f : Group → Group) : (s.modGroup j g f).nextTag = s.nextTag := rfl
@[simp] theorem State.modGroup_lastData (j g : Nat) (f : Group → Group) : (s.modGroup j g f).lastData = s.lastData := rfl
@[simp] theorem State.modGroup_colls (j g : Nat) (f : Group → Group) : (s.modGroup j g f).colls = s.colls := rfl
@[simp] theorem State.modGroup_buckets (j g : Nat) (f : Group → Group) : (s.modGroup j g f).buckets = s.buckets := rfl
@[simp] theorem State.modGroup_rowan (j g : Nat) (f : Group → Group) : (s.modGroup j g f).rowan = s.rowan := rfl
@[simp] theorem State.modGroup_rowanEarly (j g : Nat) (f : Group → Group) : (s.modGroup j g f).rowanEarly = s.rowanEarly := rfl
@[simp] theorem State.modGroup_tagUses (j g : Nat) (f : Group → Group) : (s.modGroup j g f).tagUses = s.tagUses := rfl
@[simp] theorem State.modGroup_binds (j g : Nat) (f : Group → Group) : (s.modGroup j g f).binds = s.binds := rfl
@[simp] theorem State.modGroup_bindSent (j g : Nat) (f : Group → Group) : (s.modGroup j g f).bindSent = s.bindSent := rfl
@[simp] theorem State.modGroup_vcMarks (j g : Nat) (f : Group → Group) : (s.modGroup j g f).vcMarks = s.vcMarks := rfl
@[simp] theorem State.modGroup_ramps (j g : Nat) (f : Group → Group) : (s.modGroup j g f).ramps = s.ramps := rfl
@[simp] theorem State.modGroup_links (j g : Nat) (f : Group → Group) : (s.modGroup j g f).links = s.links := rfl
@[simp] theorem State.modGroup_ports (j g : Nat) (f : Group → Group) : (s.modGroup j g f).ports = s.ports := rfl
@[simp] theorem State.modGroup_fabric (j g : Nat) (f : Group → Group) : (s.modGroup j g f).fabric = s.fabric := rfl
@[simp] theorem State.modGroup_delivered (j g : Nat) (f : Group → Group) : (s.modGroup j g f).delivered = s.delivered := rfl
@[simp] theorem State.modGroup_rel (j g : Nat) (f : Group → Group) : (s.modGroup j g f).rel = s.rel := rfl
@[simp] theorem State.modGroup_power (j g : Nat) (f : Group → Group) : (s.modGroup j g f).power = s.power := rfl
@[simp] theorem State.modGroup_boot (j g : Nat) (f : Group → Group) : (s.modGroup j g f).boot = s.boot := rfl
@[simp] theorem State.modGroup_sec (j g : Nat) (f : Group → Group) : (s.modGroup j g f).sec = s.sec := rfl
@[simp] theorem State.modGroup_cxl (j g : Nat) (f : Group → Group) : (s.modGroup j g f).cxl = s.cxl := rfl
@[simp] theorem State.modGroup_site (j g : Nat) (f : Group → Group) : (s.modGroup j g f).site = s.site := rfl

@[simp] theorem State.modSample_pending (i : Nat) (f : Sample → Sample) : (s.modSample i f).pending = s.pending := rfl
@[simp] theorem State.modSample_uptime (i : Nat) (f : Sample → Sample) : (s.modSample i f).uptime = s.uptime := rfl
@[simp] theorem State.modSample_ft (i : Nat) (f : Sample → Sample) : (s.modSample i f).ft = s.ft := rfl
@[simp] theorem State.modSample_windows (i : Nat) (f : Sample → Sample) : (s.modSample i f).windows = s.windows := rfl
@[simp] theorem State.modSample_works (i : Nat) (f : Sample → Sample) : (s.modSample i f).works = s.works := rfl
@[simp] theorem State.modSample_nextPid (i : Nat) (f : Sample → Sample) : (s.modSample i f).nextPid = s.nextPid := rfl
@[simp] theorem State.modSample_freeCount (i : Nat) (f : Sample → Sample) : (s.modSample i f).freeCount = s.freeCount := rfl
@[simp] theorem State.modSample_jobs (i : Nat) (f : Sample → Sample) : (s.modSample i f).jobs = s.jobs := rfl
@[simp] theorem State.modSample_tensors (i : Nat) (f : Sample → Sample) : (s.modSample i f).tensors = s.tensors := rfl
@[simp] theorem State.modSample_shards (i : Nat) (f : Sample → Sample) : (s.modSample i f).shards = s.shards := rfl
@[simp] theorem State.modSample_mem (i : Nat) (f : Sample → Sample) : (s.modSample i f).mem = s.mem := rfl
@[simp] theorem State.modSample_stores (i : Nat) (f : Sample → Sample) : (s.modSample i f).stores = s.stores := rfl
@[simp] theorem State.modSample_hostMem (i : Nat) (f : Sample → Sample) : (s.modSample i f).hostMem = s.hostMem := rfl
@[simp] theorem State.modSample_pageMap (i : Nat) (f : Sample → Sample) : (s.modSample i f).pageMap = s.pageMap := rfl
@[simp] theorem State.modSample_moves (i : Nat) (f : Sample → Sample) : (s.modSample i f).moves = s.moves := rfl
@[simp] theorem State.modSample_deferred (i : Nat) (f : Sample → Sample) : (s.modSample i f).deferred = s.deferred := rfl
@[simp] theorem State.modSample_staged (i : Nat) (f : Sample → Sample) : (s.modSample i f).staged = s.staged := rfl
@[simp] theorem State.modSample_access (i : Nat) (f : Sample → Sample) : (s.modSample i f).access = s.access := rfl
@[simp] theorem State.modSample_memErr (i : Nat) (f : Sample → Sample) : (s.modSample i f).memErr = s.memErr := rfl
@[simp] theorem State.modSample_itemMaps (i : Nat) (f : Sample → Sample) : (s.modSample i f).itemMaps = s.itemMaps := rfl
@[simp] theorem State.modSample_threads (i : Nat) (f : Sample → Sample) : (s.modSample i f).threads = s.threads := rfl
@[simp] theorem State.modSample_weights (i : Nat) (f : Sample → Sample) : (s.modSample i f).weights = s.weights := rfl
@[simp] theorem State.modSample_gathered (i : Nat) (f : Sample → Sample) : (s.modSample i f).gathered = s.gathered := rfl
@[simp] theorem State.modSample_fetched (i : Nat) (f : Sample → Sample) : (s.modSample i f).fetched = s.fetched := rfl
@[simp] theorem State.modSample_remotes (i : Nat) (f : Sample → Sample) : (s.modSample i f).remotes = s.remotes := rfl
@[simp] theorem State.modSample_nextTag (i : Nat) (f : Sample → Sample) : (s.modSample i f).nextTag = s.nextTag := rfl
@[simp] theorem State.modSample_lastData (i : Nat) (f : Sample → Sample) : (s.modSample i f).lastData = s.lastData := rfl
@[simp] theorem State.modSample_colls (i : Nat) (f : Sample → Sample) : (s.modSample i f).colls = s.colls := rfl
@[simp] theorem State.modSample_buckets (i : Nat) (f : Sample → Sample) : (s.modSample i f).buckets = s.buckets := rfl
@[simp] theorem State.modSample_rowan (i : Nat) (f : Sample → Sample) : (s.modSample i f).rowan = s.rowan := rfl
@[simp] theorem State.modSample_rowanEarly (i : Nat) (f : Sample → Sample) : (s.modSample i f).rowanEarly = s.rowanEarly := rfl
@[simp] theorem State.modSample_tagUses (i : Nat) (f : Sample → Sample) : (s.modSample i f).tagUses = s.tagUses := rfl
@[simp] theorem State.modSample_binds (i : Nat) (f : Sample → Sample) : (s.modSample i f).binds = s.binds := rfl
@[simp] theorem State.modSample_bindSent (i : Nat) (f : Sample → Sample) : (s.modSample i f).bindSent = s.bindSent := rfl
@[simp] theorem State.modSample_vcMarks (i : Nat) (f : Sample → Sample) : (s.modSample i f).vcMarks = s.vcMarks := rfl
@[simp] theorem State.modSample_ramps (i : Nat) (f : Sample → Sample) : (s.modSample i f).ramps = s.ramps := rfl
@[simp] theorem State.modSample_links (i : Nat) (f : Sample → Sample) : (s.modSample i f).links = s.links := rfl
@[simp] theorem State.modSample_ports (i : Nat) (f : Sample → Sample) : (s.modSample i f).ports = s.ports := rfl
@[simp] theorem State.modSample_fabric (i : Nat) (f : Sample → Sample) : (s.modSample i f).fabric = s.fabric := rfl
@[simp] theorem State.modSample_delivered (i : Nat) (f : Sample → Sample) : (s.modSample i f).delivered = s.delivered := rfl
@[simp] theorem State.modSample_power (i : Nat) (f : Sample → Sample) : (s.modSample i f).power = s.power := rfl
@[simp] theorem State.modSample_boot (i : Nat) (f : Sample → Sample) : (s.modSample i f).boot = s.boot := rfl
@[simp] theorem State.modSample_sec (i : Nat) (f : Sample → Sample) : (s.modSample i f).sec = s.sec := rfl
@[simp] theorem State.modSample_cxl (i : Nat) (f : Sample → Sample) : (s.modSample i f).cxl = s.cxl := rfl
@[simp] theorem State.modSample_site (i : Nat) (f : Sample → Sample) : (s.modSample i f).site = s.site := rfl

@[simp] theorem State.writeCw_pending (k : Nat) (c : Codeword) : (s.writeCw k c).pending = s.pending := rfl
@[simp] theorem State.writeCw_uptime (k : Nat) (c : Codeword) : (s.writeCw k c).uptime = s.uptime := rfl
@[simp] theorem State.writeCw_ft (k : Nat) (c : Codeword) : (s.writeCw k c).ft = s.ft := rfl
@[simp] theorem State.writeCw_windows (k : Nat) (c : Codeword) : (s.writeCw k c).windows = s.windows := rfl
@[simp] theorem State.writeCw_works (k : Nat) (c : Codeword) : (s.writeCw k c).works = s.works := rfl
@[simp] theorem State.writeCw_nextPid (k : Nat) (c : Codeword) : (s.writeCw k c).nextPid = s.nextPid := rfl
@[simp] theorem State.writeCw_freeCount (k : Nat) (c : Codeword) : (s.writeCw k c).freeCount = s.freeCount := rfl
@[simp] theorem State.writeCw_jobs (k : Nat) (c : Codeword) : (s.writeCw k c).jobs = s.jobs := rfl
@[simp] theorem State.writeCw_tensors (k : Nat) (c : Codeword) : (s.writeCw k c).tensors = s.tensors := rfl
@[simp] theorem State.writeCw_shards (k : Nat) (c : Codeword) : (s.writeCw k c).shards = s.shards := rfl
@[simp] theorem State.writeCw_mem (k : Nat) (c : Codeword) : (s.writeCw k c).mem = s.mem := rfl
@[simp] theorem State.writeCw_stores (k : Nat) (c : Codeword) : (s.writeCw k c).stores = .word k c :: s.stores := rfl
@[simp] theorem State.writeCw_hostMem (k : Nat) (c : Codeword) : (s.writeCw k c).hostMem = s.hostMem := rfl
@[simp] theorem State.writeCw_pageMap (k : Nat) (c : Codeword) : (s.writeCw k c).pageMap = s.pageMap := rfl
@[simp] theorem State.writeCw_moves (k : Nat) (c : Codeword) : (s.writeCw k c).moves = s.moves := rfl
@[simp] theorem State.writeCw_deferred (k : Nat) (c : Codeword) : (s.writeCw k c).deferred = s.deferred := rfl
@[simp] theorem State.writeCw_staged (k : Nat) (c : Codeword) : (s.writeCw k c).staged = s.staged := rfl
@[simp] theorem State.writeCw_access (k : Nat) (c : Codeword) : (s.writeCw k c).access = s.access := rfl
@[simp] theorem State.writeCw_memErr (k : Nat) (c : Codeword) : (s.writeCw k c).memErr = s.memErr := rfl
@[simp] theorem State.writeCw_itemMaps (k : Nat) (c : Codeword) : (s.writeCw k c).itemMaps = s.itemMaps := rfl
@[simp] theorem State.writeCw_threads (k : Nat) (c : Codeword) : (s.writeCw k c).threads = s.threads := rfl
@[simp] theorem State.writeCw_weights (k : Nat) (c : Codeword) : (s.writeCw k c).weights = s.weights := rfl
@[simp] theorem State.writeCw_gathered (k : Nat) (c : Codeword) : (s.writeCw k c).gathered = s.gathered := rfl
@[simp] theorem State.writeCw_fetched (k : Nat) (c : Codeword) : (s.writeCw k c).fetched = s.fetched := rfl
@[simp] theorem State.writeCw_remotes (k : Nat) (c : Codeword) : (s.writeCw k c).remotes = s.remotes := rfl
@[simp] theorem State.writeCw_nextTag (k : Nat) (c : Codeword) : (s.writeCw k c).nextTag = s.nextTag := rfl
@[simp] theorem State.writeCw_lastData (k : Nat) (c : Codeword) : (s.writeCw k c).lastData = s.lastData := rfl
@[simp] theorem State.writeCw_colls (k : Nat) (c : Codeword) : (s.writeCw k c).colls = s.colls := rfl
@[simp] theorem State.writeCw_buckets (k : Nat) (c : Codeword) : (s.writeCw k c).buckets = s.buckets := rfl
@[simp] theorem State.writeCw_rowan (k : Nat) (c : Codeword) : (s.writeCw k c).rowan = s.rowan := rfl
@[simp] theorem State.writeCw_rowanEarly (k : Nat) (c : Codeword) : (s.writeCw k c).rowanEarly = s.rowanEarly := rfl
@[simp] theorem State.writeCw_tagUses (k : Nat) (c : Codeword) : (s.writeCw k c).tagUses = s.tagUses := rfl
@[simp] theorem State.writeCw_binds (k : Nat) (c : Codeword) : (s.writeCw k c).binds = s.binds := rfl
@[simp] theorem State.writeCw_bindSent (k : Nat) (c : Codeword) : (s.writeCw k c).bindSent = s.bindSent := rfl
@[simp] theorem State.writeCw_vcMarks (k : Nat) (c : Codeword) : (s.writeCw k c).vcMarks = s.vcMarks := rfl
@[simp] theorem State.writeCw_ramps (k : Nat) (c : Codeword) : (s.writeCw k c).ramps = s.ramps := rfl
@[simp] theorem State.writeCw_links (k : Nat) (c : Codeword) : (s.writeCw k c).links = s.links := rfl
@[simp] theorem State.writeCw_ports (k : Nat) (c : Codeword) : (s.writeCw k c).ports = s.ports := rfl
@[simp] theorem State.writeCw_fabric (k : Nat) (c : Codeword) : (s.writeCw k c).fabric = s.fabric := rfl
@[simp] theorem State.writeCw_delivered (k : Nat) (c : Codeword) : (s.writeCw k c).delivered = s.delivered := rfl
@[simp] theorem State.writeCw_rel (k : Nat) (c : Codeword) : (s.writeCw k c).rel = s.rel := rfl
@[simp] theorem State.writeCw_power (k : Nat) (c : Codeword) : (s.writeCw k c).power = s.power := rfl
@[simp] theorem State.writeCw_boot (k : Nat) (c : Codeword) : (s.writeCw k c).boot = s.boot := rfl
@[simp] theorem State.writeCw_sec (k : Nat) (c : Codeword) : (s.writeCw k c).sec = s.sec := rfl
@[simp] theorem State.writeCw_cxl (k : Nat) (c : Codeword) : (s.writeCw k c).cxl = s.cxl := rfl
@[simp] theorem State.writeCw_site (k : Nat) (c : Codeword) : (s.writeCw k c).site = s.site := rfl

@[simp] theorem State.eraseKeys_pending (lo hi : Nat) : (s.eraseKeys lo hi).pending = s.pending := rfl
@[simp] theorem State.eraseKeys_uptime (lo hi : Nat) : (s.eraseKeys lo hi).uptime = s.uptime := rfl
@[simp] theorem State.eraseKeys_ft (lo hi : Nat) : (s.eraseKeys lo hi).ft = s.ft := rfl
@[simp] theorem State.eraseKeys_windows (lo hi : Nat) : (s.eraseKeys lo hi).windows = s.windows := rfl
@[simp] theorem State.eraseKeys_works (lo hi : Nat) : (s.eraseKeys lo hi).works = s.works := rfl
@[simp] theorem State.eraseKeys_nextPid (lo hi : Nat) : (s.eraseKeys lo hi).nextPid = s.nextPid := rfl
@[simp] theorem State.eraseKeys_freeCount (lo hi : Nat) : (s.eraseKeys lo hi).freeCount = s.freeCount := rfl
@[simp] theorem State.eraseKeys_jobs (lo hi : Nat) : (s.eraseKeys lo hi).jobs = s.jobs := rfl
@[simp] theorem State.eraseKeys_tensors (lo hi : Nat) : (s.eraseKeys lo hi).tensors = s.tensors := rfl
@[simp] theorem State.eraseKeys_shards (lo hi : Nat) : (s.eraseKeys lo hi).shards = s.shards := rfl
@[simp] theorem State.eraseKeys_mem (lo hi : Nat) : (s.eraseKeys lo hi).mem = s.mem := rfl
@[simp] theorem State.eraseKeys_stores (lo hi : Nat) : (s.eraseKeys lo hi).stores = .erase lo hi :: s.stores := rfl
@[simp] theorem State.eraseKeys_hostMem (lo hi : Nat) : (s.eraseKeys lo hi).hostMem = s.hostMem := rfl
@[simp] theorem State.eraseKeys_pageMap (lo hi : Nat) : (s.eraseKeys lo hi).pageMap = s.pageMap := rfl
@[simp] theorem State.eraseKeys_moves (lo hi : Nat) : (s.eraseKeys lo hi).moves = s.moves := rfl
@[simp] theorem State.eraseKeys_deferred (lo hi : Nat) : (s.eraseKeys lo hi).deferred = s.deferred := rfl
@[simp] theorem State.eraseKeys_staged (lo hi : Nat) : (s.eraseKeys lo hi).staged = s.staged := rfl
@[simp] theorem State.eraseKeys_access (lo hi : Nat) : (s.eraseKeys lo hi).access = s.access := rfl
@[simp] theorem State.eraseKeys_memErr (lo hi : Nat) : (s.eraseKeys lo hi).memErr = s.memErr := rfl
@[simp] theorem State.eraseKeys_itemMaps (lo hi : Nat) : (s.eraseKeys lo hi).itemMaps = s.itemMaps := rfl
@[simp] theorem State.eraseKeys_threads (lo hi : Nat) : (s.eraseKeys lo hi).threads = s.threads := rfl
@[simp] theorem State.eraseKeys_weights (lo hi : Nat) : (s.eraseKeys lo hi).weights = s.weights := rfl
@[simp] theorem State.eraseKeys_gathered (lo hi : Nat) : (s.eraseKeys lo hi).gathered = s.gathered := rfl
@[simp] theorem State.eraseKeys_fetched (lo hi : Nat) : (s.eraseKeys lo hi).fetched = s.fetched := rfl
@[simp] theorem State.eraseKeys_remotes (lo hi : Nat) : (s.eraseKeys lo hi).remotes = s.remotes := rfl
@[simp] theorem State.eraseKeys_nextTag (lo hi : Nat) : (s.eraseKeys lo hi).nextTag = s.nextTag := rfl
@[simp] theorem State.eraseKeys_lastData (lo hi : Nat) : (s.eraseKeys lo hi).lastData = s.lastData := rfl
@[simp] theorem State.eraseKeys_colls (lo hi : Nat) : (s.eraseKeys lo hi).colls = s.colls := rfl
@[simp] theorem State.eraseKeys_buckets (lo hi : Nat) : (s.eraseKeys lo hi).buckets = s.buckets := rfl
@[simp] theorem State.eraseKeys_rowan (lo hi : Nat) : (s.eraseKeys lo hi).rowan = s.rowan := rfl
@[simp] theorem State.eraseKeys_rowanEarly (lo hi : Nat) : (s.eraseKeys lo hi).rowanEarly = s.rowanEarly := rfl
@[simp] theorem State.eraseKeys_tagUses (lo hi : Nat) : (s.eraseKeys lo hi).tagUses = s.tagUses := rfl
@[simp] theorem State.eraseKeys_binds (lo hi : Nat) : (s.eraseKeys lo hi).binds = s.binds := rfl
@[simp] theorem State.eraseKeys_bindSent (lo hi : Nat) : (s.eraseKeys lo hi).bindSent = s.bindSent := rfl
@[simp] theorem State.eraseKeys_vcMarks (lo hi : Nat) : (s.eraseKeys lo hi).vcMarks = s.vcMarks := rfl
@[simp] theorem State.eraseKeys_ramps (lo hi : Nat) : (s.eraseKeys lo hi).ramps = s.ramps := rfl
@[simp] theorem State.eraseKeys_links (lo hi : Nat) : (s.eraseKeys lo hi).links = s.links := rfl
@[simp] theorem State.eraseKeys_ports (lo hi : Nat) : (s.eraseKeys lo hi).ports = s.ports := rfl
@[simp] theorem State.eraseKeys_fabric (lo hi : Nat) : (s.eraseKeys lo hi).fabric = s.fabric := rfl
@[simp] theorem State.eraseKeys_delivered (lo hi : Nat) : (s.eraseKeys lo hi).delivered = s.delivered := rfl
@[simp] theorem State.eraseKeys_rel (lo hi : Nat) : (s.eraseKeys lo hi).rel = s.rel := rfl
@[simp] theorem State.eraseKeys_power (lo hi : Nat) : (s.eraseKeys lo hi).power = s.power := rfl
@[simp] theorem State.eraseKeys_boot (lo hi : Nat) : (s.eraseKeys lo hi).boot = s.boot := rfl
@[simp] theorem State.eraseKeys_sec (lo hi : Nat) : (s.eraseKeys lo hi).sec = s.sec := rfl
@[simp] theorem State.eraseKeys_cxl (lo hi : Nat) : (s.eraseKeys lo hi).cxl = s.cxl := rfl
@[simp] theorem State.eraseKeys_site (lo hi : Nat) : (s.eraseKeys lo hi).site = s.site := rfl

@[simp] theorem State.log_pending (r : LogRec) : (s.log r).pending = s.pending := rfl
@[simp] theorem State.log_uptime (r : LogRec) : (s.log r).uptime = s.uptime := rfl
@[simp] theorem State.log_ft (r : LogRec) : (s.log r).ft = s.ft := rfl
@[simp] theorem State.log_windows (r : LogRec) : (s.log r).windows = s.windows := rfl
@[simp] theorem State.log_works (r : LogRec) : (s.log r).works = s.works := rfl
@[simp] theorem State.log_nextPid (r : LogRec) : (s.log r).nextPid = s.nextPid := rfl
@[simp] theorem State.log_freeCount (r : LogRec) : (s.log r).freeCount = s.freeCount := rfl
@[simp] theorem State.log_jobs (r : LogRec) : (s.log r).jobs = s.jobs := rfl
@[simp] theorem State.log_tensors (r : LogRec) : (s.log r).tensors = s.tensors := rfl
@[simp] theorem State.log_shards (r : LogRec) : (s.log r).shards = s.shards := rfl
@[simp] theorem State.log_mem (r : LogRec) : (s.log r).mem = s.mem := rfl
@[simp] theorem State.log_stores (r : LogRec) : (s.log r).stores = s.stores := rfl
@[simp] theorem State.log_hostMem (r : LogRec) : (s.log r).hostMem = s.hostMem := rfl
@[simp] theorem State.log_pageMap (r : LogRec) : (s.log r).pageMap = s.pageMap := rfl
@[simp] theorem State.log_moves (r : LogRec) : (s.log r).moves = s.moves := rfl
@[simp] theorem State.log_deferred (r : LogRec) : (s.log r).deferred = s.deferred := rfl
@[simp] theorem State.log_staged (r : LogRec) : (s.log r).staged = s.staged := rfl
@[simp] theorem State.log_access (r : LogRec) : (s.log r).access = s.access := rfl
@[simp] theorem State.log_memErr (r : LogRec) : (s.log r).memErr = s.memErr.push { r with ft := s.ftNow } := rfl
@[simp] theorem State.log_itemMaps (r : LogRec) : (s.log r).itemMaps = s.itemMaps := rfl
@[simp] theorem State.log_threads (r : LogRec) : (s.log r).threads = s.threads := rfl
@[simp] theorem State.log_weights (r : LogRec) : (s.log r).weights = s.weights := rfl
@[simp] theorem State.log_gathered (r : LogRec) : (s.log r).gathered = s.gathered := rfl
@[simp] theorem State.log_fetched (r : LogRec) : (s.log r).fetched = s.fetched := rfl
@[simp] theorem State.log_remotes (r : LogRec) : (s.log r).remotes = s.remotes := rfl
@[simp] theorem State.log_nextTag (r : LogRec) : (s.log r).nextTag = s.nextTag := rfl
@[simp] theorem State.log_lastData (r : LogRec) : (s.log r).lastData = s.lastData := rfl
@[simp] theorem State.log_colls (r : LogRec) : (s.log r).colls = s.colls := rfl
@[simp] theorem State.log_buckets (r : LogRec) : (s.log r).buckets = s.buckets := rfl
@[simp] theorem State.log_rowan (r : LogRec) : (s.log r).rowan = s.rowan := rfl
@[simp] theorem State.log_rowanEarly (r : LogRec) : (s.log r).rowanEarly = s.rowanEarly := rfl
@[simp] theorem State.log_tagUses (r : LogRec) : (s.log r).tagUses = s.tagUses := rfl
@[simp] theorem State.log_binds (r : LogRec) : (s.log r).binds = s.binds := rfl
@[simp] theorem State.log_bindSent (r : LogRec) : (s.log r).bindSent = s.bindSent := rfl
@[simp] theorem State.log_vcMarks (r : LogRec) : (s.log r).vcMarks = s.vcMarks := rfl
@[simp] theorem State.log_ramps (r : LogRec) : (s.log r).ramps = s.ramps := rfl
@[simp] theorem State.log_links (r : LogRec) : (s.log r).links = s.links := rfl
@[simp] theorem State.log_ports (r : LogRec) : (s.log r).ports = s.ports := rfl
@[simp] theorem State.log_fabric (r : LogRec) : (s.log r).fabric = s.fabric := rfl
@[simp] theorem State.log_delivered (r : LogRec) : (s.log r).delivered = s.delivered := rfl
@[simp] theorem State.log_rel (r : LogRec) : (s.log r).rel = s.rel := rfl
@[simp] theorem State.log_power (r : LogRec) : (s.log r).power = s.power := rfl
@[simp] theorem State.log_boot (r : LogRec) : (s.log r).boot = s.boot := rfl
@[simp] theorem State.log_sec (r : LogRec) : (s.log r).sec = s.sec := rfl
@[simp] theorem State.log_cxl (r : LogRec) : (s.log r).cxl = s.cxl := rfl
@[simp] theorem State.log_site (r : LogRec) : (s.log r).site = s.site := rfl

@[simp] theorem State.modThread_pending (core num : Nat) (f : HwThread → HwThread) : (s.modThread core num f).pending = s.pending := rfl
@[simp] theorem State.modThread_uptime (core num : Nat) (f : HwThread → HwThread) : (s.modThread core num f).uptime = s.uptime := rfl
@[simp] theorem State.modThread_ft (core num : Nat) (f : HwThread → HwThread) : (s.modThread core num f).ft = s.ft := rfl
@[simp] theorem State.modThread_windows (core num : Nat) (f : HwThread → HwThread) : (s.modThread core num f).windows = s.windows := rfl
@[simp] theorem State.modThread_works (core num : Nat) (f : HwThread → HwThread) : (s.modThread core num f).works = s.works := rfl
@[simp] theorem State.modThread_nextPid (core num : Nat) (f : HwThread → HwThread) : (s.modThread core num f).nextPid = s.nextPid := rfl
@[simp] theorem State.modThread_freeCount (core num : Nat) (f : HwThread → HwThread) : (s.modThread core num f).freeCount = s.freeCount := rfl
@[simp] theorem State.modThread_jobs (core num : Nat) (f : HwThread → HwThread) : (s.modThread core num f).jobs = s.jobs := rfl
@[simp] theorem State.modThread_tensors (core num : Nat) (f : HwThread → HwThread) : (s.modThread core num f).tensors = s.tensors := rfl
@[simp] theorem State.modThread_shards (core num : Nat) (f : HwThread → HwThread) : (s.modThread core num f).shards = s.shards := rfl
@[simp] theorem State.modThread_mem (core num : Nat) (f : HwThread → HwThread) : (s.modThread core num f).mem = s.mem := rfl
@[simp] theorem State.modThread_stores (core num : Nat) (f : HwThread → HwThread) : (s.modThread core num f).stores = s.stores := rfl
@[simp] theorem State.modThread_hostMem (core num : Nat) (f : HwThread → HwThread) : (s.modThread core num f).hostMem = s.hostMem := rfl
@[simp] theorem State.modThread_pageMap (core num : Nat) (f : HwThread → HwThread) : (s.modThread core num f).pageMap = s.pageMap := rfl
@[simp] theorem State.modThread_moves (core num : Nat) (f : HwThread → HwThread) : (s.modThread core num f).moves = s.moves := rfl
@[simp] theorem State.modThread_deferred (core num : Nat) (f : HwThread → HwThread) : (s.modThread core num f).deferred = s.deferred := rfl
@[simp] theorem State.modThread_staged (core num : Nat) (f : HwThread → HwThread) : (s.modThread core num f).staged = s.staged := rfl
@[simp] theorem State.modThread_access (core num : Nat) (f : HwThread → HwThread) : (s.modThread core num f).access = s.access := rfl
@[simp] theorem State.modThread_memErr (core num : Nat) (f : HwThread → HwThread) : (s.modThread core num f).memErr = s.memErr := rfl
@[simp] theorem State.modThread_itemMaps (core num : Nat) (f : HwThread → HwThread) : (s.modThread core num f).itemMaps = s.itemMaps := rfl
@[simp] theorem State.modThread_threads (core num : Nat) (f : HwThread → HwThread) :
    (s.modThread core num f).threads = s.threads.filter (fun h => !(h.core == core && h.num == num)) ++ [f (s.thread core num)] := rfl
@[simp] theorem State.modThread_weights (core num : Nat) (f : HwThread → HwThread) : (s.modThread core num f).weights = s.weights := rfl
@[simp] theorem State.modThread_gathered (core num : Nat) (f : HwThread → HwThread) : (s.modThread core num f).gathered = s.gathered := rfl
@[simp] theorem State.modThread_fetched (core num : Nat) (f : HwThread → HwThread) : (s.modThread core num f).fetched = s.fetched := rfl
@[simp] theorem State.modThread_remotes (core num : Nat) (f : HwThread → HwThread) : (s.modThread core num f).remotes = s.remotes := rfl
@[simp] theorem State.modThread_nextTag (core num : Nat) (f : HwThread → HwThread) : (s.modThread core num f).nextTag = s.nextTag := rfl
@[simp] theorem State.modThread_lastData (core num : Nat) (f : HwThread → HwThread) : (s.modThread core num f).lastData = s.lastData := rfl
@[simp] theorem State.modThread_colls (core num : Nat) (f : HwThread → HwThread) : (s.modThread core num f).colls = s.colls := rfl
@[simp] theorem State.modThread_buckets (core num : Nat) (f : HwThread → HwThread) : (s.modThread core num f).buckets = s.buckets := rfl
@[simp] theorem State.modThread_rowan (core num : Nat) (f : HwThread → HwThread) : (s.modThread core num f).rowan = s.rowan := rfl
@[simp] theorem State.modThread_rowanEarly (core num : Nat) (f : HwThread → HwThread) : (s.modThread core num f).rowanEarly = s.rowanEarly := rfl
@[simp] theorem State.modThread_tagUses (core num : Nat) (f : HwThread → HwThread) : (s.modThread core num f).tagUses = s.tagUses := rfl
@[simp] theorem State.modThread_binds (core num : Nat) (f : HwThread → HwThread) : (s.modThread core num f).binds = s.binds := rfl
@[simp] theorem State.modThread_bindSent (core num : Nat) (f : HwThread → HwThread) : (s.modThread core num f).bindSent = s.bindSent := rfl
@[simp] theorem State.modThread_vcMarks (core num : Nat) (f : HwThread → HwThread) : (s.modThread core num f).vcMarks = s.vcMarks := rfl
@[simp] theorem State.modThread_ramps (core num : Nat) (f : HwThread → HwThread) : (s.modThread core num f).ramps = s.ramps := rfl
@[simp] theorem State.modThread_links (core num : Nat) (f : HwThread → HwThread) : (s.modThread core num f).links = s.links := rfl
@[simp] theorem State.modThread_ports (core num : Nat) (f : HwThread → HwThread) : (s.modThread core num f).ports = s.ports := rfl
@[simp] theorem State.modThread_fabric (core num : Nat) (f : HwThread → HwThread) : (s.modThread core num f).fabric = s.fabric := rfl
@[simp] theorem State.modThread_delivered (core num : Nat) (f : HwThread → HwThread) : (s.modThread core num f).delivered = s.delivered := rfl
@[simp] theorem State.modThread_rel (core num : Nat) (f : HwThread → HwThread) : (s.modThread core num f).rel = s.rel := rfl
@[simp] theorem State.modThread_power (core num : Nat) (f : HwThread → HwThread) : (s.modThread core num f).power = s.power := rfl
@[simp] theorem State.modThread_boot (core num : Nat) (f : HwThread → HwThread) : (s.modThread core num f).boot = s.boot := rfl
@[simp] theorem State.modThread_sec (core num : Nat) (f : HwThread → HwThread) : (s.modThread core num f).sec = s.sec := rfl
@[simp] theorem State.modThread_cxl (core num : Nat) (f : HwThread → HwThread) : (s.modThread core num f).cxl = s.cxl := rfl
@[simp] theorem State.modThread_site (core num : Nat) (f : HwThread → HwThread) : (s.modThread core num f).site = s.site := rfl

end Sys2Proof.Machine
end

