-- ==== Sys2Proof/Laws/Land.lean ====
section
/-! SUPPORT. The landing of a command's effect, replies, and the end of a packet's work: what each does, said once. -/

namespace Sys2Proof.Machine

variable (s o n : State)

/-! ## Landing -/

@[simp] theorem land_pending : (o.land n).pending = o.pending := rfl
@[simp] theorem land_uptime : (o.land n).uptime = o.uptime := rfl
@[simp] theorem land_stores : (o.land n).stores = [] := rfl
@[simp] theorem land_mem : (o.land n).mem = n.stores.reverse.foldl applyStore o.mem := rfl
@[simp] theorem land_ft : (o.land n).ft = n.ft := rfl
@[simp] theorem land_windows : (o.land n).windows = n.windows := rfl
@[simp] theorem land_works : (o.land n).works = n.works := rfl
@[simp] theorem land_nextPid : (o.land n).nextPid = n.nextPid := rfl
@[simp] theorem land_freeCount : (o.land n).freeCount = n.freeCount := rfl
@[simp] theorem land_jobs : (o.land n).jobs = n.jobs := rfl
@[simp] theorem land_tensors : (o.land n).tensors = n.tensors := rfl
@[simp] theorem land_shards : (o.land n).shards = n.shards := rfl
@[simp] theorem land_pageMap : (o.land n).pageMap = n.pageMap := rfl
@[simp] theorem land_moves : (o.land n).moves = n.moves := rfl
@[simp] theorem land_deferred : (o.land n).deferred = n.deferred := rfl
@[simp] theorem land_staged : (o.land n).staged = n.staged := rfl
@[simp] theorem land_access : (o.land n).access = n.access := rfl
@[simp] theorem land_memErr : (o.land n).memErr = n.memErr := rfl
@[simp] theorem land_itemMaps : (o.land n).itemMaps = n.itemMaps := rfl
@[simp] theorem land_threads : (o.land n).threads = n.threads := rfl
@[simp] theorem land_weights : (o.land n).weights = n.weights := rfl
@[simp] theorem land_gathered : (o.land n).gathered = n.gathered := rfl
@[simp] theorem land_fetched : (o.land n).fetched = n.fetched := rfl
@[simp] theorem land_remotes : (o.land n).remotes = n.remotes := rfl
@[simp] theorem land_nextTag : (o.land n).nextTag = n.nextTag := rfl
@[simp] theorem land_lastData : (o.land n).lastData = n.lastData := rfl
@[simp] theorem land_colls : (o.land n).colls = n.colls := rfl
@[simp] theorem land_buckets : (o.land n).buckets = n.buckets := rfl
@[simp] theorem land_rowan : (o.land n).rowan = n.rowan := rfl
@[simp] theorem land_rowanEarly : (o.land n).rowanEarly = n.rowanEarly := rfl
@[simp] theorem land_tagUses : (o.land n).tagUses = n.tagUses := rfl
@[simp] theorem land_binds : (o.land n).binds = n.binds := rfl
@[simp] theorem land_bindSent : (o.land n).bindSent = n.bindSent := rfl
@[simp] theorem land_vcMarks : (o.land n).vcMarks = n.vcMarks := rfl
@[simp] theorem land_ramps : (o.land n).ramps = n.ramps := rfl
@[simp] theorem land_links : (o.land n).links = n.links := rfl
@[simp] theorem land_ports : (o.land n).ports = n.ports := rfl
@[simp] theorem land_fabric : (o.land n).fabric = n.fabric := rfl
@[simp] theorem land_delivered : (o.land n).delivered = n.delivered := rfl
@[simp] theorem land_rel : (o.land n).rel = n.rel := rfl
@[simp] theorem land_power : (o.land n).power = n.power := rfl
@[simp] theorem land_boot : (o.land n).boot = n.boot := rfl
@[simp] theorem land_sec : (o.land n).sec = n.sec := rfl
@[simp] theorem land_site : (o.land n).site = n.site := rfl
@[simp] theorem land_cxl_linkUp : (o.land n).cxl.linkUp = n.cxl.linkUp := by unfold State.land; dsimp only; split <;> rfl
@[simp] theorem land_cxl_bme : (o.land n).cxl.bme = n.cxl.bme := by unfold State.land; dsimp only; split <;> rfl
@[simp] theorem land_cxl_speed : (o.land n).cxl.speed = n.cxl.speed := by unfold State.land; dsimp only; split <;> rfl
@[simp] theorem land_cxl_width : (o.land n).cxl.width = n.cxl.width := by unfold State.land; dsimp only; split <;> rfl
@[simp] theorem land_cxl_d3 : (o.land n).cxl.d3 = n.cxl.d3 := by unfold State.land; dsimp only; split <;> rfl
@[simp] theorem land_cxl_lastRead : (o.land n).cxl.lastRead = n.cxl.lastRead := by unfold State.land; dsimp only; split <;> rfl
@[simp] theorem land_cxl_lastPoison : (o.land n).cxl.lastPoison = n.cxl.lastPoison := by unfold State.land; dsimp only; split <;> rfl
@[simp] theorem land_cxl_lastReg : (o.land n).cxl.lastReg = n.cxl.lastReg := by unfold State.land; dsimp only; split <;> rfl
@[simp] theorem land_cxl_lastDoe : (o.land n).cxl.lastDoe = n.cxl.lastDoe := by unfold State.land; dsimp only; split <;> rfl
@[simp] theorem land_cxl_lastMctp : (o.land n).cxl.lastMctp = n.cxl.lastMctp := by unfold State.land; dsimp only; split <;> rfl
@[simp] theorem land_cxl_jtag : (o.land n).cxl.jtag = n.cxl.jtag := by unfold State.land; dsimp only; split <;> rfl

@[simp] theorem land_cxlOpen : (o.land n).cxlOpen = n.cxlOpen := by simp [State.cxlOpen]

/-- A landing leaves nothing waiting while the module may issue its CXL requests (R507). -/
theorem land_held (h : n.cxlOpen = true) : (o.land n).cxl.held = [] ∧ (o.land n).cxl.msixHeld = [] := by
  simp [State.land, h]

/-- What a landing makes of host memory, whether or not the posted writes may go out now. -/
@[simp] theorem land_hostView : (o.land n).hostView = n.cxl.held.foldl applyHostWrite o.hostMem := by
  unfold State.hostView State.land
  by_cases h : n.cxlOpen <;> simp [h]

/-- A landing keeps the invariant of the state between commands. -/
theorem land_inv (h : Memory.wf o.mem = true) (h' : Memory.wf o.hostMem = true) : (o.land n).Inv := by
  refine ⟨wf_applyStores _ h, ?_, rfl, fun ho => land_held o n (by simpa using ho)⟩
  unfold State.land
  by_cases hn : n.cxlOpen
  · simpa [hn] using wf_applyHostWrites _ h'
  · simpa [hn] using h'

@[simp] theorem pass_job (dt j : Nat) : (s.pass dt).job j = s.job j := rfl
@[simp] theorem pass_work (dt pid : Nat) : (s.pass dt).work pid = s.work pid := rfl
@[simp] theorem pass_handed (dt pid : Nat) (ops : List Nat) : (s.pass dt).handed pid ops = s.handed pid ops := rfl
@[simp] theorem pass_cxlOpen (dt : Nat) : (s.pass dt).cxlOpen = s.cxlOpen := rfl
@[simp] theorem pass_hostView (dt : Nat) : (s.pass dt).hostView = s.hostView := rfl
@[simp] theorem post_hostView (a : Nat) (bs : List Byte) (p : Bool) :
    (s.post a bs p).hostView = applyHostWrite s.hostView { addr := a, bytes := bs, poison := p } := by
  simp [State.hostView]

/-- The operation on a packet handed to its unit. -/
theorem onHanded_of {pid : Nat} {ops : List Nat} {f : Work → State → State} {w : Work} (h : s.handed pid ops = some w) :
    onHanded pid ops f s = f w s := by simp [onHanded, h]

/-! ## Vectors and lists -/

theorem vget_vset_same {α : Type} [Inhabited α] {k : Nat} (v : Vector α k) {i : Nat} (a : α) (h : i < k) : vget (vset v i a) i = a := by
  simp [vget, vset, h]

theorem vget_vset_other {α : Type} [Inhabited α] {k : Nat} (v : Vector α k) {i j : Nat} (a : α) (h : j ≠ i) :
    vget (vset v i a) j = vget v j := by
  by_cases hi : i < k
  · by_cases hj : j < k
    · simp [vget, vset, hi, hj, Vector.getElem_set_ne _ _ (Ne.symm h)]
    · simp [vget, hj]
  · simp [vset, hi]

theorem vget_vmod_same {α : Type} [Inhabited α] {k : Nat} (v : Vector α k) {i : Nat} (f : α → α) (h : i < k) :
    vget (vmod v i f) i = f (vget v i) := vget_vset_same v _ h

theorem vget_vmod_other {α : Type} [Inhabited α] {k : Nat} (v : Vector α k) {i j : Nat} (f : α → α) (h : j ≠ i) :
    vget (vmod v i f) j = vget v j := vget_vset_other v _ h

/-- Change of one job slot leaves the others. -/
theorem modJob_other (j : Nat) (f : Job → Job) {k : Nat} (h : k ≠ j) : (s.modJob j f).job k = s.job k :=
  vget_vmod_other s.jobs f h

theorem modJob_same (j : Nat) (f : Job → Job) (h : j < 4) : (s.modJob j f).job j = f (s.job j) :=
  vget_vmod_same s.jobs f h

/-! ## Replies and the end of work -/

/-- What one reply entry does (R61, R72). -/
theorem replyAt_replied (p : Packet) (st : Status) (final : Bool) (detail result : Nat) :
    s.replied (s.reply p st final detail result) p st final detail result := by
  refine ⟨?_, ?_, ?_⟩
  · simp [State.reply, State.replyAt, State.hostView, State.post]
  · intro hw
    simp [State.reply, State.replyAt, vget_vset_same _ _ hw]
  · intro k hk
    simp [State.reply, State.replyAt, vget_vset_other _ _ hk]

theorem work_pid {pid : Nat} {w : Work} (h : s.work pid = some w) : w.pid = pid := by
  have := List.find?_some h
  simpa using this

theorem handed_work {pid : Nat} {ops : List Nat} {w : Work} (h : s.handed pid ops = some w) : s.work pid = some w := by
  unfold State.handed at h
  split at h
  · cases h
  · split at h
    · simp_all
    · cases h

/-- The state after the end of a packet's work. -/
theorem completeAt_eq {pid : Nat} {w : Work} (h : s.work pid = some w) (st : Status) (ft detail result : Nat) :
    s.completeAt pid st ft detail result =
      { (s.replyAt w.pkt st true ft detail result).release w.pkt.window w.reserve with
        works := dropFirst (fun v => v.pid == pid) s.works, itemMaps := s.itemMaps ++ w.itemMap
        fetched := s.fetched.filter fun e => e.1 / 2 ^ 61 != pid } := by
  unfold State.completeAt
  rw [h]
  rfl

/-- The end of a packet's work: one final reply, and the work goes (R63, R69, R77). -/
theorem complete_answered {pid : Nat} {w : Work} (h : s.work pid = some w) (st : Status) (detail result : Nat) :
    s.answered (s.complete pid st detail result) w st detail result := by
  have hp := work_pid s h
  unfold State.complete
  rw [completeAt_eq s h]
  obtain ⟨h1, h2, h3⟩ := replyAt_replied s w.pkt st true detail result
  refine ⟨⟨h1, ?_, ?_⟩, by simp [hp]⟩
  · intro hw
    have := h2 hw
    simp only [State.reply, State.release, vget_vmod_same _ _ hw] at this ⊢
    exact this
  · intro k hk
    have := h3 k hk
    simp only [State.reply, State.release, vget_vmod_other _ _ hk] at this ⊢
    exact this

/-- A packet that ends where the operation has changed neither windows, works, time nor posted writes is answered (R63, R69). -/
theorem land_completed {s u : State} {pid : Nat} {w : Work} (hw : u.work pid = some w) (hwin : u.windows = s.windows)
    (hworks : u.works = s.works) (hft : u.ft = s.ft) (hm : u.hostMem = s.hostMem) (hh : u.cxl.held = s.cxl.held)
    (st : Status) (detail result : Nat) : s.answered (s.land (u.complete pid st detail result)) w st detail result := by
  obtain ⟨⟨h1, h2, h3⟩, h4⟩ := complete_answered u hw st detail result
  have hn : u.ftNow = s.ftNow := by simp [State.ftNow, hft]
  have hc : (u.complete pid st detail result).hostMem = s.hostMem := by
    unfold State.complete
    rw [completeAt_eq u hw]
    exact hm
  refine ⟨⟨?_, ?_, ?_⟩, ?_⟩
  · rw [land_hostView, ← hc]
    rw [hwin, hn] at h1
    refine Eq.trans h1 ?_
    simp [State.hostView, hm, hh]
  · intro hp
    have := h2 hp
    rw [hwin] at this
    exact this
  · intro k hk
    have := h3 k hk
    rw [hwin] at this
    exact this
  · rw [hworks] at h4
    exact h4

/-- A command that names a part that exists has its effect. -/
theorem runPart_of {k lim : Nat} (h : k < lim) (what : String) (dt : Nat) (op : State → State) (s : State) :
    runPart what k lim dt op s = .next ((s.pass dt).land (op (s.pass dt))) := by simp [runPart, run, h]

/-- A command that names no part stops (R5). -/
theorem runPart_not {k lim : Nat} (h : lim ≤ k) (what : String) (dt : Nat) (op : State → State) (s : State) :
    runPart what k lim dt op s = .fault (.noSuchPart what) := by simp [runPart, Nat.not_lt.2 h]

/-! ## Frames: what each shared operation may change, in a form that chains backwards through a meaning -/

theorem only_refl (ps : List Part) : s.only s ps := by intro p _; cases p <;> simp [Part.same]

theorem only_mono {s t : State} {ps qs : List Part} (h : s.only t ps) (hs : ∀ p, qs.contains p = false → ps.contains p = false) :
    s.only t qs := fun p hp => h p (hs p hp)

/-- From `s` to `t` only the named parts change, seen before the landing: the stores and the posted writes too. -/
def State.frame (s t : State) (ps : List Part) : Prop :=
  t.hostMem = s.hostMem ∧ (ps.contains .memory = false → t.stores = s.stores)
    ∧ (ps.contains .hostMemory = false → t.cxl.held = s.cxl.held) ∧ s.only t ps

theorem frame_refl (ps : List Part) : s.frame s ps := ⟨rfl, fun _ => rfl, fun _ => rfl, only_refl s ps⟩

theorem frame_mono {s t : State} {ps qs : List Part} (h : s.frame t ps) (hs : ∀ p, qs.contains p = false → ps.contains p = false) :
    s.frame t qs := ⟨h.1, fun hq => h.2.1 (hs _ hq), fun hq => h.2.2.1 (hs _ hq), only_mono h.2.2.2 hs⟩

theorem frame_trans {s t u : State} {ps : List Part} (h : s.frame t ps) (h' : t.frame u ps) : s.frame u ps := by
  refine ⟨h'.1.trans h.1, fun hp => (h'.2.1 hp).trans (h.2.1 hp), fun hp => (h'.2.2.1 hp).trans (h.2.2.1 hp), ?_⟩
  intro p hp
  have h1 := h.2.2.2 p hp
  have h2 := h'.2.2.2 p hp
  cases p <;> simp_all [Part.same]

/-- A frame of an operation is a frame of its landing. -/
theorem land_only {s t : State} {ps : List Part} (h : s.frame t ps) (hs : s.stores = []) : s.only (s.land t) ps := by
  intro p hp
  have h1 := h.2.2.2 p hp
  cases p
  case hostMemory =>
    intro a
    rw [land_hostView, ← h.1]
    exact h1 a
  case memory =>
    intro a
    simp [h.2.1 hp, hs]
  all_goals simp_all [Part.same]

theorem modWork_frame {s t : State} {ps : List Part} (h : s.frame t ps) (hp : ps.contains .works = true) (pid : Nat) (f : Work → Work) :
    s.frame (t.modWork pid f) ps :=
  frame_trans h ⟨rfl, fun _ => rfl, fun _ => rfl, fun p hq => by cases p <;> simp_all [Part.same, State.hostView]⟩

theorem modJob_frame {s t : State} {ps : List Part} (h : s.frame t ps) (hp : ps.contains .jobs = true) (j : Nat) (f : Job → Job) :
    s.frame (t.modJob j f) ps :=
  frame_trans h ⟨rfl, fun _ => rfl, fun _ => rfl, fun p hq => by cases p <;> simp_all [Part.same, State.hostView]⟩

theorem modWindow_frame {s t : State} {ps : List Part} (h : s.frame t ps) (hp : ps.contains .windows = true) (w : Nat) (f : Window → Window) :
    s.frame (t.modWindow w f) ps :=
  frame_trans h ⟨rfl, fun _ => rfl, fun _ => rfl, fun p hq => by cases p <;> simp_all [Part.same, State.hostView]⟩

theorem release_frame {s t : State} {ps : List Part} (h : s.frame t ps) (hp : ps.contains .windows = true) (w n : Nat) :
    s.frame (t.release w n) ps :=
  frame_trans h ⟨rfl, fun _ => rfl, fun _ => rfl, fun p hq => by cases p <;> simp_all [Part.same, State.hostView]⟩

theorem modLink_frame {s t : State} {ps : List Part} (h : s.frame t ps) (hp : ps.contains .links = true) (l : Nat) (f : Link → Link) :
    s.frame (t.modLink l f) ps :=
  frame_trans h ⟨rfl, fun _ => rfl, fun _ => rfl, fun p hq => by cases p <;> simp_all [Part.same, State.hostView]⟩

theorem modPort_frame {s t : State} {ps : List Part} (h : s.frame t ps) (hp : ps.contains .ports = true) (l : Nat) (f : Port → Port) :
    s.frame (t.modPort l f) ps :=
  frame_trans h ⟨rfl, fun _ => rfl, fun _ => rfl, fun p hq => by cases p <;> simp_all [Part.same, State.hostView]⟩

theorem modPower_frame {s t : State} {ps : List Part} (h : s.frame t ps) (hp : ps.contains .power = true) (f : Power → Power) :
    s.frame (t.modPower f) ps :=
  frame_trans h ⟨rfl, fun _ => rfl, fun _ => rfl, fun p hq => by cases p <;> simp_all [Part.same, State.hostView]⟩

theorem modBoot_frame {s t : State} {ps : List Part} (h : s.frame t ps) (hp : ps.contains .boot = true) (f : Boot → Boot) :
    s.frame (t.modBoot f) ps :=
  frame_trans h ⟨rfl, fun _ => rfl, fun _ => rfl, fun p hq => by cases p <;> simp_all [Part.same, State.hostView]⟩

theorem modSec_frame {s t : State} {ps : List Part} (h : s.frame t ps) (hp : ps.contains .sec = true) (f : Sec → Sec) :
    s.frame (t.modSec f) ps :=
  frame_trans h ⟨rfl, fun _ => rfl, fun _ => rfl, fun p hq => by cases p <;> simp_all [Part.same, State.hostView]⟩

theorem modFt_frame {s t : State} {ps : List Part} (h : s.frame t ps) (hp : ps.contains .ft = true) (f : FtBlock → FtBlock) :
    s.frame (t.modFt f) ps :=
  frame_trans h ⟨rfl, fun _ => rfl, fun _ => rfl, fun p hq => by cases p <;> simp_all [Part.same, State.hostView]⟩

theorem modColl_frame {s t : State} {ps : List Part} (h : s.frame t ps) (hp : ps.contains .colls = true) (pid : Nat) (f : Coll → Coll) :
    s.frame (t.modColl pid f) ps :=
  frame_trans h ⟨rfl, fun _ => rfl, fun _ => rfl, fun p hq => by cases p <;> simp_all [Part.same, State.hostView]⟩

theorem modBucket_frame {s t : State} {ps : List Part} (h : s.frame t ps) (hp : ps.contains .buckets = true) (pid : Nat) (f : Bucket → Bucket) :
    s.frame (t.modBucket pid f) ps :=
  frame_trans h ⟨rfl, fun _ => rfl, fun _ => rfl, fun p hq => by cases p <;> simp_all [Part.same, State.hostView]⟩

theorem modGroup_frame {s t : State} {ps : List Part} (h : s.frame t ps) (hp : ps.contains .jobs = true) (j g : Nat) (f : Group → Group) :
    s.frame (t.modGroup j g f) ps :=
  frame_trans h ⟨rfl, fun _ => rfl, fun _ => rfl, fun p hq => by cases p <;> simp_all [Part.same, State.hostView]⟩

theorem modSample_frame {s t : State} {ps : List Part} (h : s.frame t ps) (hp : ps.contains .rel = true) (i : Nat) (f : Sample → Sample) :
    s.frame (t.modSample i f) ps :=
  frame_trans h ⟨rfl, fun _ => rfl, fun _ => rfl, fun p hq => by cases p <;> simp_all [Part.same, State.hostView]⟩

theorem log_frame {s t : State} {ps : List Part} (h : s.frame t ps) (hp : ps.contains .memErr = true) (r : LogRec) :
    s.frame (t.log r) ps :=
  frame_trans h ⟨rfl, fun _ => rfl, fun _ => rfl, fun p hq => by cases p <;> simp_all [Part.same, State.hostView]⟩

theorem writeCw_frame {s t : State} {ps : List Part} (h : s.frame t ps) (hp : ps.contains .memory = true) (k : Nat) (c : Codeword) :
    s.frame (t.writeCw k c) ps :=
  frame_trans h ⟨rfl, fun hq => by simp_all, fun _ => rfl, fun p hq => by cases p <;> simp_all [Part.same, State.hostView]⟩

theorem eraseKeys_frame {s t : State} {ps : List Part} (h : s.frame t ps) (hp : ps.contains .memory = true) (lo hi : Nat) :
    s.frame (t.eraseKeys lo hi) ps :=
  frame_trans h ⟨rfl, fun hq => by simp_all, fun _ => rfl, fun p hq => by cases p <;> simp_all [Part.same, State.hostView]⟩

theorem post_frame {s t : State} {ps : List Part} (h : s.frame t ps) (hp : ps.contains .hostMemory = true) (a : Nat) (bs : List Byte)
    (b : Bool) : s.frame (t.post a bs b) ps :=
  frame_trans h ⟨rfl, fun _ => rfl, fun hq => by simp_all, fun p hq => by cases p <;> simp_all [Part.same]⟩

theorem replyAt_frame {s t : State} {ps : List Part} (h : s.frame t ps) (hw : ps.contains .windows = true)
    (hp : ps.contains .hostMemory = true) (p : Packet) (st : Status) (final : Bool) (ft detail result : Nat) :
    s.frame (t.replyAt p st final ft detail result) ps :=
  frame_trans h ⟨rfl, fun _ => rfl, fun hq => by simp_all, fun q hq => by cases q <;> simp_all [Part.same, State.replyAt]⟩

theorem complete_frame {s t : State} {ps : List Part} (h : s.frame t ps)
    (hp : [Part.windows, .works, .itemMaps, .fetched, .hostMemory].all ps.contains = true) (pid : Nat) (st : Status)
    (detail result : Nat) : s.frame (t.complete pid st detail result) ps := by
  simp only [List.all_cons, List.all_nil, Bool.and_true, Bool.and_eq_true] at hp
  unfold State.complete State.completeAt
  split
  · exact h
  · rename_i w _
    refine frame_trans (release_frame (replyAt_frame h hp.1 hp.2.2.2.2 w.pkt st true t.ftNow detail result) hp.1 w.pkt.window w.reserve)
      ⟨rfl, fun _ => rfl, fun _ => rfl, fun q hq => by cases q <;> simp_all [Part.same]⟩

/-- A state written out field by field: the parts whose fields are those of `u` are as they were there. -/
theorem frame_mk {s u : State} {ps : List Part} (h : s.frame u ps)
    {pending : List Instr}
    {uptime : Nat}
    {ft : FtBlock}
    {windows : Vector Window 64}
    {works : List Work}
    {nextPid : Nat}
    {freeCount : Nat}
    {jobs : Vector Job 4}
    {tensors : List Tensor}
    {shards : List Shard}
    {mem : List Host.Cell}
    {stores : List Store}
    {hostMem : List Host.Cell}
    {pageMap : List (Nat × PageEntry)}
    {moves : List Move}
    {deferred : List (Nat × Nat)}
    {staged : List Staged}
    {access : List AccessCount}
    {memErr : MemErr}
    {itemMaps : List ItemMap}
    {threads : List HwThread}
    {weights : List WeightBuf}
    {gathered : List Gathered}
    {fetched : List (Nat × (Word × Bool))}
    {remotes : List RemoteOp}
    {nextTag : Nat}
    {lastData : List (Word × Bool)}
    {colls : List Coll}
    {buckets : List Bucket}
    {rowan : Vector (Option RowanRun) 64}
    {rowanEarly : List Flit}
    {tagUses : List TagUse}
    {binds : List BindCo}
    {bindSent : List Sent}
    {vcMarks : List VcMark}
    {ramps : List Ramp}
    {links : Vector Link 18}
    {ports : Vector Port 18}
    {fabric : Fabric}
    {delivered : List Delivered}
    {rel : Rel}
    {power : Power}
    {boot : Boot}
    {sec : Sec}
    {cxl : CxlSt}
    {site : SiteAlert}
    (h_pending : ps.contains .queue = false → pending = u.pending)
    (h_uptime : ps.contains .clock = false → uptime = u.uptime)
    (h_ft : ps.contains .ft = false → ft = u.ft)
    (h_windows : ps.contains .windows = false → windows = u.windows)
    (h_works : ps.contains .works = false → works = u.works)
    (h_nextPid : ps.contains .works = false → nextPid = u.nextPid)
    (h_jobs : ps.contains .jobs = false → jobs = u.jobs)
    (h_tensors : ps.contains .tensors = false → tensors = u.tensors)
    (h_shards : ps.contains .shards = false → shards = u.shards)
    (h_mem : ps.contains .memory = false → mem = u.mem)
    (h_stores : ps.contains .memory = false → stores = u.stores)
    (h_hostMem : hostMem = u.hostMem)
    (h_pageMap : ps.contains .pageMap = false → pageMap = u.pageMap)
    (h_moves : ps.contains .moves = false → moves = u.moves)
    (h_deferred : ps.contains .pageMap = false → deferred = u.deferred)
    (h_staged : ps.contains .staged = false → staged = u.staged)
    (h_access : ps.contains .access = false → access = u.access)
    (h_memErr : ps.contains .memErr = false → memErr = u.memErr)
    (h_itemMaps : ps.contains .itemMaps = false → itemMaps = u.itemMaps)
    (h_threads : ps.contains .threads = false → threads = u.threads)
    (h_weights : ps.contains .threads = false → weights = u.weights)
    (h_gathered : ps.contains .gathered = false → gathered = u.gathered)
    (h_fetched : ps.contains .fetched = false → fetched = u.fetched)
    (h_remotes : ps.contains .remotes = false → remotes = u.remotes)
    (h_nextTag : ps.contains .remotes = false → nextTag = u.nextTag)
    (h_lastData : ps.contains .lastData = false → lastData = u.lastData)
    (h_colls : ps.contains .colls = false → colls = u.colls)
    (h_buckets : ps.contains .buckets = false → buckets = u.buckets)
    (h_rowan : ps.contains .rowan = false → rowan = u.rowan)
    (h_rowanEarly : ps.contains .rowan = false → rowanEarly = u.rowanEarly)
    (h_tagUses : ps.contains .rowan = false → tagUses = u.tagUses)
    (h_binds : ps.contains .binds = false → binds = u.binds)
    (h_bindSent : ps.contains .binds = false → bindSent = u.bindSent)
    (h_vcMarks : ps.contains .vcMarks = false → vcMarks = u.vcMarks)
    (h_ramps : ps.contains .ramps = false → ramps = u.ramps)
    (h_links : ps.contains .links = false → links = u.links)
    (h_ports : ps.contains .ports = false → ports = u.ports)
    (h_fabric : ps.contains .fabric = false → fabric = u.fabric)
    (h_delivered : ps.contains .delivered = false → delivered = u.delivered)
    (h_rel : ps.contains .rel = false → rel = u.rel)
    (h_power : ps.contains .power = false → power = u.power)
    (h_boot : ps.contains .boot = false → boot = u.boot)
    (h_sec : ps.contains .sec = false → sec = u.sec)
    (h_held : ps.contains .hostMemory = false → cxl.held = u.cxl.held)
    (h_cxl : ps.contains .hostLink = false → cxl = { u.cxl with held := cxl.held, epLines := cxl.epLines, msix := cxl.msix, msixHeld := cxl.msixHeld })
    (h_site : ps.contains .site = false → site = u.site)
    : s.frame (State.mk pending uptime ft windows works nextPid freeCount jobs tensors shards mem stores hostMem pageMap moves deferred staged access memErr itemMaps threads weights gathered fetched remotes nextTag lastData colls buckets rowan rowanEarly tagUses binds bindSent vcMarks ramps links ports fabric delivered rel power boot sec cxl site) ps := by
  refine frame_trans h ⟨h_hostMem, h_stores, h_held, ?_⟩
  intro p hp
  cases p
  case hostLink => have := h_cxl hp; rw [this]; simp [Part.same]
  case hostMemory => have h1 := h_held hp; intro a; simp [State.hostView, h1, h_hostMem]
  case memory => have h1 := h_mem hp; intro a; simp [h1]
  all_goals simp_all [Part.same]

/-- A fold keeps a frame that each of its steps keeps. -/
theorem foldl_frame {α : Type} {s : State} {ps : List Part} (f : State → α → State)
    (hf : ∀ u a, s.frame u ps → s.frame (f u a) ps) : ∀ (l : List α) (t : State), s.frame t ps → s.frame (l.foldl f t) ps
  | [], _, h => h
  | a :: l, t, h => foldl_frame f hf l (f t a) (hf t a h)

end Sys2Proof.Machine
end

