-- ==== Sys2Proof/Laws/Booked.lean ====
section
/-! SUPPORT. Moving pages and booked happenings: what stands still when no page moves and when nothing is due, said once. -/

namespace Sys2Proof.Machine

variable (s : State)

/-- A fold over a list whose every element leaves the state alone leaves it alone. -/
theorem foldl_still {α : Type} (f : State → α → State) (xs : List α) (h : ∀ x, x ∈ xs → f s x = s) : xs.foldl f s = s := by
  induction xs with
  | nil => rfl
  | cons x t ih =>
    rw [List.foldl_cons, h x (List.mem_cons_self ..)]
    exact ih fun y hy => h y (List.mem_cons_of_mem x hy)

/-! ## Moving pages (R202) -/

/-- With no page moving there is no move to complete. -/
@[simp] theorem finishMoves_still (h : s.moves = []) : s.finishMoves = s := by simp [State.finishMoves, h]

@[simp] theorem afterMoves_still (op : State → State) (h : s.moves = []) : afterMoves op s = op s := by simp [afterMoves, h]

@[simp] theorem moving_still (h : s.moves = []) (t l : Nat) : s.moving t l = false := by simp [State.moving, h]

theorem servePage_still (h : s.moves = []) (x : HeldOp) (t off : Nat) : s.servePage x t off = s.performHere x t off := by
  simp [State.servePage, h]

/-- With no page moving an operation is performed at once, whole. -/
theorem serveHere_still (h : s.moves = []) (x : HeldOp) (t off : Nat) : s.serveHere x t off = s.performHere x t off := by
  simp only [State.serveHere, servePage_still s h, moving_still s h, Bool.or_self, Bool.and_false, Bool.false_and, Bool.false_eq_true, if_false]
  split <;> rfl

/-! ## Deadlines, safe points, a switch-over, windows (R44) -/

/-- A bucket whose deadline has not come, or that a commit forces, is not judged (R349). -/
theorem judgeDeadline_early {w : Work} {g : Group} {d : BDesc} {ft : Nat} (h : d.force = true ∨ ft < d.dl) :
    s.judgeDeadline w g d ft = s := by
  have h' : (d.force || decide (ft < d.dl)) = true := by rcases h with h | h <;> simp [h]
  simp [State.judgeDeadline, h']

/-- No bucket of a slot is judged before its deadline (R349). -/
theorem judgeBuckets_early {slot ft : Nat}
    (h : ∀ b w, b ∈ s.buckets → s.work b.pid = some w → w.pkt.bdesc.force = true ∨ ft < w.pkt.bdesc.dl) :
    s.judgeBuckets slot ft = s := by
  refine foldl_still s _ _ fun b hb => ?_
  have hm : b ∈ s.buckets := (List.mem_filter.mp hb).1
  split
  · rfl
  · rename_i w hw
    split
    · rfl
    · exact judgeDeadline_early s (h b w hm hw)

/-- No vote falls before the commit deadline (R357). -/
theorem opCommitDeadline_early {slot : Nat} (h : (s.job slot).commitWaits = false ∨ s.ftNow < (s.job slot).commitDeadline) :
    opCommitDeadline slot s = s := by
  unfold opCommitDeadline
  rcases h with h | h <;> simp [h]

/-- No safe point is taken before its deadline, nor by a job that takes none (R384). -/
theorem opSafeDeadline_early {slot : Nat} (h : (s.job slot).opened = false ∨ (s.job slot).site ≠ .safing ∨ s.ftNow < (s.job slot).safeT) :
    opSafeDeadline slot s = s := by
  unfold opSafeDeadline
  rcases h with h | h | h <;> simp [h]

/-- A collective whose deadline has not come goes on (R317). -/
theorem opCollectiveDeadline_early {pid : Nat} (h : ∀ w, s.work pid = some w → w.pkt.cdesc.lateAt s.ftNow = false) :
    opCollectiveDeadline pid s = s := by
  unfold opCollectiveDeadline
  split
  · rename_i w _ hw _
    simp [h w hw]
  · rfl

/-- A window whose end has not come stays (R410). -/
theorem opTestWindowEnd_early {n : Nat} (h : ∀ w, s.testWindow n = some w → s.ftNow < w.stop) : opTestWindowEnd n s = s := by
  unfold opTestWindowEnd
  split
  · rfl
  · rename_i w hw
    simp [h w hw]

/-- A window whose start has not come, or that is open, does not open (R410). -/
theorem opTestWindowOpen_early {n : Nat} (h : ∀ w, s.testWindow n = some w → w.opened = true ∨ s.ftNow < w.start) :
    opTestWindowOpen n s = s := by
  unfold opTestWindowOpen
  split
  · rfl
  · rename_i w hw
    rcases h w hw with h | h <;> simp [h]

/-- No switch-over is made before its booked FT, nor with none booked (R460). -/
theorem opSwitchOver_early (h : ∀ k, s.boot.booking = some k → s.ftNow < k.ft) : opSwitchOver s = s := by
  unfold opSwitchOver
  split
  · rename_i k _ hk _
    simp [h k hk]
  · rfl

/-- Nothing of what R44 orders before an opening window is due. -/
structure State.NothingDue (s : State) : Prop where
  buckets : ∀ b w, b ∈ s.buckets → s.work b.pid = some w → w.pkt.bdesc.force = true ∨ s.ftNow < w.pkt.bdesc.dl
  colls   : ∀ pid w, s.work pid = some w → w.pkt.cdesc.lateAt s.ftNow = false
  commits : ∀ j, j < 4 → (s.job j).commitWaits = false ∨ s.ftNow < (s.job j).commitDeadline
  ends    : ∀ n w, s.testWindow n = some w → s.ftNow < w.stop
  safes   : ∀ j, j < 4 → (s.job j).opened = false ∨ (s.job j).site ≠ .safing ∨ s.ftNow < (s.job j).safeT
  booked  : ∀ k, s.boot.booking = some k → s.ftNow < k.ft

theorem settleDeadlines_still {s : State} (h : s.NothingDue) : s.settleDeadlines = s := by
  have h1 : (List.range 4).foldl (fun s j => s.judgeBuckets j s.ftNow) s = s :=
    foldl_still s _ _ fun j _ => judgeBuckets_early s h.buckets
  have h2 : (s.colls.map fun c => c.pid).foldl (fun s p => opCollectiveDeadline p s) s = s :=
    foldl_still s _ _ fun p _ => opCollectiveDeadline_early s (h.colls p)
  have h3 : (List.range 4).foldl (fun s j => opCommitDeadline j s) s = s :=
    foldl_still s _ _ fun j hj => opCommitDeadline_early s (h.commits j (List.mem_range.mp hj))
  have h4 : (s.rel.windows.map fun w => w.num).foldl (fun s n => opTestWindowEnd n s) s = s :=
    foldl_still s _ _ fun n _ => opTestWindowEnd_early s (h.ends n)
  simp only [State.settleDeadlines, h1, h2, h3, h4]

theorem settleSafePoints_still {s : State} (h : s.NothingDue) : s.settleSafePoints = s := by
  rw [State.settleSafePoints, settleDeadlines_still h]
  exact foldl_still s _ _ fun j hj => opSafeDeadline_early s (h.safes j (List.mem_range.mp hj))

/-- With nothing due before it, a switch-over, a phase boundary or an opening window acts on the state as it stands. -/
theorem settleSwitch_still {s : State} (h : s.NothingDue) : s.settleSwitch = s := by
  rw [State.settleSwitch, settleSafePoints_still h]
  exact opSwitchOver_early s h.booked

/-- And a barrier's slot, where no window is to open. -/
theorem settleWindows_still {s : State} (h : s.NothingDue) (h' : ∀ n w, s.testWindow n = some w → w.opened = true ∨ s.ftNow < w.start) :
    s.settleWindows = s := by
  simp only [State.settleWindows, settleSwitch_still h]
  exact foldl_still s _ _ fun n _ => opTestWindowOpen_early s (h' n)

end Sys2Proof.Machine
end

