-- ==== Sys2Proof/Laws/Fabric.lean ====
section
/-! SUPPORT. What a link's transmitter and the passing of Fabric Time do, said once (10_links.md R274; 02_fabric_time.md R28). -/

namespace Sys2Proof.Machine

/-- A message handed to a link is its last outstanding one, whether it goes at once or waits (R274). -/
@[simp] theorem transmit_outstanding (l : Link) (now : Nat) (o : Out) : (l.transmit now o).outstanding = l.outstanding ++ [o] := by
  unfold Link.transmit
  split
  · rename_i h
    have hw : l.waiting = [] := by simp only [Bool.and_eq_true, List.isEmpty_iff] at h; exact h.2
    simp [Link.outstanding, hw]
  · simp [Link.outstanding]

/-- No more than 256 codewords are unacknowledged (R274). -/
theorem transmit_window (l : Link) (now : Nat) (o : Out) (h : l.unacked.length ≤ 256) : (l.transmit now o).unacked.length ≤ 256 := by
  unfold Link.transmit
  split
  · rename_i k
    have : l.unacked.length < 256 := by simp only [Bool.and_eq_true, decide_eq_true_eq] at k; exact k.1
    simp only [List.length_append, List.length_cons, List.length_nil]
    omega
  · exact h

/-- Sending changes no receiver's side, state or width of the link. -/
theorem transmit_keeps (l : Link) (now : Nat) (o : Out) :
    (l.transmit now o).st = l.st ∧ (l.transmit now o).width = l.width ∧ (l.transmit now o).port = l.port
      ∧ (l.transmit now o).rxNext = l.rxNext ∧ (l.transmit now o).nak = l.nak ∧ (l.transmit now o).retired = l.retired := by
  unfold Link.transmit
  split <;> exact ⟨rfl, rfl, rfl, rfl, rfl, rfl⟩

/-- Waiting messages go in their order: the outstanding ones stay the same. -/
theorem refill_outstanding (l : Link) (now : Nat) : (l.refill now).outstanding = l.outstanding := by
  have aux : ∀ (os : List Out) (k : Link), (os.foldl (fun l o => l.transmit now o) k).outstanding = k.outstanding ++ os := by
    intro os
    induction os with
    | nil => intro k; simp
    | cons o t ih => intro k; rw [List.foldl_cons, ih, transmit_outstanding, List.append_assoc, List.singleton_append]
  have h := aux (l.waiting.take (256 - l.unacked.length)) { l with waiting := [] }
  simp only [Link.outstanding, List.append_nil] at h
  simp only [Link.refill, Link.outstanding]
  rw [← List.append_assoc, h, List.append_assoc, List.take_append_drop]

/-- While FT runs, every nanosecond moves it by a nanosecond and the slew's part, and nothing is lost: what does not make a whole
picosecond stays in the remainder (R28). -/
theorem pass_exact (f : FtBlock) (dt : Nat) (h : f.state ≠ .unset) (hp : 0 ≤ 1000 * (dt : Int) + ((dt : Int) * f.slewPs + f.slewRem) / 1000000) :
    ((f.pass dt).ps : Int) * 1000000 + (f.pass dt).slewRem = (f.ps : Int) * 1000000 + f.slewRem + (dt : Int) * (1000000000 + f.slewPs) := by
  simp only [FtBlock.pass, if_neg h]
  have hd := Int.mul_ediv_add_emod ((dt : Int) * f.slewPs + f.slewRem) 1000000
  have ht := Int.toNat_of_nonneg hp
  push_cast at ht ⊢
  rw [Int.mul_add]
  omega

end Sys2Proof.Machine
end

