-- ==== Sys2Proof/WellFormed.lean ====
section
/-! DEFINITION. Well-formed commands: the parts they name exist (R5), and their operands have the lengths that their rules give. The
meanings do not rest on it: a command that names no part faults, and other operands act as their meanings say. -/

namespace Sys2Proof

/-- A place exists (R5, R196). -/
def Place.wellFormed : Place → Bool
  | .dram t c p w => t < 32 && c < 32 && p < 12288 && w < 8192
  | .shared t w => t < 32 && w < 8388608
  | .core t c w => t < 32 && c < 16 && w < 1572864

/-- The header fields of a message fit their widths (R276). -/
def Msg.wellFormed (m : Msg) : Bool :=
  m.vc < 24 && m.cls < 2 && m.dest < 4096 && m.src < 4096 && m.job < 2 ^ 32 && m.subop < 16 && m.len < 4096 && m.master < 65536
    && m.tag < 2 ^ 28 && m.pseq < 2 ^ 32

/-- The bytes of host memory that the host stored lie in 64-bit addresses. -/
def hostStoresOk (hs : List (Nat × Byte)) : Bool := hs.all fun c => c.1 < 2 ^ 64

/-- A well-formed command. -/
def Instr.wellFormed : Instr → Bool
  | .headerWrite _ w slot words => w < 64 && slot < 4096 && words.length = 8
  | .ringPoll _ w hs => w < 64 && hostStoresOk hs
  | .packetConsume _ w hs => w < 64 && hostStoresOk hs
  | .dispatch _ w => w < 64
  | .cmdwEnable _ w _ => w < 64
  | .cmdwDisable _ w => w < 64
  | .cmdwReplyAck _ w i => w < 64 && i < 4096
  | .registerWrite _ m off size _ => m < 65536 && off < 2 ^ 24 && ((size = 8 && off % 8 = 0) || (size = 4 && off % 4 = 0))
  | .ftNowLowRead _ => true
  | .identify _ _ | .status _ _ | .queryCaps _ _ | .resetScope _ _ => true
  | .fwStage _ _ hs => hostStoresOk hs
  | .fwSwitch _ _ | .tensorCreate _ _ | .tensorFree _ _ => true
  | .copy _ _ hs _ => hostStoresOk hs
  | .fill _ _ | .transposeCopy _ _ | .fence _ _ | .matmul _ _ | .matmulBwdData _ _ | .matmulBwdWeight _ _ | .fusedNormBwd _ _
  | .fusedSoftmaxBwd _ _ | .vectorProgram _ _ | .reduceMaxmin _ _ | .groupBind _ _ | .groupUnbind _ _ | .allreduce _ _
  | .reduceScatter _ _ | .allgather _ _ | .broadcast _ _ | .permute _ _ | .alltoall _ _ | .barrier _ _ | .igrBucket _ _
  | .shardDeclare _ _ | .rowanReduce _ _ | .jobOpen _ _ | .jobClose _ _ | .phaseMark _ _ | .placementHint _ _ | .placementForbid _ _
  | .forbidComplied _ _ | .placementWithdraw _ _ | .placementQuery _ _ | .commitStep _ _ | .generationQuery _ _ | .safePoint _ _
  | .opPrefer _ _ | .capSet _ _ | .fieldTestSchedule _ _ | .historyRead _ _ | .unitRetire _ _ | .attest _ _ | .accessTableWrite _ _
  | .fmKeyInstall _ _ | .officerRootInstall _ _ | .zeroise _ _ | .vendorDiagnostic _ _ => true
  | .memoryRead _ _ _ len => 1 ≤ len && len ≤ 4096
  | .memoryWrite _ _ _ len mask data => 1 ≤ len && len ≤ 4096 && mask.length ≤ 64 && data.length ≤ 513
  | .memoryAtomic _ _ _ _ _ _ => true
  | .memoryAccumulate _ _ _ lanes => 1 ≤ lanes.length && lanes.length ≤ 512
  | .hostMemRead _ off => off < 2 ^ 40
  | .hostMemWrite _ off line => off < 2 ^ 40 && line.length = 64
  | .remoteTimeout _ tag => tag < 2 ^ 28
  | .scrub _ p => p.wellFormed
  | .pageMove _ t l u c p => t < 32 && l < 393216 && u < 32 && c < 32 && p < 12288
  | .pageMoveDone _ t l => t < 32 && l < 393216
  | .workItemDone _ g _ => g < 512
  | .itemsAssign _ => true
  | .recomputeDone _ _ g _ | .thirdComputeDone _ _ g _ => g < 512
  | .rerunDone _ _ => true
  | .jnsStatusWrite _ j _ => j < 4
  | .barrierSlot _ j k => j < 4 && k < 16
  | .ftsyncEdge _ _ | .timeMessage _ => true
  | .timeTransfer _ l _ _ _ _ _ _ => l < 18
  | .ftMillisecond _ _ ts => ts.all fun t => t < 32
  | .referenceLoss _ | .referenceReturn _ => true
  | .phaseBoundary _ peaks temps => peaks.length = 32 && temps.length = 32
  | .lightDetect _ l n => l < 18 && n < 4
  | .trainingDone _ l _ m k _ => l < 18 && m < 4096 && k < 18
  | .trainingRetry _ l => l < 18
  | .laneFault _ l n => l < 18 && n < 4
  | .linkRetrain _ l => l < 18
  | .linkEnable _ l _ => l < 18
  | .linkPort _ l p => l < 18 && p < 18
  | .bulkCodeword _ l _ _ q a _ n => l < 18 && q < 512 && a < 512 && n < 4
  | .replayTimeout _ l => l < 18
  | .rowanFrame _ l _ f => l < 18 && f.words.length = 4
  | .rowanResendTimer _ tag => tag < 64
  | .rowanResendRequest _ l _ => l < 18
  | .messageArrival _ l m | .transitMessage _ l m => l < 18 && m.wellFormed
  | .portHoldEnd _ p => p < 18
  | .reservationWrite _ m i k _ => m < 65536 && i < 64 && k < 2
  | .fmRegisterOp _ | .fmReset _ => true
  | .collectiveStart _ j g => j < 4 && g < 64
  | .collectiveData _ => true
  | .collectiveDeadline _ _ => true
  | .collectiveResend _ _ tag => tag < 2 ^ 28
  | .bindRequest _ | .bindMark _ | .bindOutcome _ => true
  | .bindTimeout _ j g => j < 4 && g < 64
  | .bindMemberTimeout _ _ => true
  | .contributionChunk _ _ _ | .voidNotice _ | .bucketDeadline _ _ | .retractNotice _ | .laneCheck _ _ | .recollectNotice _
  | .optimizerStart _ _ | .optimizerDone _ _ _ | .outcomeNotice _ => true
  | .commitVote _ j | .commitDeadline _ j | .shadowCopyDone _ j | .shadowEnable _ j _ | .jscGenWrite _ j _ | .safeDeadline _ j => j < 4
  | .siteAlertAssert _ | .siteAlertDeassert _ => true
  | .saRelease _ m => m < 16
  | .testWindowOpen _ _ => true
  | .testStart _ g | .drainTimeout _ g | .testPassDone _ g _ => g < 512
  | .testWindowEnd _ _ => true
  | .railLimit _ _ t | .railRelease _ _ t => t < 32
  | .junctionHot _ t k _ => t < 32 && k < 8
  | .thermalFloorTimer _ t | .stackHot _ t _ | .stackCool _ t _ | .thermalTrip _ t _ _ => t < 32
  | .profileClear _ => true
  | .powerOn _ b c | .thermtripRelease _ b c | .perstRelease _ b c => b < 4 && c < 4
  | .perst _ => true
  | .watchdogMiss _ t | .tileResetDone _ t => t < 32
  | .tamper _ k => k < 16
  | .coreResetDone _ g => g < 512
  | .bringupDone _ _ _ _ _ _ => true
  | .bringupTimeout _ k => 1 ≤ k && k ≤ 6
  | .startGood _ => true
  | .bootLoad _ len hs => len < 2 ^ 32 && hostStoresOk hs
  | .switchOver _ | .handoverEnd _ | .trialEnd _ | .svnFuse _ => true
  | .doeRequest _ r => r.length ≤ 65536
  | .mctpMessage _ k _ => k < 128
  | .heartbeatTimeout _ _ => true
  | .controllerFail _ t => t = 0 || t = 16
  | .cxlLinkDown _ _ | .cxlResume _ _ | .jtagInstruction _ _ | .powerLoss _ | .neighbourBootTimeout _ | .markReply _ => true
  | .vcoreSettled _ t => t < 32

end Sys2Proof
end

