-- ==== Sys2Proof/Tests/Slice0.lean ====
section
/-! SUPPORT. The model's own tests. Each theorem witness_<Name> shows, for every clause of the obligation <Name> that has hypotheses, a state
and operands that meet them together; the theorems ill_<what> show a command that each check of WellFormed.lean refuses; the theorems
test_<what> compare the model with the spec's own examples. -/

open Sys2Proof Sys2Proof.Machine

namespace Sys2Proof.Tests

section

-- One proof at a time: the kernel's evaluations in parallel would each take a thread's stack.
set_option Elab.async false

/-! ## Small states -/

/-- The module in service: brought up, FT free-running at 1,000,000 ms. -/
def up : State :=
  { State.reset with
    boot := { State.reset.boot with bringup := false, bringupDone := true, step := 7 }, ft := { state := .freerun, ps := 10 ^ 15 } }

/-- A job in slot 0. -/
def theJob : Job := { opened := true, fjob := 5, seed := 9 }

/-- The module in service with a job in slot 0. -/
def withJob (j : Job) : State := { up with jobs := vset up.jobs 0 j }

/-- A dispatched packet of window 0: its header word 0 (the opcode in its low byte, RES_HOST at bit 11), P0 onwards, its payload. -/
def wk (head : Nat) (ps pay : List Nat) : Work :=
  { pid := 7, pkt := { hdr := wd head :: 0 :: ps.map wd, payload := pay.map wd }, slot := some 0, fjob := 5 }

/-- The module with that packet in its unit's hands. -/
def busy (w : Work) : State := { withJob theJob with works := [w] }

/-- A group of slot 0 in the job. -/
def withGroup (g : Group) : Job := { theJob with groups := [g] }

/-- A group of two modules, 0 (this one) and 1. -/
def pair (n : Nat) : Group := { num := n, block := false, members := [0, 1], ext := (0, 0, 0), prec := 0 }

/-- A CONTROL message from module 1 that the module holds. -/
def from1 (c : Ctl) : Delivered := { link := 0, stamp := 10 ^ 12, msg := { (default : Msg) with src := 1, op := .control, ctl := c } }

/-- Memory that nothing has written checks clean. -/
theorem clean_readCw (s : State) (k : Nat) (h : s.stores = []) (h' : s.mem = []) : eccCheck (s.readCw k) = .clean := by
  have h0 : cellGetAll [] (10 * k) 10 = List.replicate 10 0 := by simp [cellGetAll, cellGet, List.map_const']
  have h1 : eccCheck (BitVec.ofNat 80 (bytesNat (List.replicate 10 (0 : Byte)))) = .clean := by decide +kernel
  have h2 : storesGet [] k = none := rfl
  simp only [State.readCw, h, h', h2, h0, h1]

/-- Memory that nothing has written checks clean at every place that holds no page-map word. -/
theorem clean_storedCw (s : State) (p : Place) (h : s.stores = []) (h' : s.mem = []) (h2 : s.mapCode p = 0) :
    eccCheck (s.storedCw p) = .clean := by
  have h3 : s.storedCw p = s.readCw (placeKey p) := by simp [State.storedCw, h2]
  rw [h3]
  exact clean_readCw s _ h h'

/-- A tensor of slot 0 of one word in page `n` of tile 0, or spilled. -/
def tns (n : Nat) (sp : Option Word := none) : Tensor :=
  { num := n, slot := 0, tile := 0, page := n, spill := sp, bytes := 16, fmt := 2, cplx := false, life := 1, rows := 1, cols := 1, epoch := 0 }

/-- The module with a packet in its unit's hands and three tensors, the first of them perhaps spilled to module 1. -/
def holding (w : Work) (sp : Bool := false) : State :=
  { busy w with tensors := [tns 1 (if sp then some 0x1001000000000000 else none), tns 2, tns 3] }

/-- A packet whose items run, the first of them on core 3. -/
def runs (w : Work) (n : Nat) : Work :=
  { w with stage := .running, items := { num := 0, core := some 3, started := true } :: (List.range n).map fun k => { num := k + 1 } }

/-- A MATMUL of one element with a mode. -/
def oneByOne (mode : Nat) : Work := wk 0x30 [0] [1, 2, 3, 0, 0, 0, 1 + 2 ^ 32, 1, mode * 2 ^ 48]

/-- An IGR_BUCKET packet of an owner, and the module that holds it. -/
def bucketPacket : Work := wk 0x1059 [1, 2000000000000, 9] [1, 0, 4294967300, 0, 1, 0, 0, 0]
def bucketHeld : State := { withJob (withGroup (pair 1)) with works := [wk 0x1059 [1, 2000000000000, 9] [1, 0, 4294967300, 0, 1, 0, 0, 0]], tensors := [{ num := 1, slot := 0, tile := 0, page := 1, bytes := 65536, fmt := 2, cplx := false, life := 1, rows := 128, cols := 128, epoch := 0 }, { num := 2, slot := 0, tile := 0, page := 2, bytes := 65536, fmt := 2, cplx := false, life := 1, rows := 128, cols := 128, epoch := 0 }], delivered := [] }

/-- The module at a millisecond's boundary, in a lock state, with the last FTSYNC edge's offset. -/
def atMs (st : LockState) (edge : Option Int) : State :=
  { up with ft := { up.ft with state := st, edgePs := edge, quiet := 15 } }

/-- Lanes of a chunk. -/
def laneOne : LaneIn := { val := 2 ^ 64 - 1, res := 250, poison := false, resPoison := false }
def laneTwo : LaneIn := { val := 5, res := 5, poison := false, resPoison := false }

/-! ## Witnesses of the obligations' hypotheses -/

theorem witness_JobOpenOpensLowestFreeSlot :
    (∃ (s : State) (pid : Nat) (w : Work) (j : _), (s.handed pid [0x70] = some w) ∧ (j < 4) ∧ ((s.job j).opened = false) ∧ ((∀ i, i < j → (s.job i).opened = true)))
    ∧ (∃ (s : State) (pid : Nat) (w : Work), (s.handed pid [0x70] = some w) ∧ ((∀ j, j < 4 → (s.job j).opened = true))) :=
  ⟨⟨(busy (wk 0x70 [5, 9, 0x101] [])), (7), (wk 0x70 [5, 9, 0x101] []), (1), (by decide +kernel)⟩,
   ⟨({ busy (wk 0x70 [] []) with jobs := Vector.replicate 4 theJob }), (7), (wk 0x70 [] []), (by decide +kernel)⟩⟩

theorem witness_JobCloseFreesTheSlot :
    (∃ (s : State) (pid : Nat) (j : Nat) (w : Work), (s.handed pid [0x71] = some w) ∧ (w.slot = some j) ∧ (j < 4) ∧ (s.stores = []) ∧ ((∃ v, v ∈ s.works ∧ v.slot = some j ∧ v.pid ≠ pid)) ∧ ((s.job j).groups = []) ∧ ((s.job j).shadow.copy = none))
    ∧ (∃ (s : State) (pid : Nat) (j : Nat) (w : Work), 
      let alone : Prop := ∀ v, v ∈ s.works → v.slot = some j → v.pid = pid
      (s.handed pid [0x71] = some w) ∧ (w.slot = some j) ∧ (j < 4) ∧ (s.stores = []) ∧ (alone) ∧ ((s.job j).groups = []))
    ∧ (∃ (s : State) (pid : Nat) (j : Nat) (w : Work) (g : _), 
      let alone : Prop := ∀ v, v ∈ s.works → v.slot = some j → v.pid = pid
      (s.handed pid [0x71] = some w) ∧ (w.slot = some j) ∧ (j < 4) ∧ (s.stores = []) ∧ (alone) ∧ ((s.job j).groups = [g])) :=
  ⟨⟨({ busy (wk 0x71 [] []) with works := [wk 0x71 [] [], { wk 0x30 [] [] with pid := 8 }] }), (7), (0), (wk 0x71 [] []), (by decide +kernel), (by decide +kernel), (by decide +kernel), (by decide +kernel), (⟨{ wk 0x30 [] [] with pid := 8 }, by decide +kernel⟩), (by decide +kernel)⟩,
   ⟨(busy (wk 0x71 [] [])), (7), (0), (wk 0x71 [] []), (by decide +kernel), (by decide +kernel)⟩,
   ⟨({ withJob (withGroup (pair 3)) with works := [wk 0x71 [] []] }), (7), (0), (wk 0x71 [] []), (pair 3), (by decide +kernel), (by decide +kernel)⟩⟩

theorem witness_QueuedPacketsAreTaken :
    (∃ (s : State) (pid : Nat) (w : Work), (s.stores = []) ∧ (s.handed pid [0x72] = some w))
    ∧ (∃ (s : State) (pid : Nat) (w : Work), (s.stores = []) ∧ (s.handed pid [0x80] = some w))
    ∧ (∃ (s : State) (pid : Nat) (w : Work), (s.stores = []) ∧ (s.handed pid [0x81] = some w))
    ∧ (∃ (s : State) (pid : Nat) (w : Work), (s.stores = []) ∧ (s.handed pid [0x58] = some w))
    ∧ (∃ (s : State) (pid : Nat) (w : Work), (s.stores = []) ∧ (s.handed pid [0x5A] = some w)) :=
  ⟨⟨(busy (wk 0x72 [0x12] [])), (7), (wk 0x72 [0x12] []), (by decide +kernel)⟩,
   ⟨(busy (wk 0x80 [0x12, 3] [])), (7), (wk 0x80 [0x12, 3] []), (by decide +kernel)⟩,
   ⟨(busy (wk 0x81 [3000] [])), (7), (wk 0x81 [3000] []), (by decide +kernel)⟩,
   ⟨(busy (wk 0x58 [] [])), (7), (wk 0x58 [] []), (by decide +kernel)⟩,
   ⟨(busy (wk 0x5A [] [])), (7), (wk 0x5A [] []), (by decide +kernel)⟩⟩

theorem witness_SafePointParksOrSafes :
    (∃ (s : State) (pid : Nat) (j : Nat) (w : Work), (s.handed pid [0x76] = some w) ∧ (w.slot = some j) ∧ (j < 4) ∧ (s.stores = []) ∧ ((s.job j).site = .parked))
    ∧ (∃ (s : State) (pid : Nat) (j : Nat) (w : Work), (s.handed pid [0x76] = some w) ∧ (w.slot = some j) ∧ (j < 4) ∧ (s.stores = []) ∧ ((s.job j).site = .running)) :=
  ⟨⟨({ busy (wk 0x76 [1000000000500] []) with jobs := vset up.jobs 0 { theJob with site := .parked } }), (7), (0), (wk 0x76 [1000000000500] []), (by decide +kernel)⟩,
   ⟨(busy (wk 0x76 [1000000000500] [])), (7), (0), (wk 0x76 [1000000000500] []), (by decide +kernel)⟩⟩

theorem witness_SiteAlertSafesTheJobs :
    (∃ (s : State), (s.stores = []) ∧ (s.registersRun = true) ∧ (s.site.asserted = false))
    ∧ (∃ (s : State), (s.stores = []))
    ∧ (∃ (s : State), (s.stores = []) ∧ (s.registersRun = true) ∧ (s.site.asserted = false)) :=
  ⟨⟨(withJob theJob), (by decide +kernel)⟩,
   ⟨(withJob theJob), (by decide +kernel)⟩,
   ⟨(withJob theJob), (by decide +kernel)⟩⟩

theorem witness_SafeDeadlineParks :
    (∃ (s : State) (dt : Nat) (j : Nat), 
      let u := (s.pass dt).settleDeadlines
      (j < 4) ∧ (s.stores = []) ∧ ((u.job j).opened = true) ∧ ((u.job j).site = .safing) ∧ ((u.job j).safeT ≤ u.ftNow) ∧ (u.group j 0 = none))
    ∧ (∃ (s : State) (dt : Nat) (j : Nat), 
      let u := (s.pass dt).settleDeadlines
      (j < 4) ∧ (s.stores = []) ∧ (u = s.pass dt) ∧ ((s.job j).opened = true) ∧ ((s.job j).site = .safing) ∧ ((s.job j).safeT ≤ (s.pass dt).ftNow) ∧ (s.group j 0 = none) ∧ ((∀ w ∈ s.works, w.slot ≠ some j)) ∧ ((∀ b ∈ s.buckets, b.slot ≠ j)))
    ∧ (∃ (s : State) (dt : Nat) (j : Nat), 
      let u := (s.pass dt).settleDeadlines
      (j < 4) ∧ (s.stores = []) ∧ (u = s.pass dt) ∧ ((s.pass dt).ftNow < (s.job j).safeT)) :=
  ⟨⟨(withJob { theJob with site := .safing, safeT := 10 ^ 12 }), (5), (0), (by decide +kernel), (by decide +kernel)⟩,
   ⟨(withJob { theJob with site := .safing, safeT := 10 ^ 12 }), (5), (0), (by decide +kernel), (by decide +kernel)⟩,
   ⟨(withJob { theJob with site := .safing, safeT := 10 ^ 12 + 6 }), (5), (0), (by decide +kernel), (by decide +kernel)⟩⟩

theorem witness_JobRegisterWrites :
    (∃ (s : State) (j : Nat), (j < 4) ∧ (s.registersRun = true) ∧ (s.stores = []))
    ∧ (∃ (s : State) (j : Nat), (j < 4) ∧ (s.registersRun = true) ∧ (s.stores = []))
    ∧ (∃ (s : State) (j : Nat), (j < 4) ∧ (s.registersRun = true) ∧ (s.stores = [])) :=
  ⟨⟨(withJob theJob), (0), (by decide +kernel)⟩,
   ⟨(withJob theJob), (0), (by decide +kernel)⟩,
   ⟨(withJob theJob), (0), (by decide +kernel)⟩⟩

theorem witness_PlacementRulesAreKept :
    (∃ (s : State) (pid : Nat) (j : Nat) (w : Work), (w.slot = some j) ∧ (j < 4) ∧ (s.stores = []) ∧ (s.handed pid [0x73] = some w) ∧ (w.pkt.plAction = 0))
    ∧ (∃ (s : State) (pid : Nat) (j : Nat) (w : Work), (w.slot = some j) ∧ (j < 4) ∧ (s.stores = []) ∧ (s.handed pid [0x73] = some w) ∧ (w.pkt.plAction = 1))
    ∧ (∃ (s : State) (pid : Nat) (j : Nat) (w : Work), (w.slot = some j) ∧ (j < 4) ∧ (s.stores = []) ∧ (s.work pid = some w) ∧ (w.stage = .waiting) ∧ (w.pkt.opcode = 0x73) ∧ (w.pkt.plAction = 1) ∧ (s.complies j w.pkt.rule = true))
    ∧ (∃ (s : State) (pid : Nat) (j : Nat) (w : Work), (w.slot = some j) ∧ (j < 4) ∧ (s.stores = []) ∧ (s.handed pid [0x73] = some w) ∧ (w.pkt.plAction = 2)) :=
  ⟨⟨(busy (wk 0x73 [0x10, 1, 4] [])), (7), (0), (wk 0x73 [0x10, 1, 4] []), (by decide +kernel)⟩,
   ⟨(busy (wk 0x73 [0x101, 0, 4] [])), (7), (0), (wk 0x73 [0x101, 0, 4] []), (by decide +kernel)⟩,
   ⟨(busy { wk 0x73 [0x101, 0, 4] [] with stage := .waiting }), (7), (0), ({ wk 0x73 [0x101, 0, 4] [] with stage := .waiting }), (by decide +kernel)⟩,
   ⟨(busy (wk 0x73 [0xFF2, 0, 4] [])), (7), (0), (wk 0x73 [0xFF2, 0, 4] []), (by decide +kernel)⟩⟩

theorem witness_CommitStepWaits :
    (∃ (s : State) (pid : Nat) (j : Nat) (w : Work), (s.handed pid [0x74] = some w) ∧ (w.slot = some j) ∧ (j < 4) ∧ (s.stores = [])) :=
  ⟨(busy (wk 0x74 [] [])), (7), (0), (wk 0x74 [] []), (by decide +kernel)⟩

theorem witness_VoteDecides :
    (∃ (v : List Nat), (v.length = 7) ∧ ((∀ i, 2 ≤ i → i ≤ 6 → lget v i noFt = noFt)))
    ∧ (∃ (v : List Nat) (i : Nat), (v.length = 7) ∧ (2 ≤ i) ∧ (i ≤ 6) ∧ (lget v i noFt ≠ noFt) ∧ ((∀ k, 2 ≤ k → k ≤ 6 → lget v k noFt ≠ noFt → lget v i noFt < lget v k noFt ∨ (lget v i noFt = lget v k noFt ∧ i ≤ k)))) :=
  ⟨⟨([noFt, 5, noFt, noFt, noFt, noFt, noFt]), (by decide +kernel), (fun i h1 h2 => (by decide : ∀ j : Fin 7, 2 ≤ j.val → lget [noFt, 5, noFt, noFt, noFt, noFt, noFt] j.val noFt = noFt) ⟨i, Nat.lt_succ_of_le h2⟩ h1)⟩,
   ⟨([noFt, 5, 9, noFt, 9, noFt, 12]), (2), (by decide +kernel), (by decide +kernel), (by decide +kernel), (by decide +kernel), (fun k h1 h2 => (by decide : ∀ j : Fin 7, 2 ≤ j.val → lget [noFt, 5, 9, noFt, 9, noFt, 12] j.val noFt ≠ noFt → lget [noFt, 5, 9, noFt, 9, noFt, 12] 2 noFt < lget [noFt, 5, 9, noFt, 9, noFt, 12] j.val noFt ∨ (lget [noFt, 5, 9, noFt, 9, noFt, 12] 2 noFt = lget [noFt, 5, 9, noFt, 9, noFt, 12] j.val noFt ∧ 2 ≤ j.val)) ⟨k, Nat.lt_succ_of_le h2⟩ h1)⟩⟩

theorem witness_VotesWaitForTheStep :
    (∃ (s : State) (j : Nat), (j < 4) ∧ (s.stores = []) ∧ (s.stepSettled j = false))
    ∧ (∃ (s : State) (dt : Nat) (j : Nat), (j < 4) ∧ (s.stores = []) ∧ ((s.pass dt).judgeBuckets j (s.pass dt).ftNow = s.pass dt) ∧ ((s.pass dt).ftNow < (s.job j).commitDeadline)) :=
  ⟨⟨({ busy { wk 0x30 [] [] with step := 1 } with pending := [] }), (0), (by decide +kernel)⟩,
   ⟨(withJob { theJob with commit := { pids := [7], stamp := 10 ^ 12 } }), (5), (0), (by decide +kernel)⟩⟩

theorem witness_SingleMemberCommits :
    (∃ (s : State) (j : Nat) (pid : Nat) (w : Work) (g : Group), (j < 4) ∧ (s.stores = []) ∧ (s.works = [w]) ∧ (w.pid = pid) ∧ (w.pkt.opcode = 0x74) ∧ (w.slot = some j) ∧ ((s.job j).commit = { pids := [pid], stamp := w.pkt.stamp, voted := false }) ∧ (s.rel.samples = []) ∧ (s.shards = []) ∧ (s.group j 0 = some g) ∧ (g.rings s.fabric.mod = []) ∧ ((s.job j).site = .running) ∧ ((s.job j).lanes = [none, none, none, none, none, none, none]) ∧ ((s.job j).shadow.enable = false))
    ∧ (∃ (s : State) (dt : Nat) (j : Nat) (pid : Nat) (w : Work) (g : Group), (j < 4) ∧ (s.stores = []) ∧ (s.works = [w]) ∧ (w.pid = pid) ∧ (w.pkt.opcode = 0x74) ∧ (w.slot = some j) ∧ ((s.job j).commit = { pids := [pid], stamp := w.pkt.stamp, voted := false }) ∧ (s.rel.samples = []) ∧ (s.shards = []) ∧ (s.group j 0 = some g) ∧ (g.rings s.fabric.mod = []) ∧ ((s.job j).site = .running) ∧ ((s.job j).lanes = [none, none, none, none, none, none, none]) ∧ ((s.job j).shadow.enable = false) ∧ (s.buckets = []) ∧ ((s.job j).fails = []) ∧ ((s.job j).commitDeadline ≤ (s.pass dt).ftNow) ∧ ((s.job j).commitDeadline < 2 ^ 64 - 1)) :=
  ⟨⟨({ withJob { theJob with commit := { pids := [7], stamp := 10 ^ 12 }, groups := [{ num := 0, block := false, members := [0], ext := (0, 0, 0), prec := 0 }] } with works := [{ wk 0x74 [] [] with pkt := { (wk 0x74 [] []).pkt with stamp := 10 ^ 12 } }] }), (0), (7), ({ wk 0x74 [] [] with pkt := { (wk 0x74 [] []).pkt with stamp := 10 ^ 12 } }), ({ num := 0, block := false, members := [0], ext := (0, 0, 0), prec := 0 }), (by decide +kernel)⟩,
   ⟨({ withJob { theJob with commit := { pids := [7], stamp := 10 ^ 12 }, groups := [{ num := 0, block := false, members := [0], ext := (0, 0, 0), prec := 0 }] } with works := [{ wk 0x74 [] [] with pkt := { (wk 0x74 [] []).pkt with stamp := 10 ^ 12 } }] }), (200000000), (0), (7), ({ wk 0x74 [] [] with pkt := { (wk 0x74 [] []).pkt with stamp := 10 ^ 12 } }), ({ num := 0, block := false, members := [0], ext := (0, 0, 0), prec := 0 }), (by decide +kernel)⟩⟩

theorem witness_GroupBindOnTheMember :
    (∃ (s : State) (pid : Nat) (j : Nat) (w : Work) (g : _), 
      let n := w.pkt.group
      (w.slot = some j) ∧ (j < 4) ∧ (s.stores = []) ∧ (s.handed pid [0x50] = some w) ∧ (s.group j n = some g) ∧ (g.same w.pkt = false))
    ∧ (∃ (s : State) (pid : Nat) (j : Nat) (w : Work) (g : _), 
      let n := w.pkt.group
      (w.slot = some j) ∧ (j < 4) ∧ (s.stores = []) ∧ (s.handed pid [0x50] = some w) ∧ (s.group j n = some g) ∧ (g.same w.pkt = true) ∧ (w.pkt.bindVc = false))
    ∧ (∃ (s : State) (pid : Nat) (j : Nat) (w : Work) (g : _) (v : _), 
      let n := w.pkt.group
      (w.slot = some j) ∧ (j < 4) ∧ (s.stores = []) ∧ (s.handed pid [0x50] = some w) ∧ (s.group j n = some g) ∧ (g.same w.pkt = true) ∧ (w.pkt.bindVc = true) ∧ (g.vc = some v))
    ∧ (∃ (s : State) (pid : Nat) (j : Nat) (w : Work), 
      let n := w.pkt.group
      let here := s.fabric.mod
      let asks : Prop := s.handed pid [0x50] = some w ∧ (s.group j n = none ∨ ∃ g, s.group j n = some g ∧ g.same w.pkt = true ∧ w.pkt.bindVc = true ∧ g.vc = none)
      (w.slot = some j) ∧ (j < 4) ∧ (s.stores = []) ∧ (asks) ∧ (lget w.pkt.bindMembers 0 0 ≠ here))
    ∧ (∃ (s : State) (pid : Nat) (j : Nat) (w : Work), 
      let n := w.pkt.group
      let here := s.fabric.mod
      let asks : Prop := s.handed pid [0x50] = some w ∧ (s.group j n = none ∨ ∃ g, s.group j n = some g ∧ g.same w.pkt = true ∧ w.pkt.bindVc = true ∧ g.vc = none)
      (w.slot = some j) ∧ (j < 4) ∧ (s.stores = []) ∧ (asks) ∧ (lget w.pkt.bindMembers 0 0 = here) ∧ (s.binding w.fjob n = none) ∧ (w.pkt.bindMembers.any (fun m => m != here) = true))
    ∧ (∃ (s : State) (pid : Nat) (j : Nat) (w : Work), 
      let n := w.pkt.group
      let here := s.fabric.mod
      let alone : Prop := s.handed pid [0x50] = some w ∧ s.group j n = none ∧ w.pkt.bindMembers = [here] ∧ here < 4096 ∧ s.slotOf w.fjob = some j ∧ s.pendingBind j n = none ∧ s.binding w.fjob n = none
      (w.slot = some j) ∧ (j < 4) ∧ (s.stores = []) ∧ (alone) ∧ (w.pkt.bindVc = false))
    ∧ (∃ (s : State) (pid : Nat) (j : Nat) (w : Work) (v : _), 
      let n := w.pkt.group
      let here := s.fabric.mod
      let alone : Prop := s.handed pid [0x50] = some w ∧ s.group j n = none ∧ w.pkt.bindMembers = [here] ∧ here < 4096 ∧ s.slotOf w.fjob = some j ∧ s.pendingBind j n = none ∧ s.binding w.fjob n = none
      (w.slot = some j) ∧ (j < 4) ∧ (s.stores = []) ∧ (alone) ∧ (w.pkt.bindVc = true) ∧ (((List.range 20).map fun k => k + 4).find? (fun k => !s.vcMarks.any fun m => m.vc == k) = some v) ∧ (s.vcMarks.any (fun m => m.fjob == w.fjob && m.group == n) = false))
    ∧ (∃ (s : State) (dt : Nat) (pid : Nat) (j : Nat) (w : Work), (w.slot = some j) ∧ (j < 4) ∧ (s.stores = []) ∧ (s.work pid = some w) ∧ (w.pkt.opcode = 0x50) ∧ (w.stage = .waiting) ∧ (w.due + 12000000 ≤ (s.pass dt).ftNow)) :=
  ⟨⟨({ withJob (withGroup (pair 3)) with works := [wk 0x50 [3] []] }), (7), (0), (wk 0x50 [3] []), (pair 3), (by decide +kernel), (by decide +kernel)⟩,
   ⟨({ withJob (withGroup (pair 3)) with works := [wk 0x50 [0x203, 0, 2] [0x10000]] }), (7), (0), (wk 0x50 [0x203, 0, 2] [0x10000]), (pair 3), (by decide +kernel), (by decide +kernel)⟩,
   ⟨({ withJob (withGroup { pair 3 with vc := some 6 }) with works := [wk 0x50 [0x70303, 0, 2] [0x10000]] }), (7), (0), (wk 0x50 [0x70303, 0, 2] [0x10000]), (({ pair 3 with vc := some 6 } : Group)), ((6 : Nat)), (by decide +kernel), (by decide +kernel)⟩,
   ⟨(busy (wk 0x50 [0x203, 0, 2] [1])), (7), (0), (wk 0x50 [0x203, 0, 2] [1]), (by decide +kernel), (by decide +kernel), (by decide +kernel), (⟨by decide +kernel, Or.inl (by decide +kernel)⟩), (by decide +kernel)⟩,
   ⟨(busy (wk 0x50 [0x203, 0, 2] [0x10000])), (7), (0), (wk 0x50 [0x203, 0, 2] [0x10000]), (by decide +kernel), (by decide +kernel), (by decide +kernel), (⟨by decide +kernel, Or.inl (by decide +kernel)⟩), (by decide +kernel)⟩,
   ⟨(busy (wk 0x50 [0x203, 0, 1] [0])), (7), (0), (wk 0x50 [0x203, 0, 1] [0]), (by decide +kernel), (by decide +kernel)⟩,
   ⟨(busy (wk 0x50 [0x303, 0, 1] [0])), (7), (0), (wk 0x50 [0x303, 0, 1] [0]), ((4 : Nat)), (by decide +kernel), (by decide +kernel)⟩,
   ⟨(busy { wk 0x50 [0x203, 0, 2] [0x10000] with stage := .waiting, due := 10 ^ 11 }), (5), (7), (0), ({ wk 0x50 [0x203, 0, 2] [0x10000] with stage := .waiting, due := 10 ^ 11 }), (by decide +kernel)⟩⟩

theorem witness_BindingMessages :
    (∃ (s : State) (d : Delivered) (ds : List Delivered) (r : _), (s.delivered = d :: ds) ∧ (s.stores = []) ∧ (d.msg.ctl = .bindReq r) ∧ (s.binding r.fjob r.group = none) ∧ (r.members.any (fun m => m != d.msg.src) = true))
    ∧ (∃ (s : State) (d : Delivered) (ds : List Delivered) (fjob : _) (g : _) (vc : _) (weight : _), (s.delivered = d :: ds) ∧ (s.stores = []) ∧ (d.msg.ctl = .vcMark fjob g vc weight) ∧ ((s.slotOf fjob).isSome = true))
    ∧ (∃ (s : State) (d : Delivered) (ds : List Delivered) (fjob : _) (g : _), (s.delivered = d :: ds) ∧ (s.stores = []) ∧ (d.msg.ctl = .vcQuery fjob g))
    ∧ (∃ (s : State) (d : Delivered) (ds : List Delivered) (fjob : _) (g : _) (free : _) (b : _) (m : _), (s.delivered = d :: ds) ∧ (s.stores = []) ∧ (d.msg.ctl = .vcFree fjob g free) ∧ (s.binding fjob g = some b) ∧ (m ∈ b.toMark) ∧ (m ≠ d.msg.src) ∧ ((∀ f ∈ b.frees, f.1 ≠ m)))
    ∧ (∃ (s : State) (d : Delivered) (ds : List Delivered) (fjob : _) (g : _) (vc : _) (b : _) (m : _), (s.delivered = d :: ds) ∧ (s.stores = []) ∧ (d.msg.ctl = .vcMarked fjob g vc true) ∧ (s.binding fjob g = some b) ∧ (b.trying = some vc) ∧ (b.tried.contains vc = false) ∧ (m ∈ b.toMark) ∧ (m ≠ d.msg.src) ∧ (m ∉ b.marked))
    ∧ (∃ (s : State) (d : Delivered) (ds : List Delivered) (fjob : _) (g : _) (vc : _), (s.delivered = d :: ds) ∧ (s.stores = []) ∧ (d.msg.ctl = .vcWithdraw fjob g vc))
    ∧ (∃ (s : State) (d : Delivered) (ds : List Delivered) (fjob : _) (g : _) (vc : _) (j : _) (w : _), (s.delivered = d :: ds) ∧ (s.stores = []) ∧ (d.msg.ctl = .bindOut fjob g 0 0 vc) ∧ (s.slotOf fjob = some j) ∧ (s.pendingBind j g = some w) ∧ (s.work w.pid = some w) ∧ (s.group j g = none))
    ∧ (∃ (s : State) (d : Delivered) (ds : List Delivered) (fjob : _) (g : _) (vc : _), (s.delivered = d :: ds) ∧ (s.stores = []) ∧ (d.msg.ctl = .vcMarked fjob g vc true) ∧ (s.binding fjob g = none)) :=
  ⟨⟨({ withJob theJob with delivered := [from1 (.bindReq ({ fjob := 5, group := 3, p0 := 0x203, p1 := 0, p2 := 2, p3 := 0, members := [0, 1] } : BindReq))] }), (from1 (.bindReq ({ fjob := 5, group := 3, p0 := 0x203, p1 := 0, p2 := 2, p3 := 0, members := [0, 1] } : BindReq))), ([]), (({ fjob := 5, group := 3, p0 := 0x203, p1 := 0, p2 := 2, p3 := 0, members := [0, 1] } : BindReq)), (by decide +kernel)⟩,
   ⟨({ withJob theJob with delivered := [from1 (.vcMark 5 3 6 1)] }), (from1 (.vcMark 5 3 6 1)), ([]), ((5 : Nat)), ((3 : Nat)), ((6 : Nat)), ((1 : Nat)), (by decide +kernel)⟩,
   ⟨({ withJob theJob with delivered := [from1 (.vcQuery 5 3)] }), (from1 (.vcQuery 5 3)), ([]), ((5 : Nat)), ((3 : Nat)), (by decide +kernel)⟩,
   ⟨({ withJob theJob with delivered := [from1 (.vcFree 5 3 [6])], binds := [({ fjob := 5, slot := 0, group := 3, reqs := [], firstAt := 10 ^ 12, toMark := [1, 2] } : BindCo)] }), (from1 (.vcFree 5 3 [6])), ([]), ((5 : Nat)), ((3 : Nat)), ([(6 : Nat)]), (({ fjob := 5, slot := 0, group := 3, reqs := [], firstAt := 10 ^ 12, toMark := [1, 2] } : BindCo)), ((2 : Nat)), (by decide +kernel)⟩,
   ⟨({ withJob theJob with delivered := [from1 (.vcMarked 5 3 6 true)], binds := [({ fjob := 5, slot := 0, group := 3, reqs := [], firstAt := 10 ^ 12, toMark := [1, 2], trying := some 6 } : BindCo)] }), (from1 (.vcMarked 5 3 6 true)), ([]), ((5 : Nat)), ((3 : Nat)), ((6 : Nat)), (({ fjob := 5, slot := 0, group := 3, reqs := [], firstAt := 10 ^ 12, toMark := [1, 2], trying := some 6 } : BindCo)), ((2 : Nat)), (by decide +kernel)⟩,
   ⟨({ withJob theJob with delivered := [from1 (.vcWithdraw 5 3 6)] }), (from1 (.vcWithdraw 5 3 6)), ([]), ((5 : Nat)), ((3 : Nat)), ((6 : Nat)), (by decide +kernel)⟩,
   ⟨({ busy { wk 0x50 [0x203, 0, 2] [0x10000] with stage := .waiting } with delivered := [from1 (.bindOut 5 3 0 0 6)] }), (from1 (.bindOut 5 3 0 0 6)), ([]), ((5 : Nat)), ((3 : Nat)), ((6 : Nat)), ((0 : Nat)), (({ wk 0x50 [0x203, 0, 2] [0x10000] with stage := .waiting } : Work)), (by decide +kernel)⟩,
   ⟨({ withJob theJob with delivered := [from1 (.vcMarked 5 3 6 true)] }), (from1 (.vcMarked 5 3 6 true)), ([]), ((5 : Nat)), ((3 : Nat)), ((6 : Nat)), (by decide +kernel)⟩⟩

theorem witness_BindTimeoutEndsTheBinding :
    (∃ (s : State) (dt : Nat) (j : Nat) (g : Nat) (b : BindCo), (j < 4) ∧ (s.stores = []) ∧ (s.binding (s.job j).fjob g = some b) ∧ ((s.pass dt).ftNow < b.firstAt + 10000000))
    ∧ (∃ (s : State) (dt : Nat) (j : Nat) (g : Nat) (b : BindCo) (r : _) (rs : _), (j < 4) ∧ (s.stores = []) ∧ (s.binding (s.job j).fjob g = some b) ∧ ((s.job j).opened = true) ∧ (b.reqs = r :: rs) ∧ (r.2.members.any (fun m => !b.reqs.any fun q => q.1 == m) = true) ∧ (b.firstAt + 10000000 ≤ (s.pass dt).ftNow)) :=
  ⟨⟨({ withJob theJob with binds := [{ fjob := 5, slot := 0, group := 3, reqs := [(1, ({ fjob := 5, group := 3, p0 := 0x203, p1 := 0, p2 := 2, p3 := 0, members := [0, 1] } : BindReq))], firstAt := 10 ^ 12 }] }), (5), (0), (3), ({ fjob := 5, slot := 0, group := 3, reqs := [(1, ({ fjob := 5, group := 3, p0 := 0x203, p1 := 0, p2 := 2, p3 := 0, members := [0, 1] } : BindReq))], firstAt := 10 ^ 12 }), (by decide +kernel)⟩,
   ⟨({ withJob theJob with binds := [{ fjob := 5, slot := 0, group := 3, reqs := [(1, ({ fjob := 5, group := 3, p0 := 0x203, p1 := 0, p2 := 2, p3 := 0, members := [0, 1] } : BindReq))], firstAt := 9 * 10 ^ 11 }] }), (5), (0), (3), ({ fjob := 5, slot := 0, group := 3, reqs := [(1, ({ fjob := 5, group := 3, p0 := 0x203, p1 := 0, p2 := 2, p3 := 0, members := [0, 1] } : BindReq))], firstAt := 9 * 10 ^ 11 }), ((1, ({ fjob := 5, group := 3, p0 := 0x203, p1 := 0, p2 := 2, p3 := 0, members := [0, 1] } : BindReq))), (([] : List (Nat × BindReq))), (by decide +kernel)⟩⟩

theorem witness_GroupUnbindIsLocal :
    (∃ (s : State) (pid : Nat) (j : Nat) (w : Work), (s.handed pid [0x51] = some w) ∧ (w.slot = some j) ∧ (j < 4) ∧ (s.stores = []))
    ∧ (∃ (s : State) (pid : Nat) (j : Nat) (w : Work), 
      let n := w.pkt.group
      (s.handed pid [0x51] = some w) ∧ (w.slot = some j) ∧ (j < 4) ∧ (s.stores = []) ∧ (s.group j n = none))
    ∧ (∃ (s : State) (pid : Nat) (j : Nat) (w : Work) (g : _), 
      let n := w.pkt.group
      let fjob := (s.job j).fjob
      (s.handed pid [0x51] = some w) ∧ (w.slot = some j) ∧ (j < 4) ∧ (s.stores = []) ∧ (s.group j n = some g) ∧ (n ≠ 0) ∧ ((∀ v ∈ s.works, isCollective v.pkt.opcode = true → v.pkt.group ≠ n)) ∧ ((∀ k u, k < 64 → s.run k = some u → ¬(u.fjob = fjob ∧ u.group = n)))) :=
  ⟨⟨({ withJob (withGroup (pair 3)) with works := [wk 0x51 [3] []] }), (7), (0), (wk 0x51 [3] []), (by decide +kernel)⟩,
   ⟨(busy (wk 0x51 [3] [])), (7), (0), (wk 0x51 [3] []), (by decide +kernel), (by decide +kernel)⟩,
   ⟨({ withJob (withGroup (pair 3)) with works := [wk 0x51 [3] []] }), (7), (0), (wk 0x51 [3] []), (pair 3), (by decide +kernel), (by decide +kernel), (by decide +kernel), (by decide +kernel), (by decide +kernel), (by decide +kernel), (by decide +kernel), (fun k u hk hu => absurd (((by decide +kernel : ∀ k : Fin 64, ({ withJob (withGroup (pair 3)) with works := [wk 0x51 [3] []] } : State).run k.val = none) ⟨k, hk⟩).symm.trans hu) (by simp))⟩⟩

theorem witness_ResultsGoToTheHost :
    (∃ (s : State) (pid : Nat) (w : Work), (w.pkt.resHost = true) ∧ (w.tags = []) ∧ (w.outs = []) ∧ (s.handed pid [0x00] = some w))
    ∧ (∃ (s : State) (pid : Nat) (w : Work), (w.pkt.resHost = true) ∧ (w.tags = []) ∧ (w.outs = []) ∧ (s.handed pid [0x01] = some w))
    ∧ (∃ (s : State) (pid : Nat) (w : Work), (w.pkt.resHost = true) ∧ (w.tags = []) ∧ (w.outs = []) ∧ (s.handed pid [0x02] = some w))
    ∧ (∃ (s : State) (pid : Nat) (w : Work), (w.pkt.resHost = true) ∧ (w.tags = []) ∧ (w.outs = []) ∧ (s.handed pid [0x91] = some w))
    ∧ (∃ (s : State) (pid : Nat) (w : Work) (j : _), (w.pkt.resHost = true) ∧ (w.tags = []) ∧ (w.outs = []) ∧ (s.handed pid [0x75] = some w) ∧ (w.slot = some j))
    ∧ (∃ (s : State) (pid : Nat) (w : Work), (w.pkt.resHost = true) ∧ (w.tags = []) ∧ (w.outs = []) ∧ (s.handed pid [0xA0] = some w) ∧ (s.sec.error = false))
    ∧ (∃ (s : State) (pid : Nat) (w : Work) (j : _), (w.pkt.resHost = true) ∧ (w.tags = []) ∧ (w.outs = []) ∧ (s.handed pid [0x73] = some w) ∧ (w.pkt.plAction = 3) ∧ (w.slot = some j)) :=
  ⟨⟨(busy (wk 0x800 [4096] [])), (7), (wk 0x800 [4096] []), (by decide +kernel)⟩,
   ⟨(busy (wk 0x801 [4096] [])), (7), (wk 0x801 [4096] []), (by decide +kernel)⟩,
   ⟨(busy (wk 0x802 [4096] [])), (7), (wk 0x802 [4096] []), (by decide +kernel)⟩,
   ⟨(busy (wk 0x891 [0, 4096] [])), (7), (wk 0x891 [0, 4096] []), (by decide +kernel)⟩,
   ⟨(busy (wk 0x875 [1, 4096] [])), (7), (wk 0x875 [1, 4096] []), (0), (by decide +kernel)⟩,
   ⟨(busy (wk 0x8A0 [4096] [])), (7), (wk 0x8A0 [4096] []), (by decide +kernel)⟩,
   ⟨(busy (wk 0x873 [0x213, 0, 0, 4096] [])), (7), (wk 0x873 [0x213, 0, 0, 4096] []), (0), (by decide +kernel)⟩⟩

theorem witness_ResultsGoToMemory :
    (∃ (s : State) (pid : Nat) (w : Work), (w.pkt.resHost = false) ∧ (s.handed pid [0x00] = some w))
    ∧ (∃ (s : State) (pid : Nat) (w : Work), (w.pkt.resHost = false) ∧ (s.handed pid [0x01] = some w))
    ∧ (∃ (s : State) (pid : Nat) (w : Work), (w.pkt.resHost = false) ∧ (s.handed pid [0x02] = some w))
    ∧ (∃ (s : State) (pid : Nat) (w : Work), (w.pkt.resHost = false) ∧ (s.handed pid [0x91] = some w))
    ∧ (∃ (s : State) (pid : Nat) (w : Work) (j : _), (w.pkt.resHost = false) ∧ (s.handed pid [0x75] = some w) ∧ (w.slot = some j))
    ∧ (∃ (s : State) (pid : Nat) (w : Work), (w.pkt.resHost = false) ∧ (s.handed pid [0xA0] = some w) ∧ (s.sec.error = false))
    ∧ (∃ (s : State) (dt : Nat) (pid : Nat) (w : Work) (j : _) (u : _), 
      let s1 := s.pass dt
      (w.pkt.resHost = false) ∧ (s.handed pid [0x73] = some w) ∧ (w.pkt.plAction = 3) ∧ (w.slot = some j) ∧ (w.pkt.plKind = 0x20) ∧ (s1.tensorKept j (w.pkt.par 1) = some u) ∧ (u.spill = none))
    ∧ (∃ (s : State) (pid : Nat) (w : Work) (j : _), (w.pkt.resHost = false) ∧ (s.handed pid [0x73] = some w) ∧ (w.pkt.plAction = 3) ∧ (w.slot = some j) ∧ (w.pkt.plKind = 0x21))
    ∧ (∃ (s : State) (pid : Nat) (w : Work) (j : _), (w.pkt.resHost = false) ∧ (s.handed pid [0x73] = some w) ∧ (w.pkt.plAction = 3) ∧ (w.slot = some j) ∧ (w.pkt.plKind = 0x22))
    ∧ (∃ (s : State) (pid : Nat) (w : Work) (j : _), (w.pkt.resHost = false) ∧ (s.handed pid [0x73] = some w) ∧ (w.pkt.plAction = 3) ∧ (w.slot = some j) ∧ (w.pkt.plKind = 0x23)) :=
  ⟨⟨(busy (wk 0x00 [4096] [])), (7), (wk 0x00 [4096] []), (by decide +kernel)⟩,
   ⟨(busy (wk 0x01 [4096] [])), (7), (wk 0x01 [4096] []), (by decide +kernel)⟩,
   ⟨(busy (wk 0x02 [4096] [])), (7), (wk 0x02 [4096] []), (by decide +kernel)⟩,
   ⟨(busy (wk 0x91 [0, 4096] [])), (7), (wk 0x91 [0, 4096] []), (by decide +kernel)⟩,
   ⟨(busy (wk 0x75 [1, 4096] [])), (7), (wk 0x75 [1, 4096] []), (0), (by decide +kernel)⟩,
   ⟨(busy (wk 0xA0 [4096] [])), (7), (wk 0xA0 [4096] []), (by decide +kernel)⟩,
   ⟨({ busy (wk 0x73 [515, 1, 4294967296, 4096] []) with tensors := [{ num := 1, slot := 0, tile := 0, page := 0, bytes := 65536, fmt := 1, cplx := false, life := 0, rows := 0, cols := 0, epoch := 0 }] }), (5), (7), (wk 0x73 [515, 1, 4294967296, 4096] []), ((0 : Nat)), (({ num := 1, slot := 0, tile := 0, page := 0, bytes := 65536, fmt := 1, cplx := false, life := 0, rows := 0, cols := 0, epoch := 0 } : Tensor)), (by decide +kernel), (by decide +kernel)⟩,
   ⟨(busy (wk 0x73 [531, 1, 4294967296, 4096] [])), (7), (wk 0x73 [531, 1, 4294967296, 4096] []), ((0 : Nat)), (by decide +kernel)⟩,
   ⟨(busy (wk 0x73 [547, 1, 4294967296, 4096] [])), (7), (wk 0x73 [547, 1, 4294967296, 4096] []), ((0 : Nat)), (by decide +kernel)⟩,
   ⟨(busy (wk 0x73 [563, 1, 4294967296, 4096] [])), (7), (wk 0x73 [563, 1, 4294967296, 4096] []), ((0 : Nat)), (by decide +kernel)⟩⟩

theorem witness_CapabilityPage :
    (∃ (s : State) (pid : Nat) (w : Work), (s.handed pid [0x02] = some w) ∧ (w.pkt.resHost = true) ∧ (w.tags = []) ∧ (w.outs = [])) :=
  ⟨(busy (wk 0x802 [4096, 1] [])), (7), (wk 0x802 [4096, 1] []), (by decide +kernel)⟩

theorem witness_WindowsAreEnabledAndDisabled :
    (∃ (s : State) (w : Nat) (v : Word), 
      let x := vget s.windows w
      (w < 64) ∧ (s.boot.powered = true) ∧ (s.boot.inReset = false) ∧ (s.registersRun = true) ∧ (s.boot.sloe = false) ∧ (s.regAllowed { master := mHost } (0x11000 + w * 0x40) .write = true) ∧ (s.Inv) ∧ (x.enable = false) ∧ (bitOf v 1 = false))
    ∧ (∃ (s : State) (w : Nat) (v : Word), 
      let x := vget s.windows w
      (w < 64) ∧ (s.boot.powered = true) ∧ (s.boot.inReset = false) ∧ (s.registersRun = true) ∧ (s.boot.sloe = false) ∧ (s.regAllowed { master := mHost } (0x11000 + w * 0x40) .write = true) ∧ (s.Inv) ∧ (x.enable = false) ∧ (bitOf v 1 = true) ∧ (1 ≤ fld v 16 10) ∧ (fld v 16 10 ≤ 1000))
    ∧ (∃ (s : State) (w : Nat) (v : Word), 
      let x := vget s.windows w
      (w < 64) ∧ (s.boot.powered = true) ∧ (s.boot.inReset = false) ∧ (s.registersRun = true) ∧ (s.boot.sloe = false) ∧ (s.regAllowed { master := mHost } (0x11000 + w * 0x40) .write = true) ∧ (s.Inv) ∧ (x.enable = false) ∧ (bitOf v 1 = true) ∧ (fld v 16 10 = 0 ∨ 1000 < fld v 16 10))
    ∧ (∃ (s : State) (w : Nat), 
      let x := vget s.windows w
      (w < 64) ∧ (s.boot.powered = true) ∧ (s.boot.inReset = false) ∧ (s.registersRun = true) ∧ (s.boot.sloe = false) ∧ (s.regAllowed { master := mHost } (0x11000 + w * 0x40) .write = true) ∧ (s.Inv) ∧ (x.enable = true))
    ∧ (∃ (s : State) (w : Nat), 
      let x := vget s.windows w
      (w < 64) ∧ (s.boot.powered = true) ∧ (s.boot.inReset = false) ∧ (s.registersRun = true) ∧ (s.boot.sloe = false) ∧ (s.regAllowed { master := mHost } (0x11000 + w * 0x40) .write = true) ∧ (s.Inv) ∧ (x.enable = true)) :=
  ⟨⟨(up), (3), (0), (by decide +kernel), (by decide +kernel), (by decide +kernel), (by decide +kernel), (by decide +kernel), (by decide +kernel), (by unfold State.Inv; decide +kernel), (by decide +kernel)⟩,
   ⟨(up), (3), (0x3E80002), (by decide +kernel), (by decide +kernel), (by decide +kernel), (by decide +kernel), (by decide +kernel), (by decide +kernel), (by unfold State.Inv; decide +kernel), (by decide +kernel)⟩,
   ⟨(up), (3), (2), (by decide +kernel), (by decide +kernel), (by decide +kernel), (by decide +kernel), (by decide +kernel), (by decide +kernel), (by unfold State.Inv; decide +kernel), (by decide +kernel)⟩,
   ⟨({ up with windows := vset up.windows 3 { enable := true, ringInHost := true, pollUs := 10 } }), (3), (by decide +kernel), (by decide +kernel), (by decide +kernel), (by decide +kernel), (by decide +kernel), (by decide +kernel), (by unfold State.Inv; decide +kernel), (by decide +kernel)⟩,
   ⟨({ up with windows := vset up.windows 3 { enable := true, ringInHost := true, pollUs := 10 } }), (3), (by decide +kernel), (by decide +kernel), (by decide +kernel), (by decide +kernel), (by decide +kernel), (by decide +kernel), (by unfold State.Inv; decide +kernel), (by decide +kernel)⟩⟩

theorem witness_ReplyAck :
    (∃ (s : State) (w : Nat) (i : Nat), (w < 64) ∧ (i < 4096) ∧ (s.boot.powered = true) ∧ (s.boot.inReset = false) ∧ (s.registersRun = true) ∧ (s.regAllowed { master := mHost } (0x11000 + w * 0x40 + 0x28) .write = true) ∧ (s.stores = [])) :=
  ⟨(up), (63), (4095), (by decide +kernel)⟩

theorem witness_RegisterWrites :
    (∃ (s : State) (k : _), (s.boot.powered = true) ∧ (s.boot.inReset = false) ∧ (s.registersRun = true) ∧ (s.stores = []) ∧ (k < 16) ∧ (s.regAllowed { master := mHost } (0x20100 + 8 * k) .write = true))
    ∧ (∃ (s : State), (s.boot.powered = true) ∧ (s.boot.inReset = false) ∧ (s.registersRun = true) ∧ (s.stores = []) ∧ (s.regAllowed { master := mHost } 0x30018 .write = true))
    ∧ (∃ (s : State), (s.boot.powered = true) ∧ (s.boot.inReset = false) ∧ (s.registersRun = true) ∧ (s.stores = []) ∧ (s.regAllowed { master := mHost } 0x50800 .write = true))
    ∧ (∃ (s : State) (m : _) (off : _), (s.boot.powered = true) ∧ (s.boot.inReset = false) ∧ (s.registersRun = true) ∧ (s.stores = []) ∧ (off < 0x1000000) ∧ (off % 8 = 0) ∧ (s.regAllowed { master := m } off .write = false))
    ∧ (∃ (s : State) (m : _) (off : _), (s.boot.powered = true) ∧ (s.boot.inReset = false) ∧ (s.registersRun = true) ∧ (s.stores = []) ∧ (0x300000 ≤ off) ∧ (off < 0x1000000) ∧ (off % 8 = 0) ∧ (s.regAllowed { master := m } off .write = true))
    ∧ (∃ (s : State) (m : _) (i : _) (k : _), (s.boot.powered = true) ∧ (s.boot.inReset = false) ∧ (s.registersRun = true) ∧ (s.stores = []) ∧ (i < 64) ∧ (k < 2) ∧ (s.regAllowed { master := m } (0x9A000 + i * 0x10 + k * 8) .write = true)) :=
  ⟨⟨(up), (15), (by decide +kernel)⟩,
   ⟨(up), (by decide +kernel)⟩,
   ⟨(up), (by decide +kernel)⟩,
   ⟨(up), (0x1000), (0x60000), (by decide +kernel)⟩,
   ⟨(up), (mHost), (0xFFFFF8), (by decide +kernel)⟩,
   ⟨(up), (mHost), (63), (1), (by decide +kernel)⟩⟩

theorem witness_FtNowReadLatches :
    (∃ (s : State), (s.boot.powered = true) ∧ (s.boot.inReset = false) ∧ (s.boot.bringupDone = true) ∧ (s.boot.sloe = false) ∧ (s.stores = []))
    ∧ (∃ (s : State) (a : _), (s.boot.powered = true) ∧ (s.boot.inReset = false) ∧ (s.boot.bringupDone = true) ∧ (s.boot.sloe = false) ∧ (s.stores = []) ∧ (s.addrKind a = .reg s.fabric.mod 0x30004) ∧ (s.registersRun = true) ∧ (s.regAllowed { master := mHost } 0x30000 .read = true)) :=
  ⟨⟨(up), (by decide +kernel)⟩,
   ⟨(up), ((0x2000000000030004 : Word)), (by decide +kernel)⟩⟩

theorem witness_HostAccesses :
    (∃ (s : State) (off : Nat), 
      let o := off / 64 * 64
      (off < 2 ^ 40) ∧ (s.boot.powered = true) ∧ (s.boot.inReset = false) ∧ (s.cxl.linkUp = true) ∧ (s.registersRun = true) ∧ (s.Inv) ∧ (hdmPlace o = none))
    ∧ (∃ (s : State) (off : Nat), 
      let o := off / 64 * 64
      (off < 2 ^ 40) ∧ (s.boot.powered = true) ∧ (s.boot.inReset = false) ∧ (s.cxl.linkUp = true) ∧ (s.registersRun = true) ∧ (s.Inv) ∧ (hdmPlace o = none))
    ∧ (∃ (s : State) (dt : Nat) (off : Nat) (tile : _) (p : _) (ring : _), 
      let o := off / 64 * 64
      let v := s.pass dt
      let x : OpCtx := { master := mHost }
      (off < 2 ^ 40) ∧ (s.boot.powered = true) ∧ (s.boot.inReset = false) ∧ (s.cxl.linkUp = true) ∧ (s.registersRun = true) ∧ (s.Inv) ∧ (hdmPlace o = some (tile, p, ring)) ∧ (v.opCheck x .read tile p = .denied))
    ∧ (∃ (s : State) (dt : Nat) (off : Nat) (tile : _) (p : _) (ring : _), 
      let o := off / 64 * 64
      let v := s.pass dt
      let x : OpCtx := { master := mHost }
      (off < 2 ^ 40) ∧ (s.boot.powered = true) ∧ (s.boot.inReset = false) ∧ (s.cxl.linkUp = true) ∧ (s.registersRun = true) ∧ (s.Inv) ∧ (hdmPlace o = some (tile, p, ring)) ∧ (v.opCheck x .read tile p = .unbacked))
    ∧ (∃ (s : State) (dt : Nat) (off : Nat) (tile : _) (p : _) (ring : _), 
      let o := off / 64 * 64
      let v := s.pass dt
      let x : OpCtx := { master := mHost }
      (off < 2 ^ 40) ∧ (s.boot.powered = true) ∧ (s.boot.inReset = false) ∧ (s.cxl.linkUp = true) ∧ (s.registersRun = true) ∧ (s.Inv) ∧ (hdmPlace o = some (tile, p, ring)) ∧ (v.opCheck x .read tile p = .ok))
    ∧ (∃ (s : State) (dt : Nat) (off : Nat) (tile : _) (p : _) (ring : _), 
      let o := off / 64 * 64
      let v := s.pass dt
      let x : OpCtx := { master := mHost }
      (off < 2 ^ 40) ∧ (s.boot.powered = true) ∧ (s.boot.inReset = false) ∧ (s.cxl.linkUp = true) ∧ (s.registersRun = true) ∧ (s.Inv) ∧ (hdmPlace o = some (tile, p, ring)) ∧ (v.opCheck x .write tile p = .denied))
    ∧ (∃ (s : State) (dt : Nat) (off : Nat) (tile : _) (p : _) (ring : _), 
      let o := off / 64 * 64
      let v := s.pass dt
      let x : OpCtx := { master := mHost }
      (off < 2 ^ 40) ∧ (s.boot.powered = true) ∧ (s.boot.inReset = false) ∧ (s.cxl.linkUp = true) ∧ (s.registersRun = true) ∧ (s.Inv) ∧ (hdmPlace o = some (tile, p, ring)) ∧ (v.opCheck x .write tile p = .unbacked))
    ∧ (∃ (s : State) (dt : Nat) (off : Nat) (tile : _) (p : _) (ring : _), 
      let o := off / 64 * 64
      let v := s.pass dt
      let x : OpCtx := { master := mHost }
      (off < 2 ^ 40) ∧ (s.boot.powered = true) ∧ (s.boot.inReset = false) ∧ (s.cxl.linkUp = true) ∧ (s.registersRun = true) ∧ (s.Inv) ∧ (hdmPlace o = some (tile, p, ring)) ∧ (v.opCheck x .write tile p = .ok) ∧ (ring = none)) :=
  ⟨⟨(up), (0x600000000), (by decide +kernel), (by decide +kernel), (by decide +kernel), (by decide +kernel), (by decide +kernel), (by unfold State.Inv; decide +kernel), (by decide +kernel)⟩,
   ⟨(up), (0x600000000), (by decide +kernel), (by decide +kernel), (by decide +kernel), (by decide +kernel), (by decide +kernel), (by unfold State.Inv; decide +kernel), (by decide +kernel)⟩,
   ⟨({ up with sec := { up.sec with tables := [(0, {  })] } }), (5), (0x40), ((0 : Nat)), ((0x40 : Nat)), ((none : Option (Nat × Nat))), (by decide +kernel), (by decide +kernel), (by decide +kernel), (by decide +kernel), (by decide +kernel), (by unfold State.Inv; decide +kernel), (by decide +kernel)⟩,
   ⟨({ up with pageMap := [(0, { tile := 0, channel := 0, page := 0, backed := false })] }), (5), (0x40), ((0 : Nat)), ((0x40 : Nat)), ((none : Option (Nat × Nat))), (by decide +kernel), (by decide +kernel), (by decide +kernel), (by decide +kernel), (by decide +kernel), (by unfold State.Inv; decide +kernel), (by decide +kernel)⟩,
   ⟨(up), (5), (0x40), ((0 : Nat)), ((0x40 : Nat)), ((none : Option (Nat × Nat))), (by decide +kernel), (by decide +kernel), (by decide +kernel), (by decide +kernel), (by decide +kernel), (by unfold State.Inv; decide +kernel), (by decide +kernel)⟩,
   ⟨({ up with sec := { up.sec with tables := [(0, {  })] } }), (5), (0x40), ((0 : Nat)), ((0x40 : Nat)), ((none : Option (Nat × Nat))), (by decide +kernel), (by decide +kernel), (by decide +kernel), (by decide +kernel), (by decide +kernel), (by unfold State.Inv; decide +kernel), (by decide +kernel)⟩,
   ⟨({ up with pageMap := [(0, { tile := 0, channel := 0, page := 0, backed := false })] }), (5), (0x40), ((0 : Nat)), ((0x40 : Nat)), ((none : Option (Nat × Nat))), (by decide +kernel), (by decide +kernel), (by decide +kernel), (by decide +kernel), (by decide +kernel), (by unfold State.Inv; decide +kernel), (by decide +kernel)⟩,
   ⟨(up), (5), (0x40), ((0 : Nat)), ((0x40 : Nat)), ((none : Option (Nat × Nat))), (by decide +kernel), (by decide +kernel), (by decide +kernel), (by decide +kernel), (by decide +kernel), (by unfold State.Inv; decide +kernel), (by decide +kernel)⟩⟩

theorem witness_HeaderWriteStoresItsSlot :
    (∃ (s : State) (dt : Nat) (w : Nat) (slot : Nat) (ws : List Word), 
      let v := s.pass dt
      (w < 64) ∧ (slot < 4096) ∧ (ws.length = 8) ∧ (s.boot.powered = true) ∧ (s.boot.inReset = false) ∧ (s.cxl.linkUp = true) ∧ (s.registersRun = true) ∧ (s.Inv) ∧ (s.moves = []) ∧ (v.opCheck { master := mHost } .write (w % 32) (ringOff w + 64 * slot) = .ok)) :=
  ⟨(up), (5), (63), (4095), ([1, 2, 3, 4, 5, 6, 7, 8]), (by decide +kernel), (by decide +kernel), (by decide +kernel), (by decide +kernel), (by decide +kernel), (by decide +kernel), (by decide +kernel), (by unfold State.Inv; decide +kernel), (by decide +kernel)⟩

theorem witness_HostRingsAreRead :
    (∃ (s : State) (dt : Nat) (w : Nat) (hs : List (Nat × Byte)), 
      let u := (s.hostStores hs).pass dt
      let x := vget s.windows w
      let h := bytesWords 8 (cellGetAll u.hostMem (x.ringAddr + 64 * x.head) 64)
      (w < 64) ∧ (s.stores = []) ∧ (x.enable = true) ∧ (u.serves w = true) ∧ (x.ringInHost = true) ∧ (s.cxlOpen = true) ∧ (x.found = none) ∧ (u.onGrid (1000 * x.pollUs) = true) ∧ (bitOf (lget h 0 0) 8 = x.headPhase))
    ∧ (∃ (s : State) (dt : Nat) (w : Nat) (hs : List (Nat × Byte)), 
      let u := (s.hostStores hs).pass dt
      let x := vget s.windows w
      let h := bytesWords 8 (cellGetAll u.hostMem (x.ringAddr + 64 * x.head) 64)
      (w < 64) ∧ (s.stores = []) ∧ (x.enable = true) ∧ (u.serves w = true) ∧ (x.ringInHost = true) ∧ (s.cxlOpen = true) ∧ (x.found.isSome = true ∨ u.onGrid (1000 * x.pollUs) = false ∨ bitOf (lget h 0 0) 8 ≠ x.headPhase))
    ∧ (∃ (s : State) (dt : Nat) (w : Nat) (hs : List (Nat × Byte)) (p : _), 
      let u := (s.hostStores hs).pass dt
      let x := vget s.windows w
      (w < 64) ∧ (s.stores = []) ∧ (x.enable = true) ∧ (u.serves w = true) ∧ (x.ringInHost = true) ∧ (s.cxlOpen = true) ∧ (x.found = some p) ∧ (p.slots = 0) ∧ (x.head < 4096) ∧ (s.boot.handover = none))
    ∧ (∃ (s : State) (dt : Nat) (w : Nat) (hs : List (Nat × Byte)), 
      let u := (s.hostStores hs).pass dt
      let x := vget s.windows w
      (w < 64) ∧ (s.stores = []) ∧ (x.enable = true) ∧ (u.serves w = true) ∧ (x.ringInHost = true) ∧ (s.cxlOpen = true) ∧ (s.boot.handover.isSome = true ∨ x.found = none)) :=
  ⟨⟨({ up with windows := vset up.windows 3 { enable := true, ringInHost := true, pollUs := 10, headPhase := false, found := none } }), (5), (3), ([]), (by decide +kernel), (by decide +kernel)⟩,
   ⟨({ up with windows := vset up.windows 3 { enable := true, ringInHost := true, pollUs := 10, headPhase := true, found := none } }), (5), (3), ([]), (by decide +kernel), (by decide +kernel)⟩,
   ⟨({ up with windows := vset up.windows 3 { enable := true, ringInHost := true, pollUs := 10, headPhase := true, found := some { window := 3, hdr := [0x101] } } }), (5), (3), ([]), (({ window := 3, hdr := [0x101] } : Packet)), (by decide +kernel), (by decide +kernel)⟩,
   ⟨({ up with windows := vset up.windows 3 { enable := true, ringInHost := true, pollUs := 10, headPhase := true, found := none } }), (5), (3), ([]), (by decide +kernel), (by decide +kernel), (by decide +kernel), (by decide +kernel), (by decide +kernel), (by decide +kernel), (Or.inr (by decide +kernel))⟩⟩

theorem witness_OperationsOnOneWord :
    (∃ (s : State) (m : Nat) (fjob : Nat) (slot : Nat) (seq : Nat) (t : Nat) (o : Nat) (a : Word) (p : Place), 
      let x : OpCtx := { master := m, fjob := fjob, slot := slot, seq := seq }
      let c := s.readCw (placeKey p)
      (s.Inv) ∧ (s.registersRun = true) ∧ (ownMaster m = true) ∧ (s.addrKind a = .here t o) ∧ (o % 8 = 0) ∧ (a.toNat % 8 = 0) ∧ (s.moving t (o / 65536) = false) ∧ (s.resolve t o = some p) ∧ ((∀ h i, p = .shared h i → isMapWord i = false)) ∧ (s.opCheck x .read t o = .ok) ∧ (eccCheck c = .clean))
    ∧ (∃ (s : State) (m : Nat) (fjob : Nat) (slot : Nat) (seq : Nat) (t : Nat) (o : Nat) (a : Word) (p : Place), 
      let x : OpCtx := { master := m, fjob := fjob, slot := slot, seq := seq }
      (s.Inv) ∧ (s.registersRun = true) ∧ (ownMaster m = true) ∧ (s.addrKind a = .here t o) ∧ (o % 8 = 0) ∧ (a.toNat % 8 = 0) ∧ (s.moving t (o / 65536) = false) ∧ (s.resolve t o = some p) ∧ ((∀ h i, p = .shared h i → isMapWord i = false)) ∧ (s.opCheck x .write t o = .ok))
    ∧ (∃ (s : State) (m : Nat) (fjob : Nat) (slot : Nat) (seq : Nat) (t : Nat) (o : Nat) (a : Word) (p : Place), 
      let x : OpCtx := { master := m, fjob := fjob, slot := slot, seq := seq }
      let c := s.readCw (placeKey p)
      (s.Inv) ∧ (s.registersRun = true) ∧ (ownMaster m = true) ∧ (s.addrKind a = .here t o) ∧ (o % 8 = 0) ∧ (a.toNat % 8 = 0) ∧ (s.moving t (o / 65536) = false) ∧ (s.resolve t o = some p) ∧ ((∀ h i, p = .shared h i → isMapWord i = false)) ∧ (s.opCheck x .atomic t o = .ok) ∧ (eccCheck c = .clean))
    ∧ (∃ (s : State) (m : Nat) (fjob : Nat) (slot : Nat) (seq : Nat) (t : Nat) (o : Nat) (a : Word) (p : Place), 
      let x : OpCtx := { master := m, fjob := fjob, slot := slot, seq := seq }
      let c := s.readCw (placeKey p)
      (s.Inv) ∧ (s.registersRun = true) ∧ (ownMaster m = true) ∧ (s.addrKind a = .here t o) ∧ (o % 8 = 0) ∧ (a.toNat % 8 = 0) ∧ (s.moving t (o / 65536) = false) ∧ (s.resolve t o = some p) ∧ ((∀ h i, p = .shared h i → isMapWord i = false)) ∧ (s.opCheck x .accumulate t o = .ok) ∧ (eccCheck c = .clean)) :=
  ⟨⟨(withJob theJob), (0x2000), (5), (0), (1), (0), (64), (64), ((.dram 0 0 0 8)), (by unfold State.Inv; decide +kernel), (by decide +kernel), (by decide +kernel), (by decide +kernel), (by decide +kernel), (by decide +kernel), (by decide +kernel), (by decide +kernel), (by intro _ _ h; cases h), (by decide +kernel)⟩,
   ⟨(withJob theJob), (0x2000), (5), (0), (1), (0), (64), (64), ((.dram 0 0 0 8)), (by unfold State.Inv; decide +kernel), (by decide +kernel), (by decide +kernel), (by decide +kernel), (by decide +kernel), (by decide +kernel), (by decide +kernel), (by decide +kernel), (by intro _ _ h; cases h), (by decide +kernel)⟩,
   ⟨(withJob theJob), (0x2000), (5), (0), (1), (0), (64), (64), ((.dram 0 0 0 8)), (by unfold State.Inv; decide +kernel), (by decide +kernel), (by decide +kernel), (by decide +kernel), (by decide +kernel), (by decide +kernel), (by decide +kernel), (by decide +kernel), (by intro _ _ h; cases h), (by decide +kernel)⟩,
   ⟨(withJob theJob), (0x2000), (5), (0), (1), (0), (64), (64), ((.dram 0 0 0 8)), (by unfold State.Inv; decide +kernel), (by decide +kernel), (by decide +kernel), (by decide +kernel), (by decide +kernel), (by decide +kernel), (by decide +kernel), (by decide +kernel), (by intro _ _ h; cases h), (by decide +kernel)⟩⟩

theorem witness_DeniedOperationsAreLogged :
    (∃ (s : State) (m : Nat) (fjob : Nat) (slot : Nat) (seq : Nat) (t : Nat) (o : Nat) (a : Word), 
      let x : OpCtx := { master := m, fjob := fjob, slot := slot, seq := seq }
      (s.stores = []) ∧ (s.registersRun = true) ∧ (ownMaster m = true) ∧ (s.addrKind a = .here t o) ∧ (o % 8 = 0) ∧ (a.toNat % 8 = 0) ∧ (s.moving t (o / 65536) = false) ∧ (s.opCheck x .read t o ≠ .ok))
    ∧ (∃ (s : State) (m : Nat) (fjob : Nat) (slot : Nat) (seq : Nat) (t : Nat) (o : Nat) (a : Word), 
      let x : OpCtx := { master := m, fjob := fjob, slot := slot, seq := seq }
      (s.stores = []) ∧ (s.registersRun = true) ∧ (ownMaster m = true) ∧ (s.addrKind a = .here t o) ∧ (o % 8 = 0) ∧ (a.toNat % 8 = 0) ∧ (s.moving t (o / 65536) = false) ∧ (s.opCheck x .write t o ≠ .ok))
    ∧ (∃ (s : State) (m : Nat) (fjob : Nat) (slot : Nat) (seq : Nat) (t : Nat) (o : Nat) (a : Word), 
      let x : OpCtx := { master := m, fjob := fjob, slot := slot, seq := seq }
      (s.stores = []) ∧ (s.registersRun = true) ∧ (ownMaster m = true) ∧ (s.addrKind a = .here t o) ∧ (o % 8 = 0) ∧ (a.toNat % 8 = 0) ∧ (s.moving t (o / 65536) = false) ∧ (s.opCheck x .atomic t o ≠ .ok))
    ∧ (∃ (s : State) (m : Nat) (fjob : Nat) (slot : Nat) (seq : Nat) (t : Nat) (o : Nat) (a : Word), 
      let x : OpCtx := { master := m, fjob := fjob, slot := slot, seq := seq }
      (s.stores = []) ∧ (s.registersRun = true) ∧ (ownMaster m = true) ∧ (s.addrKind a = .here t o) ∧ (o % 8 = 0) ∧ (a.toNat % 8 = 0) ∧ (s.moving t (o / 65536) = false) ∧ (s.opCheck x .accumulate t o ≠ .ok)) :=
  ⟨⟨({ withJob theJob with sec := { up.sec with tables := (List.range 6).map fun i => (i, { }) } }), (0x2000), (5), (0), (1), (0), (64), (64), (by decide +kernel), (by decide +kernel)⟩,
   ⟨({ withJob theJob with sec := { up.sec with tables := (List.range 6).map fun i => (i, { }) } }), (0x2000), (5), (0), (1), (0), (64), (64), (by decide +kernel), (by decide +kernel)⟩,
   ⟨({ withJob theJob with sec := { up.sec with tables := (List.range 6).map fun i => (i, { }) } }), (0x2000), (5), (0), (1), (0), (64), (64), (by decide +kernel), (by decide +kernel)⟩,
   ⟨({ withJob theJob with sec := { up.sec with tables := (List.range 6).map fun i => (i, { }) } }), (0x2000), (5), (0), (1), (0), (64), (64), (by decide +kernel), (by decide +kernel)⟩⟩

theorem witness_WritesOfPoisonedWords :
    (∃ (s : State) (m : Nat) (fjob : Nat) (slot : Nat) (seq : Nat) (t : Nat) (o : Nat) (a : Word) (p : Place), 
      let x : OpCtx := { master := m, fjob := fjob, slot := slot, seq := seq }
      let c := s.readCw (placeKey p)
      (s.Inv) ∧ (s.registersRun = true) ∧ (ownMaster m = true) ∧ (s.addrKind a = .here t o) ∧ (o % 8 = 0) ∧ (a.toNat % 8 = 0) ∧ (s.moving t (o / 65536) = false) ∧ (s.resolve t o = some p) ∧ ((∀ h i, p = .shared h i → isMapWord i = false)) ∧ ((eccCheck c = .clean ∧ cwPoison c = true ∨ ∃ bs, eccCheck c = .corrected bs ∧ cwPoison (flipBits c bs) = true)) ∧ (s.opCheck x .write t o = .ok))
    ∧ (∃ (s : State) (m : Nat) (fjob : Nat) (slot : Nat) (seq : Nat) (t : Nat) (o : Nat) (a : Word) (p : Place), 
      let x : OpCtx := { master := m, fjob := fjob, slot := slot, seq := seq }
      let c := s.readCw (placeKey p)
      (s.Inv) ∧ (s.registersRun = true) ∧ (ownMaster m = true) ∧ (s.addrKind a = .here t o) ∧ (o % 8 = 0) ∧ (a.toNat % 8 = 0) ∧ (s.moving t (o / 65536) = false) ∧ (s.resolve t o = some p) ∧ ((∀ h i, p = .shared h i → isMapWord i = false)) ∧ ((eccCheck c = .clean ∧ cwPoison c = true ∨ ∃ bs, eccCheck c = .corrected bs ∧ cwPoison (flipBits c bs) = true)) ∧ (s.opCheck x .write t o = .ok))
    ∧ (∃ (s : State) (m : Nat) (fjob : Nat) (slot : Nat) (seq : Nat) (t : Nat) (o : Nat) (a : Word) (p : Place) (b : _) (n : _), 
      let x : OpCtx := { master := m, fjob := fjob, slot := slot, seq := seq }
      let c := s.readCw (placeKey p)
      (s.Inv) ∧ (s.registersRun = true) ∧ (ownMaster m = true) ∧ (s.addrKind a = .here t o) ∧ (o % 8 = 0) ∧ (a.toNat % 8 = 0) ∧ (s.moving t (o / 65536) = false) ∧ (s.resolve t o = some p) ∧ ((∀ h i, p = .shared h i → isMapWord i = false)) ∧ ((eccCheck c = .clean ∧ cwPoison c = true ∨ ∃ bs, eccCheck c = .corrected bs ∧ cwPoison (flipBits c bs) = true)) ∧ (0 < n) ∧ (n < 8) ∧ (b + n ≤ 8) ∧ (s.addrKind (a + BitVec.ofNat 64 b) = .here t (o + b)) ∧ (s.moving t ((o + b) / 65536) = false) ∧ (s.opCheck x .write t (o + b) = .ok)) :=
  ⟨⟨({ withJob theJob with mem := (natBytes 10 (encodeWord 5 true).toNat).mapIdx (fun i b => (80 + i, b)) |>.filter fun c => c.2 ≠ 0 }), (0x2000), (5), (0), (1), (0), (64), (64), ((.dram 0 0 0 8)), (by unfold State.Inv; decide +kernel), (by decide +kernel), (by decide +kernel), (by decide +kernel), (by decide +kernel), (by decide +kernel), (by decide +kernel), (by decide +kernel), (by intro _ _ h; cases h), (Or.inl (by decide +kernel)), (by decide +kernel)⟩,
   ⟨({ withJob theJob with mem := (natBytes 10 (encodeWord 5 true).toNat).mapIdx (fun i b => (80 + i, b)) |>.filter fun c => c.2 ≠ 0 }), (0x2000), (5), (0), (1), (0), (64), (64), ((.dram 0 0 0 8)), (by unfold State.Inv; decide +kernel), (by decide +kernel), (by decide +kernel), (by decide +kernel), (by decide +kernel), (by decide +kernel), (by decide +kernel), (by decide +kernel), (by intro _ _ h; cases h), (Or.inl (by decide +kernel)), (by decide +kernel)⟩,
   ⟨({ withJob theJob with mem := (natBytes 10 (encodeWord 5 true).toNat).mapIdx (fun i b => (80 + i, b)) |>.filter fun c => c.2 ≠ 0 }), (0x2000), (5), (0), (1), (0), (64), (64), ((.dram 0 0 0 8)), (7), (1), (by unfold State.Inv; decide +kernel), (by decide +kernel), (by decide +kernel), (by decide +kernel), (by decide +kernel), (by decide +kernel), (by decide +kernel), (by decide +kernel), (by intro _ _ h; cases h), (Or.inl (by decide +kernel)), (by decide +kernel)⟩⟩

theorem witness_ScrubbingAWord :
    (∃ (s : State) (p : Place) (a : Word), 
      let c := s.readCw (placeKey p)
      (s.Inv) ∧ (s.registersRun = true) ∧ (s.memErr.scrubEn = true) ∧ (placeOk p = true) ∧ ((∀ t w, p = .shared t w → isMapWord w = false)) ∧ (s.placeAddr p = some a) ∧ (eccCheck c = .clean))
    ∧ (∃ (s : State) (p : Place) (a : Word) (bs : _), 
      let c := s.readCw (placeKey p)
      (s.Inv) ∧ (s.registersRun = true) ∧ (s.memErr.scrubEn = true) ∧ (placeOk p = true) ∧ ((∀ t w, p = .shared t w → isMapWord w = false)) ∧ (s.placeAddr p = some a) ∧ (s.memErr.logCe = false) ∧ (eccCheck c = .corrected bs))
    ∧ (∃ (s : State) (p : Place) (a : Word) (t : _) (w : _), 
      let c := s.readCw (placeKey p)
      (s.Inv) ∧ (s.registersRun = true) ∧ (s.memErr.scrubEn = true) ∧ (placeOk p = true) ∧ ((∀ t w, p = .shared t w → isMapWord w = false)) ∧ (s.placeAddr p = some a) ∧ (p = .shared t w) ∧ (eccCheck c = .uncorrectable)) :=
  ⟨⟨(up), ((.shared 31 8388607)), (up.wordAddr 31 (0x40000000000 + 8 * 8388607)), (by unfold State.Inv; decide +kernel), (by decide +kernel), (by decide +kernel), (by decide +kernel), (by rintro _ _ ⟨⟩; decide +kernel), (by decide +kernel)⟩,
   ⟨({ up with memErr := { up.memErr with logCe := false }, mem := (natBytes 10 (flipBits (encodeWord 5 false) [3]).toNat).mapIdx (fun i b => (10 * placeKey (.shared 31 8388607) + i, b)) |>.filter fun c => c.2 ≠ 0 }), ((.shared 31 8388607)), (up.wordAddr 31 (0x40000000000 + 8 * 8388607)), ([3]), (by unfold State.Inv; decide +kernel), (by decide +kernel), (by decide +kernel), (by decide +kernel), (by rintro _ _ ⟨⟩; decide +kernel), (by decide +kernel)⟩,
   ⟨({ up with memErr := { up.memErr with logCe := false }, mem := (natBytes 10 (flipBits (encodeWord 5 false) [0, 1, 2]).toNat).mapIdx (fun i b => (10 * placeKey (.shared 31 8388607) + i, b)) |>.filter fun c => c.2 ≠ 0 }), ((.shared 31 8388607)), (up.wordAddr 31 (0x40000000000 + 8 * 8388607)), (31), (8388607), (by unfold State.Inv; decide +kernel), (by decide +kernel), (by decide +kernel), (by decide +kernel), (by rintro _ _ ⟨⟩; decide +kernel), (by decide +kernel)⟩⟩

theorem witness_PagesMove :
    (∃ (s : State) (t : Nat) (l : Nat) (u : Nat) (c : Nat) (p : Nat) (why : MoveCause), (t < 32) ∧ (s.stores = []) ∧ ((s.pageEntry t l).backed = true) ∧ (s.moving t l = false) ∧ (s.physFree u c p = true) ∧ (s.moveCause t l u = some why) ∧ (s.pageForbidden t l u = false))
    ∧ (∃ (s : State) (t : Nat) (l : Nat) (u : Nat) (c : Nat) (p : Nat), (t < 32) ∧ (s.stores = []) ∧ ((s.physFree u c p = false ∨ (s.pageEntry t l).backed = false ∨ s.moving t l = true ∨ s.moveCause t l u = none ∨ (s.pageForbidden t l u = true ∧ s.moveCause t l u ≠ some .retire))))
    ∧ (∃ (s : State) (t : Nat) (l : Nat) (m : Move), 
      let e := s.pageEntry t l
      let k := placeKey (.dram e.tile e.channel e.page 0)
      let k' := placeKey (.dram m.toTile m.toChan m.toPage 0)
      (t < 32) ∧ (s.Inv) ∧ (s.moves = [m]) ∧ (m.tile = t) ∧ (m.page = l) ∧ (m.held = []) ∧ ((s.pageMap.map Prod.fst).Pairwise (· < ·)) ∧ (e.backed = true) ∧ ((e.tile, e.channel, e.page) ≠ (m.toTile, m.toChan, m.toPage)) ∧ (k + 8192 ≤ k' ∨ k' + 8192 ≤ k) ∧ ((∀ w, w < 8192 → eccCheck (s.readCw (k + w)) = .clean)))
    ∧ (∃ (s : State) (t : Nat) (l : Nat), (t < 32) ∧ (s.stores = []) ∧ (s.moving t l = false)) :=
  ⟨⟨({ withJob theJob with tensors := [{ num := 1, slot := 0, tile := 0, page := 0, bytes := 65536, fmt := 2, cplx := false, life := 1, rows := 128, cols := 128, epoch := 0 }], rel := { up.rel with units := [{ unit := .page 0 0 0, st := 3, lastFt := 0, total := 0 }] } }), (0), (0), (1), (0), (5), (MoveCause.retire), (by decide +kernel)⟩,
   ⟨({ withJob theJob with tensors := [{  num := 1, slot := 0, page := 0, bytes := 65536, fmt := 2, cplx := false, life := 1, rows := 128, cols := 128, epoch := 0 , tile := 1 }] }), (0), (0), (1), (0), (0), (by decide +kernel)⟩,
   ⟨({ withJob theJob with tensors := [{ num := 1, slot := 0, tile := 0, page := 0, bytes := 65536, fmt := 2, cplx := false, life := 1, rows := 128, cols := 128, epoch := 0 }], moves := [({ tile := 0, page := 0, toTile := 1, toChan := 0, toPage := 5, cause := .rebalance } : Move)] }), (0), (0), (({ tile := 0, page := 0, toTile := 1, toChan := 0, toPage := 5, cause := .rebalance } : Move)), (by decide +kernel), (by unfold State.Inv; decide +kernel), (by decide +kernel), (by decide +kernel), (by decide +kernel), (by decide +kernel), (by decide +kernel), (by decide +kernel), (by decide +kernel), (by decide +kernel), (fun w _ => clean_readCw _ _ rfl rfl)⟩,
   ⟨(up), (0), (0), (by decide +kernel)⟩⟩

theorem witness_RemoteTimeout :
    (∃ (s : State) (dt : Nat) (tag : Nat) (r : RemoteOp), (s.stores = []) ∧ (s.remotes.find? (fun q => q.tag == tag) = some r) ∧ ((s.pass dt).ftNow < r.sent + 2000000))
    ∧ (∃ (s : State) (dt : Nat) (tag : Nat) (r : RemoteOp), (s.stores = []) ∧ (s.remotes.find? (fun q => q.tag == tag) = some r) ∧ (r.sent + 2000000 ≤ (s.pass dt).ftNow) ∧ (r.pid = none) ∧ ((∀ j, j < 4 → (s.job j).shadow.asking = none))) :=
  ⟨⟨({ withJob theJob with remotes := [({ tag := 9, pid := none, msg := default, sent := 10 ^ 12, dst := none, hostDst := none } : RemoteOp)] }), (5), (9), (({ tag := 9, pid := none, msg := default, sent := 10 ^ 12, dst := none, hostDst := none } : RemoteOp)), (by decide +kernel)⟩,
   ⟨({ withJob theJob with remotes := [({ tag := 9, pid := none, msg := default, sent := 9 * 10 ^ 11, dst := none, hostDst := none } : RemoteOp)] }), (5), (9), (({ tag := 9, pid := none, msg := default, sent := 9 * 10 ^ 11, dst := none, hostDst := none } : RemoteOp)), (by decide +kernel)⟩⟩

theorem witness_OperationsArrive :
    (∃ (s : State) (l : Nat) (m : Msg), (l < 18) ∧ (s.stores = []) ∧ (s.registersRun = true) ∧ ((s.link l).st = .up) ∧ (s.forMe l m = true) ∧ (s.formed (s.link l).port = true) ∧ (m.op ∈ [MsgOp.read, .write, .atomic, .accumulate]) ∧ (m.data = []) ∧ (m.ctl = .none) ∧ (isPeerMsg m = false) ∧ ((s.port (s.link l).port).seen.contains m.pseq = false))
    ∧ (∃ (s : State) (l : Nat) (m : Msg), (l < 18) ∧ (s.stores = []) ∧ (s.registersRun = true) ∧ ((s.link l).st = .up) ∧ (s.forMe l m = true) ∧ (s.formed (s.link l).port = true) ∧ (m.op ∈ [MsgOp.read, .write, .atomic, .accumulate]) ∧ (m.data = []) ∧ (m.ctl = .none) ∧ (isPeerMsg m = false) ∧ ((s.port (s.link l).port).seen.contains m.pseq = true)) :=
  ⟨⟨({ withJob theJob with links := vmod up.links 0 (fun l => { l with st := .up, width := 3 }), fabric := { up.fabric with mod := 7, modValid := true } }), (0), (({ (default : Msg) with vc := 2, dest := 7, src := 1, op := .read, len := 7, pseq := 4, ctl := .none } : Msg)), (by decide +kernel)⟩,
   ⟨({ withJob theJob with links := vmod up.links 0 (fun l => { l with st := .up, width := 3 }), fabric := { up.fabric with mod := 7, modValid := true }, ports := vset up.ports 0 { seen := [4] } }), (0), (({ (default : Msg) with vc := 2, dest := 7, src := 1, op := .read, len := 7, pseq := 4, ctl := .none } : Msg)), (by decide +kernel)⟩⟩

theorem witness_FabricManagerIsAuthenticated :
    (∃ (s : State) (d : Delivered) (ds : List Delivered) (scope : _) (tr : _), (s.delivered = d :: ds) ∧ (s.registersRun = true) ∧ (s.stores = []) ∧ (d.msg.ctl = .fmReset scope tr) ∧ (s.sec.fmKey = none))
    ∧ (∃ (s : State) (d : Delivered) (ds : List Delivered) (scope : _) (tr : _) (k : _), (s.delivered = d :: ds) ∧ (s.registersRun = true) ∧ (s.stores = []) ∧ (d.msg.ctl = .fmReset scope tr) ∧ (s.sec.fmKey = some k) ∧ (s.fmAuthentic k d.msg = false))
    ∧ (∃ (s : State) (d : Delivered) (ds : List Delivered) (scope : _) (tr : _) (k : _), (s.delivered = d :: ds) ∧ (s.registersRun = true) ∧ (s.stores = []) ∧ (d.msg.ctl = .fmReset scope tr) ∧ (s.sec.fmKey = some k) ∧ (s.fmAuthentic k d.msg = true) ∧ (scopeOk scope = true))
    ∧ (∃ (s : State) (d : Delivered) (ds : List Delivered) (wr : _) (off : _) (v : _) (tr : _) (k : _), (s.delivered = d :: ds) ∧ (s.registersRun = true) ∧ (s.stores = []) ∧ (d.msg.ctl = .fmOp wr off v tr) ∧ (s.sec.fmKey = some k) ∧ (s.fmAuthentic k d.msg = false))
    ∧ (∃ (s : State) (d : Delivered) (ds : List Delivered) (wr : _) (off : _) (v : _) (tr : _), (s.delivered = d :: ds) ∧ (s.registersRun = true) ∧ (s.stores = []) ∧ (d.msg.ctl = .fmOp wr off v tr) ∧ (s.sec.fmKey = none)) :=
  ⟨⟨({ up with delivered := [from1 (.fmReset 0 none)], sec := { up.sec with fmKey := none } }), (from1 (.fmReset 0 none)), (([] : List Delivered)), ((0 : Word)), ((none : Option FmTrailer)), (by decide +kernel)⟩,
   ⟨({ up with delivered := [from1 (.fmReset 0 none)], sec := { up.sec with fmKey := some [1] } }), (from1 (.fmReset 0 none)), (([] : List Delivered)), ((0 : Word)), ((none : Option FmTrailer)), ([1]), (by decide +kernel)⟩,
   ⟨({ up with delivered := [from1 (.fmReset 0 (some { counter := 1, tag := Config.kmac256 [1] ((msgHeader (from1 (.fmReset 0 none)).msg ++ [(0 : Word)] ++ [wd 1]).flatMap wordBytes) }))], sec := { up.sec with fmKey := some [1] } }), (from1 (.fmReset 0 (some { counter := 1, tag := Config.kmac256 [1] ((msgHeader (from1 (.fmReset 0 none)).msg ++ [(0 : Word)] ++ [wd 1]).flatMap wordBytes) }))), (([] : List Delivered)), ((0 : Word)), ((some { counter := 1, tag := Config.kmac256 [1] ((msgHeader (from1 (.fmReset 0 none)).msg ++ [(0 : Word)] ++ [wd 1]).flatMap wordBytes) })), ([1]), (rfl), (by decide +kernel), (by decide +kernel), (rfl), (by decide +kernel), (by simp only [State.fmAuthentic, fmParts, from1]; exact Bool.and_eq_true_iff.mpr ⟨by decide +kernel, decide_eq_true rfl⟩), (by decide +kernel)⟩,
   ⟨({ up with delivered := [from1 (.fmOp true 8 1 none)], sec := { up.sec with fmKey := some [1] } }), (from1 (.fmOp true 8 1 none)), (([] : List Delivered)), (true), (8), ((1 : Word)), ((none : Option FmTrailer)), ([1]), (by decide +kernel)⟩,
   ⟨({ up with delivered := [from1 (.fmOp true 8 1 none)], sec := { up.sec with fmKey := none } }), (from1 (.fmOp true 8 1 none)), (([] : List Delivered)), (true), (8), ((1 : Word)), ((none : Option FmTrailer)), (by decide +kernel)⟩⟩

theorem witness_TwoBitErrors :
    (∃ (i : Nat) (j : Nat), (i < j) ∧ (j < 80)) :=
  ⟨(0), (78), (by decide +kernel)⟩

theorem witness_TensorCreatePlacesATensor :
    (∃ (s : State) (pid : Nat) (w : Work) (tl : _) (l : _), 
      let j := w.slot.getD 0
      let d := w.pkt.payload.take 8
      let bytes := (lget d 0 0).toNat
      let n := (bytes + 65535) / 65536
      (s.handed pid [0x10] = some w) ∧ (w.slot.getD 0 < 4) ∧ (s.stores = []) ∧ (s.moves = []) ∧ (s.deferred = []) ∧ (s.homeTile j n = some (tl, l)))
    ∧ (∃ (s : State) (pid : Nat) (w : Work) (m : _), 
      let j := w.slot.getD 0
      let d := w.pkt.payload.take 8
      let bytes := (lget d 0 0).toNat
      let n := (bytes + 65535) / 65536
      (s.handed pid [0x10] = some w) ∧ (w.slot.getD 0 < 4) ∧ (s.stores = []) ∧ (s.moves = []) ∧ (s.deferred = []) ∧ (s.homeTile j n = none) ∧ ((s.spillModules j).find? (fun m => !w.asked.contains m) = some m))
    ∧ (∃ (s : State) (pid : Nat) (w : Work), 
      let j := w.slot.getD 0
      let d := w.pkt.payload.take 8
      let bytes := (lget d 0 0).toNat
      let n := (bytes + 65535) / 65536
      (s.handed pid [0x10] = some w) ∧ (w.slot.getD 0 < 4) ∧ (s.stores = []) ∧ (s.moves = []) ∧ (s.deferred ≠ [] ∨ (s.homeTile j n = none ∧ (s.spillModules j).all (fun m => w.asked.contains m) = true))) :=
  ⟨⟨(busy (wk 0x10810 [4096] [65536, 0x8, 0, 0, 0, 0, 0, 0])), (7), (wk 0x10810 [4096] [65536, 0x8, 0, 0, 0, 0, 0, 0]), (0), (0), (by decide +kernel), (by decide +kernel)⟩,
   ⟨({ withJob { theJob with rules := [{ action := 1, kind := 0x08, handle := 0, target := 1 }] } with works := [wk 0x10810 [4096] [0x600010000000, 0x8, 0, 0, 0, 0, 0, 0]] }), (7), (wk 0x10810 [4096] [0x600010000000, 0x8, 0, 0, 0, 0, 0, 0]), ((1 : Nat)), (by decide +kernel), (by decide +kernel)⟩,
   ⟨(busy (wk 0x10810 [4096] [0x600010000000, 0x8, 0, 0, 0, 0, 0, 0])), (7), (wk 0x10810 [4096] [0x600010000000, 0x8, 0, 0, 0, 0, 0, 0]), (by decide +kernel), (by decide +kernel), (by decide +kernel), (by decide +kernel), (Or.inr ⟨by decide +kernel, by decide +kernel⟩)⟩⟩

theorem witness_FreesAndFencesWaitTheirTurn :
    (∃ (s : State) (pid : Nat) (w : Work), (s.stores = []) ∧ (s.handed pid [0x11] = some w) ∧ ((∃ v, v ∈ s.works ∧ v.pid < w.pid ∧ v.pkt.names (w.pkt.par 0) = true)))
    ∧ (∃ (s : State) (pid : Nat) (w : Work), (s.stores = []) ∧ (s.handed pid [0x11] = some w) ∧ ((∀ v, v ∈ s.works → v.pid < w.pid → v.pkt.names (w.pkt.par 0) = false)) ∧ (s.tensorKept (w.slot.getD 0) (w.pkt.par 0) = none))
    ∧ (∃ (s : State) (pid : Nat) (w : Work) (x : _), (s.stores = []) ∧ (s.handed pid [0x11] = some w) ∧ ((∀ v, v ∈ s.works → v.pid < w.pid → v.pkt.names (w.pkt.par 0) = false)) ∧ (s.tensorKept (w.slot.getD 0) (w.pkt.par 0) = some x) ∧ (x.spill = none) ∧ (x.slot < 4))
    ∧ (∃ (s : State) (pid : Nat) (w : Work) (x : _) (a : _), (s.stores = []) ∧ (s.handed pid [0x11] = some w) ∧ ((∀ v, v ∈ s.works → v.pid < w.pid → v.pkt.names (w.pkt.par 0) = false)) ∧ (s.tensorKept (w.slot.getD 0) (w.pkt.par 0) = some x) ∧ (x.spill = some a) ∧ (x.slot < 4))
    ∧ (∃ (s : State) (pid : Nat) (w : Work), (s.stores = []) ∧ (s.handed pid [0x15] = some w) ∧ ((∃ v, v ∈ s.works ∧ v.pid < w.pid ∧ v.pkt.window = w.pkt.window ∧ v.slot = w.slot)))
    ∧ (∃ (s : State) (pid : Nat) (w : Work), (s.stores = []) ∧ (s.handed pid [0x15] = some w) ∧ ((∀ v, v ∈ s.works → v.pid < w.pid → v.pkt.window = w.pkt.window → v.slot ≠ w.slot))) :=
  ⟨⟨({ busy (wk 0x11 [1] []) with works := [{ wk 0x30 [0, 1] [] with pid := 6 }, wk 0x11 [1] []] }), (7), (wk 0x11 [1] []), (by decide +kernel), (by decide +kernel), (⟨{ wk 0x30 [0, 1] [] with pid := 6 }, by decide +kernel⟩)⟩,
   ⟨(busy (wk 0x11 [1] [])), (7), (wk 0x11 [1] []), (by decide +kernel)⟩,
   ⟨({ busy (wk 0x11 [1] []) with tensors := [{ num := 1, slot := 0, tile := 0, page := 0, bytes := 65536, fmt := 2, cplx := false, life := 1, rows := 128, cols := 128, epoch := 0 }] }), (7), (wk 0x11 [1] []), (({ num := 1, slot := 0, tile := 0, page := 0, bytes := 65536, fmt := 2, cplx := false, life := 1, rows := 128, cols := 128, epoch := 0 } : Tensor)), (by decide +kernel)⟩,
   ⟨(holding (wk 0x11 [1] []) true), (7), (wk 0x11 [1] []), (tns 1 (some 0x1001000000000000)), ((0x1001000000000000 : Word)), (by decide +kernel)⟩,
   ⟨({ busy (wk 0x15 [] []) with works := [{ wk 0x30 [0, 1] [] with pid := 6 }, wk 0x15 [] []] }), (7), (wk 0x15 [] []), (by decide +kernel), (by decide +kernel), (⟨{ wk 0x30 [0, 1] [] with pid := 6 }, by decide +kernel⟩)⟩,
   ⟨(busy (wk 0x15 [] [])), (7), (wk 0x15 [] []), (by decide +kernel)⟩⟩

theorem witness_CopyAndFillMoveData :
    (∃ (s : State) (pid : Nat) (w : Work), 
      let src := w.pkt.par 0
      let dst := w.pkt.par 1
      let n := w.pkt.copyLen
      let place (a : Word) : Option Place := match s.addrKind a with | .here t o => s.resolve t o | _ => none
      let may (op : MemOp) (a : Word) (n : Nat) : Prop := (∀ i, i < n → (∃ t o, s.addrKind (a + wd i) = .here t o ∧ s.opCheck w.dma op t o = .ok) ∧ ∃ p, place (a + wd i) = some p ∧ placeOk p = true) ∧ ∀ i j, i < n → j < n → place (a + wd i) = place (a + wd j) → (a.toNat + i) / 8 = (a.toNat + j) / 8
      let clean (a : Word) (n : Nat) : Prop := ∀ i p, i < n → place (a + wd i) = some p → eccCheck (s.storedCw p) = .clean
      (s.Inv) ∧ (s.moves = []) ∧ (w.tags = []) ∧ (w.outs = []) ∧ (w.result = 0) ∧ (s.handed pid [0x12] = some w) ∧ (n ≠ 0) ∧ (src.toNat + n < 2 ^ 64) ∧ (dst.toNat + n < 2 ^ 64) ∧ (w.pkt.copyFromHost = true) ∧ (may .write dst n) ∧ (clean dst n))
    ∧ (∃ (s : State) (pid : Nat) (w : Work), 
      let src := w.pkt.par 0
      let dst := w.pkt.par 1
      let n := w.pkt.copyLen
      let place (a : Word) : Option Place := match s.addrKind a with | .here t o => s.resolve t o | _ => none
      let may (op : MemOp) (a : Word) (n : Nat) : Prop := (∀ i, i < n → (∃ t o, s.addrKind (a + wd i) = .here t o ∧ s.opCheck w.dma op t o = .ok) ∧ ∃ p, place (a + wd i) = some p ∧ placeOk p = true) ∧ ∀ i j, i < n → j < n → place (a + wd i) = place (a + wd j) → (a.toNat + i) / 8 = (a.toNat + j) / 8
      let clean (a : Word) (n : Nat) : Prop := ∀ i p, i < n → place (a + wd i) = some p → eccCheck (s.storedCw p) = .clean
      (s.Inv) ∧ (s.moves = []) ∧ (w.tags = []) ∧ (w.outs = []) ∧ (w.result = 0) ∧ (s.handed pid [0x12] = some w) ∧ (n ≠ 0) ∧ (src.toNat + n < 2 ^ 64) ∧ (dst.toNat + n < 2 ^ 64) ∧ (w.pkt.copyToHost = true) ∧ (may .read src n) ∧ (clean src n))
    ∧ (∃ (s : State) (pid : Nat) (w : Work), 
      let src := w.pkt.par 0
      let dst := w.pkt.par 1
      let n := w.pkt.copyLen
      let place (a : Word) : Option Place := match s.addrKind a with | .here t o => s.resolve t o | _ => none
      let may (op : MemOp) (a : Word) (n : Nat) : Prop := (∀ i, i < n → (∃ t o, s.addrKind (a + wd i) = .here t o ∧ s.opCheck w.dma op t o = .ok) ∧ ∃ p, place (a + wd i) = some p ∧ placeOk p = true) ∧ ∀ i j, i < n → j < n → place (a + wd i) = place (a + wd j) → (a.toNat + i) / 8 = (a.toNat + j) / 8
      let clean (a : Word) (n : Nat) : Prop := ∀ i p, i < n → place (a + wd i) = some p → eccCheck (s.storedCw p) = .clean
      (s.Inv) ∧ (s.moves = []) ∧ (w.tags = []) ∧ (w.outs = []) ∧ (w.result = 0) ∧ (s.handed pid [0x12] = some w) ∧ (n ≠ 0) ∧ (src.toNat + n < 2 ^ 64) ∧ (dst.toNat + n < 2 ^ 64) ∧ (w.pkt.resHost = false) ∧ (may .read src n) ∧ (may .write dst n) ∧ (clean src n) ∧ (clean dst n) ∧ ((∀ i j, i < n → j < n → place (src + wd i) ≠ place (dst + wd j))))
    ∧ (∃ (s : State) (pid : Nat) (w : Work), 
      let src := w.pkt.par 0
      let dst := w.pkt.par 1
      let n := w.pkt.copyLen
      (s.Inv) ∧ (s.moves = []) ∧ (w.tags = []) ∧ (w.outs = []) ∧ (w.result = 0) ∧ (s.handed pid [0x12] = some w) ∧ (n ≠ 0) ∧ (src.toNat + n < 2 ^ 64) ∧ (dst.toNat + n < 2 ^ 64) ∧ (w.pkt.copyFromHost = true) ∧ ((∀ i, i < n → s.isRemote (dst + wd i) = true)))
    ∧ (∃ (s : State) (pid : Nat) (w : Work), 
      let src := w.pkt.par 0
      let dst := w.pkt.par 1
      let n := w.pkt.copyLen
      let place (a : Word) : Option Place := match s.addrKind a with | .here t o => s.resolve t o | _ => none
      let may (op : MemOp) (a : Word) (n : Nat) : Prop := (∀ i, i < n → (∃ t o, s.addrKind (a + wd i) = .here t o ∧ s.opCheck w.dma op t o = .ok) ∧ ∃ p, place (a + wd i) = some p ∧ placeOk p = true) ∧ ∀ i j, i < n → j < n → place (a + wd i) = place (a + wd j) → (a.toNat + i) / 8 = (a.toNat + j) / 8
      let clean (a : Word) (n : Nat) : Prop := ∀ i p, i < n → place (a + wd i) = some p → eccCheck (s.storedCw p) = .clean
      (s.Inv) ∧ (s.moves = []) ∧ (w.tags = []) ∧ (w.outs = []) ∧ (w.result = 0) ∧ (s.handed pid [0x12] = some w) ∧ (n ≠ 0) ∧ (src.toNat + n < 2 ^ 64) ∧ (dst.toNat + n < 2 ^ 64) ∧ (w.pkt.resHost = false) ∧ (may .read src n) ∧ (clean src n) ∧ ((∀ i, i < n → s.isRemote (dst + wd i) = true)) ∧ (s.gated (w.slot.getD 0) (s.addrKeys src n) = true))
    ∧ (∃ (s : State) (pid : Nat) (w : Work), 
      let src := w.pkt.par 0
      let dst := w.pkt.par 1
      let n := w.pkt.copyLen
      let place (a : Word) : Option Place := match s.addrKind a with | .here t o => s.resolve t o | _ => none
      let may (op : MemOp) (a : Word) (n : Nat) : Prop := (∀ i, i < n → (∃ t o, s.addrKind (a + wd i) = .here t o ∧ s.opCheck w.dma op t o = .ok) ∧ ∃ p, place (a + wd i) = some p ∧ placeOk p = true) ∧ ∀ i j, i < n → j < n → place (a + wd i) = place (a + wd j) → (a.toNat + i) / 8 = (a.toNat + j) / 8
      let clean (a : Word) (n : Nat) : Prop := ∀ i p, i < n → place (a + wd i) = some p → eccCheck (s.storedCw p) = .clean
      (s.Inv) ∧ (s.moves = []) ∧ (w.tags = []) ∧ (w.outs = []) ∧ (w.result = 0) ∧ (s.handed pid [0x12] = some w) ∧ (n ≠ 0) ∧ (src.toNat + n < 2 ^ 64) ∧ (dst.toNat + n < 2 ^ 64) ∧ (w.pkt.resHost = false) ∧ (may .read src n) ∧ (clean src n) ∧ ((∀ i, i < n → s.isRemote (dst + wd i) = true)) ∧ (s.gated (w.slot.getD 0) (s.addrKeys src n) = false))
    ∧ (∃ (s : State) (pid : Nat) (w : Work), 
      let src := w.pkt.par 0
      let dst := w.pkt.par 1
      let n := w.pkt.copyLen
      (s.Inv) ∧ (s.moves = []) ∧ (w.tags = []) ∧ (w.outs = []) ∧ (w.result = 0) ∧ (s.handed pid [0x12] = some w) ∧ (n ≠ 0) ∧ (src.toNat + n < 2 ^ 64) ∧ (dst.toNat + n < 2 ^ 64) ∧ (w.pkt.copyFromHost = false) ∧ ((∀ i, i < n → s.isRemote (src + wd i) = true)) ∧ ((w.pkt.resHost = false → s.isRemote dst = false ∨ s.gated (w.slot.getD 0) (s.addrKeys src n) = false)))
    ∧ (∃ (s : State) (pid : Nat) (w : Work), 
      let src := w.pkt.par 0
      let k := fld (w.pkt.par 2) 0 35 / 8
      (s.Inv) ∧ (s.moves = []) ∧ (w.tags = []) ∧ (w.outs = []) ∧ (w.result = 0) ∧ (s.handed pid [0x13] = some w) ∧ (src.toNat % 8 = 0) ∧ (k ≠ 0) ∧ (src.toNat + 8 * k < 2 ^ 64) ∧ (w.pkt.resHost = true))
    ∧ (∃ (s : State) (pid : Nat) (w : Work), 
      let src := w.pkt.par 0
      let place (a : Word) : Option Place := match s.addrKind a with | .here t o => s.resolve t o | _ => none
      let may (op : MemOp) (a : Word) (n : Nat) : Prop := (∀ i, i < n → (∃ t o, s.addrKind (a + wd i) = .here t o ∧ s.opCheck w.dma op t o = .ok) ∧ ∃ p, place (a + wd i) = some p ∧ placeOk p = true) ∧ ∀ i j, i < n → j < n → place (a + wd i) = place (a + wd j) → (a.toNat + i) / 8 = (a.toNat + j) / 8
      let k := fld (w.pkt.par 2) 0 35 / 8
      (s.Inv) ∧ (s.moves = []) ∧ (w.tags = []) ∧ (w.outs = []) ∧ (w.result = 0) ∧ (s.handed pid [0x13] = some w) ∧ (src.toNat % 8 = 0) ∧ (k ≠ 0) ∧ (src.toNat + 8 * k < 2 ^ 64) ∧ (w.pkt.resHost = false) ∧ (may .write src (8 * k)))
    ∧ (∃ (s : State) (pid : Nat) (w : Work), 
      let src := w.pkt.par 0
      let k := fld (w.pkt.par 2) 0 35 / 8
      (s.Inv) ∧ (s.moves = []) ∧ (w.tags = []) ∧ (w.outs = []) ∧ (w.result = 0) ∧ (s.handed pid [0x13] = some w) ∧ (src.toNat % 8 = 0) ∧ (k ≠ 0) ∧ (src.toNat + 8 * k < 2 ^ 64) ∧ (w.pkt.resHost = false) ∧ ((∀ i, i < 8 * k → s.isRemote (src + wd i) = true))) :=
  ⟨⟨(busy (wk 0x812 [4096, 64, 1] [])), (7), (wk 0x812 [4096, 64, 1] []), (by unfold State.Inv; decide +kernel), (by decide +kernel), (by decide +kernel), (by decide +kernel), (by decide +kernel), (by decide +kernel), (by decide +kernel), (by decide +kernel), (by decide +kernel), (by decide +kernel), (⟨fun i hi => by obtain rfl : i = 0 := Nat.lt_one_iff.mp hi; exact ⟨⟨0, 64, by decide +kernel⟩, .dram 0 0 0 8, by decide +kernel⟩, fun i j hi hj _ => by rw [Nat.lt_one_iff.mp hi, Nat.lt_one_iff.mp hj]⟩), (fun i p hi hp => by obtain rfl : i = 0 := Nat.lt_one_iff.mp hi; obtain rfl := Option.some.inj hp; exact clean_storedCw _ _ rfl rfl rfl)⟩,
   ⟨(busy (wk 0x812 [64, 4096, 0x1000000000001] [])), (7), (wk 0x812 [64, 4096, 0x1000000000001] []), (by unfold State.Inv; decide +kernel), (by decide +kernel), (by decide +kernel), (by decide +kernel), (by decide +kernel), (by decide +kernel), (by decide +kernel), (by decide +kernel), (by decide +kernel), (by decide +kernel), (⟨fun i hi => by obtain rfl : i = 0 := Nat.lt_one_iff.mp hi; exact ⟨⟨0, 64, by decide +kernel⟩, .dram 0 0 0 8, by decide +kernel⟩, fun i j hi hj _ => by rw [Nat.lt_one_iff.mp hi, Nat.lt_one_iff.mp hj]⟩), (fun i p hi hp => by obtain rfl : i = 0 := Nat.lt_one_iff.mp hi; obtain rfl := Option.some.inj hp; exact clean_storedCw _ _ rfl rfl rfl)⟩,
   ⟨(busy (wk 0x12 [64, 128, 1] [])), (7), (wk 0x12 [64, 128, 1] []), (by unfold State.Inv; decide +kernel), (by decide +kernel), (by decide +kernel), (by decide +kernel), (by decide +kernel), (by decide +kernel), (by decide +kernel), (by decide +kernel), (by decide +kernel), (by decide +kernel), (⟨fun i hi => by obtain rfl : i = 0 := Nat.lt_one_iff.mp hi; exact ⟨⟨0, 64, by decide +kernel⟩, .dram 0 0 0 8, by decide +kernel⟩, fun i j hi hj _ => by rw [Nat.lt_one_iff.mp hi, Nat.lt_one_iff.mp hj]⟩), (⟨fun i hi => by obtain rfl : i = 0 := Nat.lt_one_iff.mp hi; exact ⟨⟨0, 128, by decide +kernel⟩, .dram 0 0 0 16, by decide +kernel⟩, fun i j hi hj _ => by rw [Nat.lt_one_iff.mp hi, Nat.lt_one_iff.mp hj]⟩), (fun i p hi hp => by obtain rfl : i = 0 := Nat.lt_one_iff.mp hi; obtain rfl := Option.some.inj hp; exact clean_storedCw _ _ rfl rfl rfl), (fun i p hi hp => by obtain rfl : i = 0 := Nat.lt_one_iff.mp hi; obtain rfl := Option.some.inj hp; exact clean_storedCw _ _ rfl rfl rfl), (fun i j hi hj => by obtain rfl : i = 0 := Nat.lt_one_iff.mp hi; obtain rfl : j = 0 := Nat.lt_one_iff.mp hj; decide +kernel)⟩,
   ⟨(busy (wk 0x812 [4096, 1153202979583557696, 1] [])), (7), (wk 0x812 [4096, 1153202979583557696, 1] []), (by unfold State.Inv; decide +kernel), (by decide +kernel)⟩,
   ⟨({ busy (wk 0x12 [64, 1153202979583557696, 1] []) with rel := { up.rel with wrote := [{ slot := 0, work := { wk 0x30 [] [] with pid := 3 }, writes := [(8, 9)] }], samples := [{ id := 2, pid := 3, slot := 0, unit := .row 0, core := 3, vector := true }] } }), (7), (wk 0x12 [64, 1153202979583557696, 1] []), (by unfold State.Inv; decide +kernel), (by decide +kernel), (by decide +kernel), (by decide +kernel), (by decide +kernel), (by decide +kernel), (by decide +kernel), (by decide +kernel), (by decide +kernel), (by decide +kernel), (⟨fun i hi => by obtain rfl : i = 0 := Nat.lt_one_iff.mp hi; exact ⟨⟨0, 64, by decide +kernel⟩, .dram 0 0 0 8, by decide +kernel⟩, fun i j hi hj _ => by rw [Nat.lt_one_iff.mp hi, Nat.lt_one_iff.mp hj]⟩), (fun i p hi hp => by obtain rfl : i = 0 := Nat.lt_one_iff.mp hi; obtain rfl := Option.some.inj hp; exact clean_storedCw _ _ rfl rfl rfl), (by decide +kernel)⟩,
   ⟨(busy (wk 0x12 [64, 1153202979583557696, 1] [])), (7), (wk 0x12 [64, 1153202979583557696, 1] []), (by unfold State.Inv; decide +kernel), (by decide +kernel), (by decide +kernel), (by decide +kernel), (by decide +kernel), (by decide +kernel), (by decide +kernel), (by decide +kernel), (by decide +kernel), (by decide +kernel), (⟨fun i hi => by obtain rfl : i = 0 := Nat.lt_one_iff.mp hi; exact ⟨⟨0, 64, by decide +kernel⟩, .dram 0 0 0 8, by decide +kernel⟩, fun i j hi hj _ => by rw [Nat.lt_one_iff.mp hi, Nat.lt_one_iff.mp hj]⟩), (fun i p hi hp => by obtain rfl : i = 0 := Nat.lt_one_iff.mp hi; obtain rfl := Option.some.inj hp; exact clean_storedCw _ _ rfl rfl rfl), (by decide +kernel)⟩,
   ⟨(busy (wk 0x12 [1153202979583557696, 64, 1] [])), (7), (wk 0x12 [1153202979583557696, 64, 1] []), (by unfold State.Inv; decide +kernel), (by decide +kernel)⟩,
   ⟨(busy (wk 0x813 [4096, 7, 8] [])), (7), (wk 0x813 [4096, 7, 8] []), (by unfold State.Inv; decide +kernel), (by decide +kernel)⟩,
   ⟨(busy (wk 0x13 [64, 7, 8] [])), (7), (wk 0x13 [64, 7, 8] []), (by unfold State.Inv; decide +kernel), (by decide +kernel), (by decide +kernel), (by decide +kernel), (by decide +kernel), (by decide +kernel), (by decide +kernel), (by decide +kernel), (by decide +kernel), (by decide +kernel), (⟨fun i hi => ⟨⟨0, 64 + i, (by decide +kernel : ∀ i : Fin 8, (busy (wk 0x13 [64, 7, 8] [])).addrKind ((wd 64 : Word) + wd i.val) = .here 0 (64 + i.val) ∧ (busy (wk 0x13 [64, 7, 8] [])).opCheck (wk 0x13 [64, 7, 8] []).dma .write 0 (64 + i.val) = .ok) ⟨i, hi⟩⟩, .dram 0 0 0 8, (by decide +kernel : ∀ i : Fin 8, (match (busy (wk 0x13 [64, 7, 8] [])).addrKind ((wd 64 : Word) + wd i.val) with | .here t o => (busy (wk 0x13 [64, 7, 8] [])).resolve t o | _ => none) = some (.dram 0 0 0 8) ∧ placeOk (.dram 0 0 0 8) = true) ⟨i, hi⟩⟩, fun i j hi hj _ => by have hi : i < 8 := hi; have hj : j < 8 := hj; show (64 + i) / 8 = (64 + j) / 8; omega⟩)⟩,
   ⟨(busy (wk 0x13 [1153202979583557696, 7, 8] [])), (7), (wk 0x13 [1153202979583557696, 7, 8] []), (by unfold State.Inv; decide +kernel), (by decide +kernel)⟩⟩

theorem witness_TransposeCopyTransposes :
    (∃ (bs : List (Byte × Bool)) (k : Nat) (rows : Nat) (cols : Nat) (i : Nat) (j : Nat) (b : Nat), (bs.length = rows * cols * k) ∧ (i < rows) ∧ (j < cols) ∧ (b < k))
    ∧ (∃ (s : State) (pid : Nat) (w : Work) (a : Tensor) (b : Tensor), 
      let x := w.by_ (mTranspose a.tile)
      let n := a.rows * a.cols * a.elemBytes
      let sound (t : Tensor) : Prop := (∀ o, o < n → ∃ p, s.resolve t.tile (t.off + o) = some p ∧ placeOk p = true ∧ eccCheck (s.storedCw p) = .clean) ∧ ∀ o o', o < n → o' < n → s.resolve t.tile (t.off + o) = s.resolve t.tile (t.off + o') → (t.off + o) / 8 = (t.off + o') / 8
      (s.handed pid [0x14] = some w) ∧ (s.Inv) ∧ (s.moves = []) ∧ (w.outs = []) ∧ (w.result = 0) ∧ (s.tensorKept (w.slot.getD 0) (w.pkt.par 0) = some a) ∧ (s.tensorKept (w.slot.getD 0) (w.pkt.par 1) = some b) ∧ (w.tags = []) ∧ (a.spill = none) ∧ (b.spill = none) ∧ (s.tensorCheck x .read a n = none) ∧ (s.tensorCheck x .write b n = none) ∧ (sound a) ∧ (sound b) ∧ ((∀ o o', o < n → o' < n → s.resolve a.tile (a.off + o) ≠ s.resolve b.tile (b.off + o'))))
    ∧ (∃ (s : State) (pid : Nat) (w : Work) (a : Tensor) (b : Tensor), 
      let n := a.rows * a.cols * a.elemBytes
      (s.handed pid [0x14] = some w) ∧ (s.Inv) ∧ (s.moves = []) ∧ (w.outs = []) ∧ (w.result = 0) ∧ (s.tensorKept (w.slot.getD 0) (w.pkt.par 0) = some a) ∧ (s.tensorKept (w.slot.getD 0) (w.pkt.par 1) = some b) ∧ (s.allFetched w.pid [(a, n)] = false) ∧ (w.tags ≠ []))
    ∧ (∃ (s : State) (pid : Nat) (w : Work) (a : Tensor) (b : Tensor), 
      let n := a.rows * a.cols * a.elemBytes
      (s.handed pid [0x14] = some w) ∧ (s.Inv) ∧ (s.moves = []) ∧ (w.outs = []) ∧ (w.result = 0) ∧ (s.tensorKept (w.slot.getD 0) (w.pkt.par 0) = some a) ∧ (s.tensorKept (w.slot.getD 0) (w.pkt.par 1) = some b) ∧ (s.allFetched w.pid [(a, n)] = false) ∧ (w.tags = []))
    ∧ (∃ (s : State) (pid : Nat) (w : Work) (a : Tensor) (b : Tensor) (z : _), 
      let x := w.by_ (mTranspose a.tile)
      let n := a.rows * a.cols * a.elemBytes
      let sound (t : Tensor) : Prop := (∀ o, o < n → ∃ p, s.resolve t.tile (t.off + o) = some p ∧ placeOk p = true ∧ eccCheck (s.storedCw p) = .clean) ∧ ∀ o o', o < n → o' < n → s.resolve t.tile (t.off + o) = s.resolve t.tile (t.off + o') → (t.off + o) / 8 = (t.off + o') / 8
      (s.handed pid [0x14] = some w) ∧ (s.Inv) ∧ (s.moves = []) ∧ (w.outs = []) ∧ (w.result = 0) ∧ (s.tensorKept (w.slot.getD 0) (w.pkt.par 0) = some a) ∧ (s.tensorKept (w.slot.getD 0) (w.pkt.par 1) = some b) ∧ (s.allFetched w.pid [(a, n)] = true) ∧ (w.tags = []) ∧ (n ≠ 0) ∧ (a.spill = none) ∧ (sound a) ∧ (s.tensorCheck x .read a n = none) ∧ (b.spill = some z) ∧ ((∀ i, i < n → s.isRemote (z + wd i) = true)) ∧ (z.toNat + n < 2 ^ 64)) :=
  ⟨⟨(List.replicate 12 (0, false)), (2), (2), (3), (1), (2), (1), (by decide +kernel)⟩,
   ⟨(holding (wk 0x14 [1, 2] [])), (7), (wk 0x14 [1, 2] []), (tns 1), (tns 2), (by decide +kernel), (by unfold State.Inv; decide +kernel), (by decide +kernel), (by decide +kernel), (by decide +kernel), (by decide +kernel), (by decide +kernel), (by decide +kernel), (by decide +kernel), (by decide +kernel), (by decide +kernel), (by decide +kernel), (⟨fun o ho => ⟨.dram 0 1 0 0, by obtain rfl | rfl | rfl | rfl := (by have ho : o < 4 := ho; omega : o = 0 ∨ o = 1 ∨ o = 2 ∨ o = 3) <;> decide +kernel, rfl, clean_storedCw _ _ rfl rfl rfl⟩, fun o o' ho ho' _ => by obtain rfl | rfl | rfl | rfl := (by have ho : o < 4 := ho; omega : o = 0 ∨ o = 1 ∨ o = 2 ∨ o = 3) <;> obtain rfl | rfl | rfl | rfl := (by have ho' : o' < 4 := ho'; omega : o' = 0 ∨ o' = 1 ∨ o' = 2 ∨ o' = 3) <;> decide +kernel⟩), (⟨fun o ho => ⟨.dram 0 2 0 0, by obtain rfl | rfl | rfl | rfl := (by have ho : o < 4 := ho; omega : o = 0 ∨ o = 1 ∨ o = 2 ∨ o = 3) <;> decide +kernel, rfl, clean_storedCw _ _ rfl rfl rfl⟩, fun o o' ho ho' _ => by obtain rfl | rfl | rfl | rfl := (by have ho : o < 4 := ho; omega : o = 0 ∨ o = 1 ∨ o = 2 ∨ o = 3) <;> obtain rfl | rfl | rfl | rfl := (by have ho' : o' < 4 := ho'; omega : o' = 0 ∨ o' = 1 ∨ o' = 2 ∨ o' = 3) <;> decide +kernel⟩), (fun o o' ho ho' => by obtain rfl | rfl | rfl | rfl := (by have ho : o < 4 := ho; omega : o = 0 ∨ o = 1 ∨ o = 2 ∨ o = 3) <;> obtain rfl | rfl | rfl | rfl := (by have ho' : o' < 4 := ho'; omega : o' = 0 ∨ o' = 1 ∨ o' = 2 ∨ o' = 3) <;> decide +kernel)⟩,
   ⟨(holding { wk 0x14 [1, 2] [] with tags := [9] } true), (7), (({ wk 0x14 [1, 2] [] with tags := [9] } : Work)), (tns 1 (some 0x1001000000000000)), (tns 2), (by decide +kernel), (by unfold State.Inv; decide +kernel), (by decide +kernel)⟩,
   ⟨(holding (wk 0x14 [1, 2] []) true), (7), (wk 0x14 [1, 2] []), (tns 1 (some 0x1001000000000000)), (tns 2), (by decide +kernel), (by unfold State.Inv; decide +kernel), (by decide +kernel)⟩,
   ⟨(holding (wk 0x14 [2, 1] []) true), (7), (wk 0x14 [2, 1] []), (tns 2), (tns 1 (some 0x1001000000000000)), ((0x1001000000000000 : Word)), (by decide +kernel), (by unfold State.Inv; decide +kernel), (by decide +kernel), (by decide +kernel), (by decide +kernel), (by decide +kernel), (by decide +kernel), (by decide +kernel), (by decide +kernel), (by decide +kernel), (by decide +kernel), (⟨fun o ho => ⟨.dram 0 2 0 0, by obtain rfl | rfl | rfl | rfl := (by have ho : o < 4 := ho; omega : o = 0 ∨ o = 1 ∨ o = 2 ∨ o = 3) <;> decide +kernel, rfl, clean_storedCw _ _ rfl rfl rfl⟩, fun o o' ho ho' _ => by obtain rfl | rfl | rfl | rfl := (by have ho : o < 4 := ho; omega : o = 0 ∨ o = 1 ∨ o = 2 ∨ o = 3) <;> obtain rfl | rfl | rfl | rfl := (by have ho' : o' < 4 := ho'; omega : o' = 0 ∨ o' = 1 ∨ o' = 2 ∨ o' = 3) <;> decide +kernel⟩), (by decide +kernel)⟩⟩

theorem witness_ComputePacketsStartTheirItems :
    (∃ (s : State) (dt : Nat) (pid : Nat) (w : Work) (op : _) (c : _) (items : _), 
      let here : Prop := s.allFetched w.pid (s.footprint w).1 = true
      let prod := w.pkt.prod.items w.mask
      let all : List (Nat × Instr × List Item) := [(0x30, .matmul dt pid, prod), (0x31, .matmulBwdData dt pid, prod), (0x32, .matmulBwdWeight dt pid, prod), (0x33, .fusedNormBwd dt pid, rowItems w.pkt.kern.rows), (0x34, .fusedSoftmaxBwd dt pid, rowItems w.pkt.kern.rows), (0x35, .vectorProgram dt pid, rowItems (fld (w.pkt.pay 0) 0 32)), (0x36, .reduceMaxmin dt pid, [{ num := 0 }])]
      (s.stores = []) ∧ (s.moves = []) ∧ ((op, c, items) ∈ all) ∧ (s.handed pid [op] = some w) ∧ (here) ∧ (items.all (fun i => i.finished) = false))
    ∧ (∃ (s : State) (dt : Nat) (pid : Nat) (w : Work) (op : _) (c : _) (items : _), 
      let prod := w.pkt.prod.items w.mask
      let all : List (Nat × Instr × List Item) := [(0x30, .matmul dt pid, prod), (0x31, .matmulBwdData dt pid, prod), (0x32, .matmulBwdWeight dt pid, prod), (0x33, .fusedNormBwd dt pid, rowItems w.pkt.kern.rows), (0x34, .fusedSoftmaxBwd dt pid, rowItems w.pkt.kern.rows), (0x35, .vectorProgram dt pid, rowItems (fld (w.pkt.pay 0) 0 32)), (0x36, .reduceMaxmin dt pid, [{ num := 0 }])]
      (s.stores = []) ∧ (s.moves = []) ∧ ((op, c, items) ∈ all) ∧ (s.handed pid [op] = some w) ∧ (s.allFetched w.pid (s.footprint w).1 = false) ∧ (w.tags ≠ []))
    ∧ (∃ (s : State) (dt : Nat) (pid : Nat) (w : Work) (op : _) (c : _) (items : _), 
      let prod := w.pkt.prod.items w.mask
      let all : List (Nat × Instr × List Item) := [(0x30, .matmul dt pid, prod), (0x31, .matmulBwdData dt pid, prod), (0x32, .matmulBwdWeight dt pid, prod), (0x33, .fusedNormBwd dt pid, rowItems w.pkt.kern.rows), (0x34, .fusedSoftmaxBwd dt pid, rowItems w.pkt.kern.rows), (0x35, .vectorProgram dt pid, rowItems (fld (w.pkt.pay 0) 0 32)), (0x36, .reduceMaxmin dt pid, [{ num := 0 }])]
      (s.stores = []) ∧ (s.moves = []) ∧ ((op, c, items) ∈ all) ∧ (s.handed pid [op] = some w) ∧ (s.allFetched w.pid (s.footprint w).1 = false) ∧ (w.tags = []) ∧ (w.failed = false))
    ∧ (∃ (s : State) (dt : Nat) (pid : Nat) (w : Work) (op : _) (c : _), 
      let here : Prop := s.allFetched w.pid (s.footprint w).1 = true
      let prod := w.pkt.prod.items w.mask
      let all : List (Nat × Instr × List Item) := [(0x30, .matmul dt pid, prod), (0x31, .matmulBwdData dt pid, prod), (0x32, .matmulBwdWeight dt pid, prod), (0x33, .fusedNormBwd dt pid, rowItems w.pkt.kern.rows), (0x34, .fusedSoftmaxBwd dt pid, rowItems w.pkt.kern.rows), (0x35, .vectorProgram dt pid, rowItems (fld (w.pkt.pay 0) 0 32)), (0x36, .reduceMaxmin dt pid, [{ num := 0 }])]
      (s.stores = []) ∧ (s.moves = []) ∧ ((op, c, prod) ∈ all.take 3) ∧ (s.handed pid [op] = some w) ∧ (here) ∧ (prod ≠ []) ∧ (prod.all (fun i => i.finished) = true) ∧ (s.prodTensors w = none ∨ maskWrites w.mask = false) ∧ (w.tags = []) ∧ (w.outs = []) ∧ (w.result = 0) ∧ (w.sampled = [])) :=
  ⟨⟨(busy (wk 0x35 [] [2])), (5), (7), (wk 0x35 [] [2]), ((0x35 : Nat)), (Instr.vectorProgram 5 7), (rowItems 2), (by decide +kernel), (by decide +kernel)⟩,
   ⟨(holding { wk 0x36 [1, 64] [] with tags := [9] } true), (5), (7), (({ wk 0x36 [1, 64] [] with tags := [9] } : Work)), ((0x36 : Nat)), (Instr.reduceMaxmin 5 7), ([({ num := 0 } : Item)]), (by decide +kernel), (by decide +kernel)⟩,
   ⟨(holding (wk 0x36 [1, 64] []) true), (5), (7), (wk 0x36 [1, 64] []), ((0x36 : Nat)), (Instr.reduceMaxmin 5 7), ([({ num := 0 } : Item)]), (by decide +kernel), (by decide +kernel)⟩,
   ⟨(busy { wk 0x32 [0, 1] [0, 0, 0, 0, 0, 0, 1 + 2 ^ 32, 1, 0] with mask := [0] }), (5), (7), (({ wk 0x32 [0, 1] [0, 0, 0, 0, 0, 0, 1 + 2 ^ 32, 1, 0] with mask := [0] } : Work)), ((0x32 : Nat)), (Instr.matmulBwdWeight 5 7), (by decide +kernel), (by decide +kernel), (by decide +kernel), (by decide +kernel), (by decide +kernel), (by decide +kernel), (by decide +kernel), (Or.inl (by decide +kernel)), (by decide +kernel)⟩⟩

theorem witness_WorkItemsFinish :
    (∃ (s : State) (core : Nat), (s.stores = []) ∧ (s.moves = []) ∧ (512 ≤ core))
    ∧ (∃ (s : State) (dt : Nat) (core : Nat), 
      let v := s.pass dt
      (s.stores = []) ∧ (s.moves = []) ∧ (core < 512) ∧ (s.runningItem core = none ∨ v.startWaits core = true))
    ∧ (∃ (s : State) (dt : Nat) (core : Nat) (errs : List SilentErr) (w : _) (i : _) (t : _), 
      let v := s.pass dt
      let rd (w : Work) : Rdr := { st := v, core := core, x := w.ctx core }
      let more : Prop := ∃ k, k ∈ w.items ∧ k.num ≠ i.num ∧ k.finished = false
      let r := (rd w).runItem t w i errs
      let bad := if t.d.verify then r.2.2.failedTiles t w i r.1 else []
      (s.stores = []) ∧ (s.moves = []) ∧ (core < 512) ∧ (s.runningItem core = some (w, i)) ∧ (s.work w.pid = some w) ∧ (v.startWaits core = false) ∧ ((w.items.map fun k => k.num).Nodup) ∧ (isProduct w.pkt.opcode = true) ∧ (s.prodTensors w = some t) ∧ (r.2.2.fail = none) ∧ (r.2.2.bad = []) ∧ (bad = []) ∧ (r.2.1 = []) ∧ (more))
    ∧ (∃ (s : State) (dt : Nat) (core : Nat) (errs : List SilentErr) (w : _) (i : _) (t : _), 
      let v := s.pass dt
      let rd (w : Work) : Rdr := { st := v, core := core, x := w.ctx core }
      let r := (rd w).runItem t w i errs
      let bad := if t.d.verify then r.2.2.failedTiles t w i r.1 else []
      (s.stores = []) ∧ (s.moves = []) ∧ (core < 512) ∧ (s.runningItem core = some (w, i)) ∧ (s.work w.pid = some w) ∧ (v.startWaits core = false) ∧ ((w.items.map fun k => k.num).Nodup) ∧ (isProduct w.pkt.opcode = true) ∧ (s.prodTensors w = some t) ∧ (r.2.2.fail = none) ∧ (r.2.2.bad = []) ∧ (bad ≠ []) ∧ (i.attempts < 3))
    ∧ (∃ (s : State) (dt : Nat) (core : Nat) (errs : List SilentErr) (w : _) (i : _) (t : _) (w2 : _), 
      let v := s.pass dt
      let rd (w : Work) : Rdr := { st := v, core := core, x := w.ctx core }
      let r := (rd w).runItem t w i errs
      (s.stores = []) ∧ (s.moves = []) ∧ (core < 512) ∧ (s.runningItem core = some (w, i)) ∧ (s.work w.pid = some w) ∧ (v.startWaits core = false) ∧ ((w.items.map fun k => k.num).Nodup) ∧ (isProduct w.pkt.opcode = true) ∧ (s.prodTensors w = some t) ∧ (r.2.2.fail = none) ∧ (r.2.2.bad = []) ∧ ((v.productItem w i core errs).work w.pid = some w2) ∧ (w2.items.all (fun k => k.finished) = true) ∧ (w.stage = .running) ∧ (w.sampled = []) ∧ (w.tags = []) ∧ (w.outs = []) ∧ (((v.productItem w i core errs).writeProduct t w2 false).work w.pid = some w2) ∧ (w2.outs = []))
    ∧ (∃ (s : State) (dt : Nat) (core : Nat) (errs : List SilentErr) (w : _) (i : _), 
      let v := s.pass dt
      let more : Prop := ∃ k, k ∈ w.items ∧ k.num ≠ i.num ∧ k.finished = false
      let r := runProgramRow v (v.vctx w i.num core errs) (w.ctx core) (vprogram w.mask) false
      (s.stores = []) ∧ (s.moves = []) ∧ (core < 512) ∧ (s.runningItem core = some (w, i)) ∧ (s.work w.pid = some w) ∧ (v.startWaits core = false) ∧ ((w.items.map fun k => k.num).Nodup) ∧ (w.pkt.opcode = 0x35) ∧ (r.r.fail = none) ∧ (r.r.bad = []) ∧ (r.evs = []) ∧ (w.sampled = []) ∧ (more))
    ∧ (∃ (s : State) (dt : Nat) (core : Nat) (errs : List SilentErr) (w : _) (i : _), 
      let v := s.pass dt
      let r := runProgramRow v (v.vctx w i.num core errs) (w.ctx core) (vprogram w.mask) false
      (s.stores = []) ∧ (s.moves = []) ∧ (core < 512) ∧ (s.runningItem core = some (w, i)) ∧ (s.work w.pid = some w) ∧ (v.startWaits core = false) ∧ ((w.items.map fun k => k.num).Nodup) ∧ (w.pkt.opcode = 0x35) ∧ (r.r.fail = none) ∧ (r.r.bad = []) ∧ (r.evs = []) ∧ (w.sampled = []) ∧ ((∀ k, k ∈ w.items → k.num ≠ i.num → k.finished = true)) ∧ (w.stage = .running) ∧ (r.away = []) ∧ (r.r.st.works = s.works) ∧ (w.tags = []) ∧ (w.outs = []))
    ∧ (∃ (s : State) (dt : Nat) (core : Nat) (errs : List SilentErr) (w : _) (i : _) (t : _), 
      let v := s.pass dt
      let rd (w : Work) : Rdr := { st := v, core := core, x := w.ctx core }
      let more : Prop := ∃ k, k ∈ w.items ∧ k.num ≠ i.num ∧ k.finished = false
      let r := (rd w).kernWrite w t i.num core errs false
      (s.stores = []) ∧ (s.moves = []) ∧ (core < 512) ∧ (s.runningItem core = some (w, i)) ∧ (s.work w.pid = some w) ∧ (v.startWaits core = false) ∧ ((w.items.map fun k => k.num).Nodup) ∧ (w.pkt.opcode = 0x33 ∨ w.pkt.opcode = 0x34) ∧ (s.kernTensors w = some t) ∧ (((rd w).kernRow t i.num).2.fail = none) ∧ (((rd w).kernRow t i.num).2.bad = []) ∧ (r.1 = []) ∧ (w.sampled = []) ∧ (more))
    ∧ (∃ (s : State) (dt : Nat) (core : Nat) (errs : List SilentErr) (w : _) (i : _) (t : _), 
      let v := s.pass dt
      let rd (w : Work) : Rdr := { st := v, core := core, x := w.ctx core }
      let r := (rd w).reduceAll w t errs
      (s.stores = []) ∧ (s.moves = []) ∧ (core < 512) ∧ (s.runningItem core = some (w, i)) ∧ (s.work w.pid = some w) ∧ (v.startWaits core = false) ∧ ((w.items.map fun k => k.num).Nodup) ∧ (w.pkt.opcode = 0x36) ∧ (s.tensorKept (w.slot.getD 0) (w.pkt.par 0) = some t) ∧ (w.items = [i]) ∧ (w.pkt.resHost = true) ∧ (w.sampled = []) ∧ (w.tags = []) ∧ (w.outs = []) ∧ (r.2.2.fail = none) ∧ (r.2.2.bad = []) ∧ (r.2.2.seen = []) ∧ (r.2.1 = [])) :=
  ⟨⟨(up), (512), (by decide +kernel)⟩,
   ⟨(up), (5), (511), (by decide +kernel), (by decide +kernel), (by decide +kernel), (Or.inl (by decide +kernel))⟩,
   ⟨(holding (runs (oneByOne 0) 1)), (5), (3), ([]), ((runs (oneByOne 0) 1)), (({ num := 0, core := some 3, started := true } : Item)), (((holding (runs (oneByOne 0) 1)).prodTensors (runs (oneByOne 0) 1)).getD { d := default, a := default, b := default, c := default, sa := none, sb := none, sc := none }), (by decide +kernel), (by decide +kernel), (by decide +kernel), (by decide +kernel), (by decide +kernel), (by decide +kernel), (by decide +kernel), (by decide +kernel), (rfl), (by decide +kernel), (by decide +kernel), (by decide +kernel), (by decide +kernel), (⟨{ num := 1 }, by decide +kernel⟩)⟩,
   ⟨(holding (runs (oneByOne 3) 1)), (5), (3), ([{ row := 0, col := 0, delta := 5 }]), ((runs (oneByOne 3) 1)), (({ num := 0, core := some 3, started := true } : Item)), (((holding (runs (oneByOne 3) 1)).prodTensors (runs (oneByOne 3) 1)).getD { d := default, a := default, b := default, c := default, sa := none, sb := none, sc := none }), (by decide +kernel), (by decide +kernel), (by decide +kernel), (by decide +kernel), (by decide +kernel), (by decide +kernel), (by decide +kernel), (by decide +kernel), (rfl), (by decide +kernel)⟩,
   ⟨(holding (runs (oneByOne 0) 0)), (5), (3), ([]), ((runs (oneByOne 0) 0)), (({ num := 0, core := some 3, started := true } : Item)), (((holding (runs (oneByOne 0) 0)).prodTensors (runs (oneByOne 0) 0)).getD { d := default, a := default, b := default, c := default, sa := none, sb := none, sc := none }), (((((holding (runs (oneByOne 0) 0)).pass 5).productItem (runs (oneByOne 0) 0) ({ num := 0, core := some 3, started := true } : Item) 3 []).work 7).getD default), (by decide +kernel), (by decide +kernel), (by decide +kernel), (by decide +kernel), (by decide +kernel), (by decide +kernel), (by decide +kernel), (by decide +kernel), (rfl), (by decide +kernel)⟩,
   ⟨(holding (runs (wk 0x35 [] [2]) 1)), (5), (3), ([]), ((runs (wk 0x35 [] [2]) 1)), (({ num := 0, core := some 3, started := true } : Item)), (by decide +kernel), (by decide +kernel), (by decide +kernel), (by decide +kernel), (by decide +kernel), (by decide +kernel), (by decide +kernel), (by decide +kernel), (by decide +kernel), (by decide +kernel), (by decide +kernel), (by decide +kernel), (⟨{ num := 1 }, by decide +kernel⟩)⟩,
   ⟨(holding (runs (wk 0x35 [] [1]) 0)), (5), (3), ([]), ((runs (wk 0x35 [] [1]) 0)), (({ num := 0, core := some 3, started := true } : Item)), (by decide +kernel), (by decide +kernel), (by decide +kernel), (by decide +kernel), (by decide +kernel), (by decide +kernel), (by decide +kernel), (by decide +kernel), (by decide +kernel), (by decide +kernel), (by decide +kernel), (by decide +kernel), (fun k hk hn => by rw [List.mem_singleton.mp hk] at hn; exact absurd rfl hn), (by decide +kernel)⟩,
   ⟨(holding (runs (wk 0x34 [] [1, 2, 3, 1 + 2 ^ 32, 0]) 1)), (5), (3), ([]), ((runs (wk 0x34 [] [1, 2, 3, 1 + 2 ^ 32, 0]) 1)), (({ num := 0, core := some 3, started := true } : Item)), (((holding (runs (wk 0x34 [] [1, 2, 3, 1 + 2 ^ 32, 0]) 1)).kernTensors (runs (wk 0x34 [] [1, 2, 3, 1 + 2 ^ 32, 0]) 1)).getD { k := default, dy := default, x := default, dx := default, stats := none, gamma := none, dgam := none, dbet := none }), (by decide +kernel), (by decide +kernel), (by decide +kernel), (by decide +kernel), (by decide +kernel), (by decide +kernel), (by decide +kernel), (Or.inr (by decide +kernel)), (rfl), (by decide +kernel), (by decide +kernel), (by decide +kernel), (by decide +kernel), (⟨{ num := 1 }, by decide +kernel⟩)⟩,
   ⟨(holding (runs (wk 0x836 [1, 4096] []) 0)), (5), (3), ([]), ((runs (wk 0x836 [1, 4096] []) 0)), (({ num := 0, core := some 3, started := true } : Item)), (tns 1), (by decide +kernel), (by decide +kernel)⟩⟩

theorem witness_SampledUnitsAreSettled :
    (∃ (s : State) (id : Nat) (core : Nat) (x : Sample), (s.stores = []) ∧ (s.moves = []) ∧ (core < 512) ∧ (s.sample id = some x) ∧ (x.stage ≠ 1 ∨ s.canSample x core [x.core / 16] = false))
    ∧ (∃ (s : State) (id : Nat) (core : Nat) (x : Sample), (s.stores = []) ∧ (s.moves = []) ∧ (core < 512) ∧ (s.sample id = some x) ∧ (x.stage = 1) ∧ (s.canSample x core [x.core / 16] = true))
    ∧ (∃ (s : State) (id : Nat) (core : Nat) (x : Sample), (s.stores = []) ∧ (s.moves = []) ∧ (core < 512) ∧ (s.sample id = some x) ∧ (x.stage ≠ 2 ∨ s.canSample x core [x.core / 16, x.core2 / 16] = false))
    ∧ (∃ (s : State) (id : Nat) (core : Nat) (x : Sample), (s.stores = []) ∧ (s.moves = []) ∧ (core < 512) ∧ (s.sample id = some x) ∧ (x.stage = 2) ∧ (s.canSample x core [x.core / 16, x.core2 / 16] = true))
    ∧ (∃ (s : State) (id : Nat) (core : Nat) (x : Sample), (s.stores = []) ∧ (s.moves = []) ∧ (core < 512) ∧ (s.sample id = some x) ∧ (x.stage ≠ 3 ∨ s.busy x.core = true ∨ s.available x.slot (!x.vector) = []))
    ∧ (∃ (s : State) (id : Nat) (core : Nat) (x : Sample), (s.stores = []) ∧ (s.moves = []) ∧ (core < 512) ∧ (s.sample id = some x) ∧ (x.stage = 3) ∧ (s.busy x.core = false) ∧ (s.available x.slot (!x.vector) ≠ []))
    ∧ (∃ (s : State) (id : Nat) (core : Nat) (x : Sample), (s.stores = []) ∧ (s.moves = []) ∧ (core < 512) ∧ (s.sample id = some x) ∧ (x.stage = 3) ∧ (s.busy x.core = false) ∧ (s.available x.slot (!x.vector) ≠ []) ∧ ((∀ e, e ∈ s.rel.wrote → s.rerunUnits e x.core false = [])) ∧ (s.buckets = []) ∧ (x.slot < 4) ∧ ((s.job x.slot).opened = true)) :=
  ⟨⟨({ withJob theJob with rel := { up.rel with samples := [({ id := 2, pid := 7, slot := 0, unit := .row 0, core := 3, vector := true, stage := 2 } : Sample)] } }), (2), (40), (({ id := 2, pid := 7, slot := 0, unit := .row 0, core := 3, vector := true, stage := 2 } : Sample)), (by decide +kernel), (by decide +kernel), (by decide +kernel), (by decide +kernel), (Or.inl (by decide +kernel))⟩,
   ⟨({ withJob theJob with rel := { up.rel with samples := [({ id := 2, pid := 7, slot := 0, unit := .row 0, core := 3, vector := true, stage := 1 } : Sample)] } }), (2), (40), (({ id := 2, pid := 7, slot := 0, unit := .row 0, core := 3, vector := true, stage := 1 } : Sample)), (by decide +kernel)⟩,
   ⟨({ withJob theJob with rel := { up.rel with samples := [({ id := 2, pid := 7, slot := 0, unit := .row 0, core := 3, vector := true, stage := 1 } : Sample)] } }), (2), (40), (({ id := 2, pid := 7, slot := 0, unit := .row 0, core := 3, vector := true, stage := 1 } : Sample)), (by decide +kernel), (by decide +kernel), (by decide +kernel), (by decide +kernel), (Or.inl (by decide +kernel))⟩,
   ⟨({ withJob theJob with rel := { up.rel with samples := [({ id := 2, pid := 7, slot := 0, unit := .row 0, core := 3, vector := true, stage := 2 } : Sample)] } }), (2), (40), (({ id := 2, pid := 7, slot := 0, unit := .row 0, core := 3, vector := true, stage := 2 } : Sample)), (by decide +kernel)⟩,
   ⟨({ withJob theJob with rel := { up.rel with samples := [({ id := 2, pid := 7, slot := 0, unit := .row 0, core := 3, vector := true, stage := 1 } : Sample)] } }), (2), (40), (({ id := 2, pid := 7, slot := 0, unit := .row 0, core := 3, vector := true, stage := 1 } : Sample)), (by decide +kernel), (by decide +kernel), (by decide +kernel), (by decide +kernel), (Or.inl (by decide +kernel))⟩,
   ⟨({ withJob theJob with rel := { up.rel with samples := [({ id := 2, pid := 7, slot := 0, unit := .row 0, core := 3, vector := true, stage := 3 } : Sample)] } }), (2), (40), (({ id := 2, pid := 7, slot := 0, unit := .row 0, core := 3, vector := true, stage := 3 } : Sample)), (by decide +kernel)⟩,
   ⟨({ withJob theJob with rel := { up.rel with samples := [({ id := 2, pid := 7, slot := 0, unit := .row 0, core := 3, vector := true, stage := 3 } : Sample)] } }), (2), (40), (({ id := 2, pid := 7, slot := 0, unit := .row 0, core := 3, vector := true, stage := 3 } : Sample)), (by decide +kernel)⟩⟩

theorem witness_DispatchDecides :
    (∃ (s : State) (w : Nat) (p : Packet) (rest : List Packet), 
      let x := vget s.windows w
      (w < 64) ∧ (s.stores = []) ∧ (p.window = w) ∧ (x.queue = p :: rest) ∧ (s.heldBack w p = false) ∧ (3 ≤ x.freeEntries) ∧ (s.cxlOpen = true) ∧ (p.seq ≠ x.nextSeq))
    ∧ (∃ (s : State) (w : Nat) (p : Packet) (rest : List Packet), 
      let x := vget s.windows w
      (w < 64) ∧ (s.stores = []) ∧ (p.window = w) ∧ (x.queue = p :: rest) ∧ (s.heldBack w p = false) ∧ (3 ≤ x.freeEntries) ∧ (s.cxlOpen = true) ∧ (p.seq = x.nextSeq) ∧ (s.boot.sloe = false) ∧ (opAssigned p.opcode = false))
    ∧ (∃ (s : State) (dt : Nat) (w : Nat) (p : Packet) (rest : List Packet) (st : _) (d : _), 
      let x := vget s.windows w
      let u := (s.pass dt).modWindow w fun y => { y with replyFull := false }
      (w < 64) ∧ (s.stores = []) ∧ (p.window = w) ∧ (x.queue = p :: rest) ∧ (s.heldBack w p = false) ∧ (3 ≤ x.freeEntries) ∧ (s.cxlOpen = true) ∧ (p.seq = x.nextSeq) ∧ (u.steerTensor p = none) ∧ (u.checkPacket p [] = some (st, d)))
    ∧ (∃ (s : State) (dt : Nat) (w : Nat) (p : Packet) (rest : List Packet) (q : _), 
      let x := vget s.windows w
      let u := (s.pass dt).modWindow w fun y => { y with replyFull := false }
      (w < 64) ∧ (s.stores = []) ∧ (p.window = w) ∧ (x.queue = p :: rest) ∧ (s.heldBack w p = false) ∧ (3 ≤ x.freeEntries) ∧ (s.cxlOpen = true) ∧ (p.seq = x.nextSeq) ∧ (q = u.readSteering p) ∧ (q.waits = false) ∧ (q.fail = none) ∧ (q.reread = false) ∧ (q.st.stores = []) ∧ (q.st.works = s.works) ∧ (u.checkPacket p q.words = none))
    ∧ (∃ (s : State) (dt : Nat) (w : Nat) (p : Packet) (rest : List Packet) (q : _), 
      let x := vget s.windows w
      let u := (s.pass dt).modWindow w fun y => { y with replyFull := false }
      (w < 64) ∧ (s.stores = []) ∧ (p.window = w) ∧ (x.queue = p :: rest) ∧ (s.heldBack w p = false) ∧ (3 ≤ x.freeEntries) ∧ (s.cxlOpen = true) ∧ (p.seq = x.nextSeq) ∧ (q = u.readSteering p) ∧ (q.waits = true) ∧ (u.checkPacket (u.standIn p).1 (u.standIn p).2 = none))
    ∧ (∃ (s : State) (dt : Nat) (w : Nat) (p : Packet) (rest : List Packet) (q : _) (st : _) (d : _), 
      let x := vget s.windows w
      let u := (s.pass dt).modWindow w fun y => { y with replyFull := false }
      (w < 64) ∧ (s.stores = []) ∧ (p.window = w) ∧ (x.queue = p :: rest) ∧ (s.heldBack w p = false) ∧ (3 ≤ x.freeEntries) ∧ (s.cxlOpen = true) ∧ (p.seq = x.nextSeq) ∧ (q = u.readSteering p) ∧ (q.fail = some (st, d)) ∧ (p.opcode ∈ [0x32, 0x35]) ∧ (p.replyOnAccept = false) ∧ (u.checkPacket (u.standIn p).1 (u.standIn p).2 = none) ∧ ((∀ v, v ∈ q.st.works → v.pid ≠ q.st.nextPid))) :=
  ⟨⟨({ withJob theJob with windows := vset up.windows 2 { enable := true, queue := [({ window := 2, hdr := [0x700000000], stamp := 10 ^ 12 } : Packet)] } }), (2), (({ window := 2, hdr := [0x700000000], stamp := 10 ^ 12 } : Packet)), (([] : List Packet)), (by decide +kernel), (by decide +kernel)⟩,
   ⟨({ withJob theJob with windows := vset up.windows 2 { enable := true, queue := [({ window := 2, hdr := [0xE0], stamp := 10 ^ 12 } : Packet)] } }), (2), (({ window := 2, hdr := [0xE0], stamp := 10 ^ 12 } : Packet)), (([] : List Packet)), (by decide +kernel), (by decide +kernel)⟩,
   ⟨({ withJob theJob with windows := vset up.windows 2 { enable := true, queue := [({ window := 2, hdr := [0x1000], stamp := 10 ^ 12 } : Packet)] } }), (5), (2), (({ window := 2, hdr := [0x1000], stamp := 10 ^ 12 } : Packet)), (([] : List Packet)), (Status.badParam), (0x2), (by decide +kernel), (by decide +kernel)⟩,
   ⟨({ withJob theJob with windows := vset up.windows 2 { enable := true, queue := [({ window := 2, hdr := [0x15], stamp := 10 ^ 12 } : Packet)] } }), (5), (2), (({ window := 2, hdr := [0x15], stamp := 10 ^ 12 } : Packet)), (([] : List Packet)), ((({ withJob theJob with windows := vset up.windows 2 { enable := true, queue := [({ window := 2, hdr := [0x15], stamp := 10 ^ 12 } : Packet)] } }).pass 5 |>.modWindow 2 fun y => { y with replyFull := false }).readSteering ({ window := 2, hdr := [0x15], stamp := 10 ^ 12 } : Packet)), (by decide +kernel), (by decide +kernel), (by decide +kernel), (by decide +kernel), (by decide +kernel), (by decide +kernel), (by decide +kernel), (by decide +kernel), (rfl), (by decide +kernel)⟩,
   ⟨(({ withJob theJob with tensors := [tns 1 (some 0x1001000000000000), tns 2], windows := vset up.windows 2 { enable := true, queue := [({ window := 2, hdr := [0x10035, 0, 1, 2], payload := [wd (1 + 2 ^ 32), 0, 2, wd (1 + 2 * 2 ^ 32), 0, 0, 0, 0], stamp := 10 ^ 12 } : Packet)] }, sec := { up.sec with tables := [] } } : State)), (5), (2), (({ window := 2, hdr := [0x10035, 0, 1, 2], payload := [wd (1 + 2 ^ 32), 0, 2, wd (1 + 2 * 2 ^ 32), 0, 0, 0, 0], stamp := 10 ^ 12 } : Packet)), (([] : List Packet)), (((({ withJob theJob with tensors := [tns 1 (some 0x1001000000000000), tns 2], windows := vset up.windows 2 { enable := true, queue := [({ window := 2, hdr := [0x10035, 0, 1, 2], payload := [wd (1 + 2 ^ 32), 0, 2, wd (1 + 2 * 2 ^ 32), 0, 0, 0, 0], stamp := 10 ^ 12 } : Packet)] }, sec := { up.sec with tables := [] } } : State).pass 5).modWindow 2 fun y => { y with replyFull := false }).readSteering ({ window := 2, hdr := [0x10035, 0, 1, 2], payload := [wd (1 + 2 ^ 32), 0, 2, wd (1 + 2 * 2 ^ 32), 0, 0, 0, 0], stamp := 10 ^ 12 } : Packet)), (by decide +kernel), (by decide +kernel), (by decide +kernel), (by decide +kernel), (by decide +kernel), (by decide +kernel), (by decide +kernel), (by decide +kernel), (rfl), (by decide +kernel)⟩,
   ⟨(({ withJob theJob with tensors := [tns 1 none, tns 2], windows := vset up.windows 2 { enable := true, queue := [({ window := 2, hdr := [0x10035, 0, 1, 2], payload := [wd (1 + 2 ^ 32), 0, 2, wd (1 + 2 * 2 ^ 32), 0, 0, 0, 0], stamp := 10 ^ 12 } : Packet)] }, sec := { up.sec with tables := (List.range 6).map fun i => (i, { }) } } : State)), (5), (2), (({ window := 2, hdr := [0x10035, 0, 1, 2], payload := [wd (1 + 2 ^ 32), 0, 2, wd (1 + 2 * 2 ^ 32), 0, 0, 0, 0], stamp := 10 ^ 12 } : Packet)), (([] : List Packet)), (((({ withJob theJob with tensors := [tns 1 none, tns 2], windows := vset up.windows 2 { enable := true, queue := [({ window := 2, hdr := [0x10035, 0, 1, 2], payload := [wd (1 + 2 ^ 32), 0, 2, wd (1 + 2 * 2 ^ 32), 0, 0, 0, 0], stamp := 10 ^ 12 } : Packet)] }, sec := { up.sec with tables := (List.range 6).map fun i => (i, { }) } } : State).pass 5).modWindow 2 fun y => { y with replyFull := false }).readSteering ({ window := 2, hdr := [0x10035, 0, 1, 2], payload := [wd (1 + 2 ^ 32), 0, 2, wd (1 + 2 * 2 ^ 32), 0, 0, 0, 0], stamp := 10 ^ 12 } : Packet)), (Status.accessDenied), ((2 : Nat)), (by decide +kernel), (by decide +kernel), (by decide +kernel), (by decide +kernel), (by decide +kernel), (by decide +kernel), (by decide +kernel), (by decide +kernel), (rfl), (by decide +kernel)⟩⟩

theorem witness_DispatchHolds :
    (∃ (s : State) (w : Nat), (s.stores = []) ∧ (64 ≤ w))
    ∧ (∃ (s : State) (w : Nat), (s.stores = []) ∧ (w < 64) ∧ ((vget s.windows w).queue = []))
    ∧ (∃ (s : State) (w : Nat) (p : _) (rest : _), (s.stores = []) ∧ (w < 64) ∧ ((vget s.windows w).queue = p :: rest) ∧ (s.heldBack w p = true))
    ∧ (∃ (s : State) (w : Nat) (p : _) (rest : _), (s.stores = []) ∧ (w < 64) ∧ ((vget s.windows w).queue = p :: rest) ∧ (s.heldBack w p = false) ∧ ((vget s.windows w).freeEntries < 3)) :=
  ⟨⟨(up), (64), (by decide +kernel)⟩,
   ⟨(up), (63), (by decide +kernel)⟩,
   ⟨({ withJob theJob with windows := vset up.windows 2 { queue := [({ window := 2, hdr := [0], stamp := 10 ^ 12 } : Packet)] } }), (2), (({ window := 2, hdr := [0], stamp := 10 ^ 12 } : Packet)), (([] : List Packet)), (by decide +kernel)⟩,
   ⟨({ withJob theJob with windows := vset up.windows 2 { enable := true, queue := [({ window := 2, hdr := [0], stamp := 10 ^ 12 } : Packet)], reserved := 4093 } }), (2), (({ window := 2, hdr := [0], stamp := 10 ^ 12 } : Packet)), (([] : List Packet)), (by decide +kernel)⟩⟩

theorem witness_TestsAreBookedAndUnitsRetired :
    (∃ (s : State) (pid : Nat) (w : Work), (s.stores = []) ∧ (s.handed pid [0x90] = some w) ∧ (256 ≤ s.rel.windows.length))
    ∧ (∃ (s : State) (pid : Nat) (w : Work), (s.stores = []) ∧ (s.handed pid [0x90] = some w) ∧ (s.rel.windows.length < 256))
    ∧ (∃ (s : State) (pid : Nat) (w : Work) (u : _), (s.stores = []) ∧ (s.handed pid [0x92] = some w) ∧ (selectedUnit (w.pkt.par 0) = some u)) :=
  ⟨⟨({ busy (wk 0x90 [1000000000000, 2000000000000] []) with rel := { up.rel with windows := List.replicate 256 { num := 0, start := 0, stop := 0, core := none, tile := 0 } } }), (7), (wk 0x90 [1000000000000, 2000000000000] []), (by decide +kernel)⟩,
   ⟨(busy (wk 0x90 [1000000000000, 2000000000000] [])), (7), (wk 0x90 [1000000000000, 2000000000000] []), (by decide +kernel)⟩,
   ⟨(busy (wk 0x92 [0x10] [])), (7), (wk 0x92 [0x10] []), ((.core 16)), (by decide +kernel)⟩⟩

theorem witness_SecurityPackets :
    (∃ (s : State) (pid : Nat) (w : Work) (target : _), (s.stores = []) ∧ (s.handed pid [0xA1] = some w) ∧ (s.sec.error = false) ∧ (w.pkt.atKind ≤ 3) ∧ (target = w.pkt.atTarget))
    ∧ (∃ (s : State) (pid : Nat) (w : Work), (s.stores = []) ∧ (s.handed pid [0xA1] = some w) ∧ (s.sec.error = false) ∧ (w.pkt.atKind = 8))
    ∧ (∃ (s : State) (pid : Nat) (w : Work), (s.stores = []) ∧ (s.handed pid [0xA1] = some w) ∧ (s.sec.error = false) ∧ (w.pkt.atKind = 9))
    ∧ (∃ (s : State) (pid : Nat) (w : Work), (s.stores = []) ∧ (s.handed pid [0xA1] = some w) ∧ (s.sec.error = false) ∧ (w.pkt.atKind = 15))
    ∧ (∃ (s : State) (pid : Nat) (w : Work), (s.stores = []) ∧ (s.handed pid [0xA1] = some w) ∧ (s.sec.error = true) ∧ (w.pkt.atKind ≤ 3))
    ∧ (∃ (s : State) (pid : Nat) (w : Work), (s.stores = []) ∧ (s.handed pid [0xA1] = some w) ∧ (s.sec.error = true) ∧ (w.pkt.atKind = 8))
    ∧ (∃ (s : State) (pid : Nat) (w : Work), (s.stores = []) ∧ (s.handed pid [0xA1] = some w) ∧ (s.sec.error = true) ∧ (w.pkt.atKind = 9))
    ∧ (∃ (s : State) (pid : Nat) (w : Work), (s.stores = []) ∧ (s.handed pid [0xA1] = some w) ∧ (s.sec.error = true) ∧ (w.pkt.atKind = 15))
    ∧ (∃ (s : State) (pid : Nat) (w : Work), (s.stores = []) ∧ (s.handed pid ((List.range 16).map fun i => 0xF0 + i) = some w)) :=
  ⟨⟨(busy (wk 0xA1 [0x12, 5] [1])), (7), (wk 0xA1 [0x12, 5] [1]), ((wk 0xA1 [0x12, 5] [1]).pkt.atTarget), (by decide +kernel)⟩,
   ⟨(busy (wk 0xA1 [8] [])), (7), (wk 0xA1 [8] []), (by decide +kernel)⟩,
   ⟨(busy (wk 0xA1 [9] [])), (7), (wk 0xA1 [9] []), (by decide +kernel)⟩,
   ⟨(busy (wk 0xA1 [15] [])), (7), (wk 0xA1 [15] []), (by decide +kernel)⟩,
   ⟨({ busy (wk 0xA1 [0x12, 5] []) with sec := { up.sec with error := true } }), (7), (wk 0xA1 [0x12, 5] []), (by decide +kernel)⟩,
   ⟨({ busy (wk 0xA1 [8] []) with sec := { up.sec with error := true } }), (7), (wk 0xA1 [8] []), (by decide +kernel)⟩,
   ⟨({ busy (wk 0xA1 [9] []) with sec := { up.sec with error := true } }), (7), (wk 0xA1 [9] []), (by decide +kernel)⟩,
   ⟨({ busy (wk 0xA1 [15] []) with sec := { up.sec with error := true } }), (7), (wk 0xA1 [15] []), (by decide +kernel)⟩,
   ⟨(busy (wk 0xF3 [] [])), (7), (wk 0xF3 [] []), (by decide +kernel)⟩⟩

theorem witness_OperationsInEveryForm :
    (∃ (s : State) (m : Nat) (fjob : Nat) (slot : Nat) (seq : Nat) (n : Nat) (a : Word) (t : _) (o : _), 
      let x : OpCtx := { master := m, fjob := fjob, slot := slot, seq := seq }
      (s.Inv) ∧ (s.registersRun = true) ∧ (ownMaster m = true) ∧ (s.addrKind a = .here t o) ∧ (s.moving t (o / 65536) = false) ∧ (spanOk o n = true) ∧ (s.opCheck x .read t o = .ok))
    ∧ (∃ (s : State) (m : Nat) (fjob : Nat) (slot : Nat) (seq : Nat) (n : Nat) (a : Word) (mask : List Word) (data : List Word) (t : _) (o : _), 
      let x : OpCtx := { master := m, fjob := fjob, slot := slot, seq := seq }
      let bs := maskedBytes a.toNat n (if mask.isEmpty then none else some mask) (data.map fun d => (d, false))
      (s.Inv) ∧ (s.registersRun = true) ∧ (ownMaster m = true) ∧ (s.addrKind a = .here t o) ∧ (s.moving t (o / 65536) = false) ∧ (spanOk o bs.length = true) ∧ (s.opCheck x .write t o = .ok))
    ∧ (∃ (s : State) (m : Nat) (a : Word) (t : Nat) (o : Nat) (mv : Move), (s.Inv) ∧ (s.registersRun = true) ∧ (ownMaster m = true) ∧ (s.addrKind a = .here t o) ∧ (o % 8 = 0) ∧ (o < 0x600000000) ∧ (s.moves = [mv]) ∧ (mv.tile = t) ∧ (mv.page = o / 65536))
    ∧ (∃ (s : State) (m : Nat) (n : Nat) (a : Word) (mod : _) (t : _) (o : _), (s.Inv) ∧ (s.registersRun = true) ∧ (ownMaster m = true) ∧ (s.addrKind a = .remote mod t o) ∧ (spanOk (addrOff a) n = true))
    ∧ (∃ (s : State) (m : Nat) (a : Word) (lanes : List Word) (mod : _) (t : _) (o : _), (s.Inv) ∧ (s.registersRun = true) ∧ (ownMaster m = true) ∧ (s.addrKind a = .remote mod t o) ∧ (lanesOk (addrOff a) lanes.length = true))
    ∧ (∃ (s : State) (m : Nat) (a : Word) (mod : _) (t : _) (o : _), (s.Inv) ∧ (s.registersRun = true) ∧ (ownMaster m = true) ∧ (s.addrKind a = .remote mod t o))
    ∧ (∃ (s : State) (d : Delivered) (ds : List Delivered) (t : Nat) (o : Nat), (s.Inv) ∧ (s.registersRun = true) ∧ (s.delivered = d :: ds) ∧ (s.addrKind d.msg.word2 = .here t o) ∧ (s.moves = []) ∧ (d.msg.op = .read))
    ∧ (∃ (s : State) (d : Delivered) (ds : List Delivered) (t : Nat) (o : Nat), (s.Inv) ∧ (s.registersRun = true) ∧ (s.delivered = d :: ds) ∧ (s.addrKind d.msg.word2 = .here t o) ∧ (s.moves = []) ∧ (d.msg.op = .write))
    ∧ (∃ (s : State) (d : Delivered) (ds : List Delivered) (t : Nat) (o : Nat), (s.Inv) ∧ (s.registersRun = true) ∧ (s.delivered = d :: ds) ∧ (s.addrKind d.msg.word2 = .here t o) ∧ (s.moves = []) ∧ (d.msg.op = .atomic))
    ∧ (∃ (s : State) (d : Delivered) (ds : List Delivered) (t : Nat) (o : Nat), (s.Inv) ∧ (s.registersRun = true) ∧ (s.delivered = d :: ds) ∧ (s.addrKind d.msg.word2 = .here t o) ∧ (s.moves = []) ∧ (d.msg.op = .accumulate)) :=
  ⟨⟨(withJob theJob), (0x2000), (5), (0), (1), (5), (64), ((0 : Nat)), ((64 : Nat)), (by unfold State.Inv; decide +kernel), (by decide +kernel)⟩,
   ⟨(withJob theJob), (0x2000), (5), (0), (1), (5), (64), ([]), ([1]), ((0 : Nat)), ((64 : Nat)), (by unfold State.Inv; decide +kernel), (by decide +kernel)⟩,
   ⟨({ withJob theJob with tensors := [{ num := 1, slot := 0, tile := 0, page := 0, bytes := 65536, fmt := 2, cplx := false, life := 1, rows := 128, cols := 128, epoch := 0 }], moves := [({ tile := 0, page := 0, toTile := 1, toChan := 0, toPage := 5, cause := .rebalance } : Move)] }), (0x2000), (64), ((0 : Nat)), ((64 : Nat)), (({ tile := 0, page := 0, toTile := 1, toChan := 0, toPage := 5, cause := .rebalance } : Move)), (by unfold State.Inv; decide +kernel), (by decide +kernel)⟩,
   ⟨(withJob theJob), (0x2000), (5), (0x1001000000000040), ((1 : Nat)), ((0 : Nat)), ((64 : Nat)), (by unfold State.Inv; decide +kernel), (by decide +kernel)⟩,
   ⟨(withJob theJob), (0x2000), (0x1001000000000040), ([3]), ((1 : Nat)), ((0 : Nat)), ((64 : Nat)), (by unfold State.Inv; decide +kernel), (by decide +kernel)⟩,
   ⟨(withJob theJob), (0x2000), (0x1001000000000040), ((1 : Nat)), ((0 : Nat)), ((64 : Nat)), (by unfold State.Inv; decide +kernel), (by decide +kernel)⟩,
   ⟨({ withJob theJob with delivered := [{ link := 0, stamp := 10 ^ 12, msg := { (default : Msg) with src := 1, op := .read, word2 := 64 } }] }), (({ link := 0, stamp := 10 ^ 12, msg := { (default : Msg) with src := 1, op := .read, word2 := 64 } } : Delivered)), ([]), ((0 : Nat)), ((64 : Nat)), (by unfold State.Inv; decide +kernel), (by decide +kernel)⟩,
   ⟨({ withJob theJob with delivered := [{ link := 0, stamp := 10 ^ 12, msg := { (default : Msg) with src := 1, op := .write, word2 := 64 } }] }), (({ link := 0, stamp := 10 ^ 12, msg := { (default : Msg) with src := 1, op := .write, word2 := 64 } } : Delivered)), ([]), ((0 : Nat)), ((64 : Nat)), (by unfold State.Inv; decide +kernel), (by decide +kernel)⟩,
   ⟨({ withJob theJob with delivered := [{ link := 0, stamp := 10 ^ 12, msg := { (default : Msg) with src := 1, op := .atomic, word2 := 64 } }] }), (({ link := 0, stamp := 10 ^ 12, msg := { (default : Msg) with src := 1, op := .atomic, word2 := 64 } } : Delivered)), ([]), ((0 : Nat)), ((64 : Nat)), (by unfold State.Inv; decide +kernel), (by decide +kernel)⟩,
   ⟨({ withJob theJob with delivered := [{ link := 0, stamp := 10 ^ 12, msg := { (default : Msg) with src := 1, op := .accumulate, word2 := 64 } }] }), (({ link := 0, stamp := 10 ^ 12, msg := { (default : Msg) with src := 1, op := .accumulate, word2 := 64 } } : Delivered)), ([]), ((0 : Nat)), ((64 : Nat)), (by unfold State.Inv; decide +kernel), (by decide +kernel)⟩⟩

theorem witness_ItemsAreHandedOut :
    (∃ (s : State), (s.stores = []) ∧ ((s.works.map fun w => w.pid).Nodup) ∧ ((∀ w, w ∈ s.works → (w.items.map fun i => i.num).Nodup))) :=
  ⟨(busy { wk 0x35 [] [2] with stage := .running, items := [{ num := 0, core := some 3, started := true }, { num := 1 }] }), (by decide +kernel)⟩

theorem witness_ModuleScopeResets :
    (∃ (s : State) (pid : _) (w : _), (s.stores = []) ∧ (s.boot.powered = true) ∧ (s.boot.inReset = false) ∧ (s.handed pid [0x03] = some w) ∧ (fld (w.pkt.par 0) 0 2 = 0))
    ∧ (∃ (s : State), (s.stores = []) ∧ (s.boot.powered = true) ∧ (s.boot.inReset = false) ∧ (s.boot.perstLow = false))
    ∧ (∃ (s : State) (tile : _) (temp : _), (s.stores = []) ∧ (s.boot.powered = true) ∧ (s.boot.inReset = false) ∧ (tile < 32) ∧ ((115 : Int) ≤ temp))
    ∧ (∃ (s : State) (tile : _) (temp : _), (s.stores = []) ∧ (s.boot.powered = true) ∧ (s.boot.inReset = false) ∧ (tile < 32) ∧ ((105 : Int) ≤ temp))
    ∧ (∃ (s : State) (tile : _), (s.stores = []) ∧ (s.boot.powered = true) ∧ (s.boot.inReset = false) ∧ (tile = 0 ∨ tile = 16) ∧ (s.registersRun = true) ∧ (s.boot.tileReset.contains tile = false) ∧ (s.boot.cpFailed.contains tile = false) ∧ (s.boot.cpFailed.contains (16 - tile) = true))
    ∧ (∃ (s : State) (dt : Nat) (step : _), (s.stores = []) ∧ (s.boot.powered = true) ∧ (s.boot.inReset = false) ∧ (s.boot.bringup = true) ∧ (s.boot.releasedAt + 30000000000 ≤ s.uptime + dt) ∧ (s.boot.step ≤ step) ∧ (step ≤ (if s.boot.awaits 1 || s.boot.awaits 2 then 3 else 6)))
    ∧ (∃ (s : State) (sensor : _), (s.stores = []) ∧ (s.boot.powered = true) ∧ (s.boot.inReset = false) ∧ (1 ≤ sensor) ∧ (sensor ≤ 4))
    ∧ (∃ (s : State), (s.stores = []) ∧ (s.boot.powered = true) ∧ (s.boot.inReset = false))
    ∧ (∃ (s : State), (s.stores = []) ∧ (s.boot.powered = true) ∧ (s.boot.inReset = false)) :=
  ⟨⟨(busy (wk 0x03 [0] [])), (7), (wk 0x03 [0] []), (by decide +kernel)⟩,
   ⟨(up), (by decide +kernel)⟩,
   ⟨(up), (31), (115), (by decide +kernel)⟩,
   ⟨(up), (31), (105), (by decide +kernel)⟩,
   ⟨({ up with boot := { up.boot with cpFailed := [16] } }), (0), (by decide +kernel)⟩,
   ⟨({ State.reset with boot := { State.reset.boot with releasedAt := 0, step := 2 }, uptime := 30000000000 }), (5), (6), (by decide +kernel)⟩,
   ⟨(up), (4), (by decide +kernel)⟩,
   ⟨(up), (by decide +kernel)⟩,
   ⟨(up), (by decide +kernel)⟩⟩

theorem witness_TileAndCoreResets :
    (∃ (s : State) (tile : Nat) (core : Nat) (pid : _) (w : _), (s.stores = []) ∧ (tile < 32) ∧ (core < 16) ∧ (s.handed pid [0x03] = some w) ∧ (w.pkt.par 0 = wd (2 + tile * 256 + core * 65536)) ∧ (s.boot.tileReset.contains tile = false))
    ∧ (∃ (s : State) (tile : Nat) (core : Nat) (pid : _) (w : _), (s.stores = []) ∧ (tile < 32) ∧ (core < 16) ∧ (s.handed pid [0x03] = some w) ∧ (w.pkt.par 0 = wd (2 + tile * 256 + core * 65536)) ∧ (s.boot.tileReset.contains tile = true))
    ∧ (∃ (s : State) (tile : Nat) (core : Nat), (s.stores = []) ∧ (tile < 32) ∧ (core < 16) ∧ (s.registersRun = true) ∧ (s.boot.cpFailed.contains tile = false) ∧ (s.boot.tileReset.contains tile = false) ∧ (tile ≠ 0) ∧ (tile ≠ 16) ∧ (s.buckets = []) ∧ ((∀ v, v ∈ s.works → v.tile ≠ tile)))
    ∧ (∃ (s : State) (tile : Nat) (core : Nat), (s.stores = []) ∧ (tile < 32) ∧ (core < 16) ∧ (s.registersRun = true) ∧ (s.boot.cpFailed.contains tile = false) ∧ (s.boot.tileReset.contains tile = false) ∧ (tile = 0 ∨ tile = 16) ∧ (s.boot.cpFailed.contains (16 - tile) = false))
    ∧ (∃ (s : State) (tile : Nat) (core : Nat), (s.stores = []) ∧ (tile < 32) ∧ (core < 16))
    ∧ (∃ (s : State) (tile : Nat) (core : Nat), (s.stores = []) ∧ (tile < 32) ∧ (core < 16)) :=
  ⟨⟨(busy (wk 0x03 [0xF1F02] [])), (31), (15), (7), (wk 0x03 [0xF1F02] []), (by decide +kernel)⟩,
   ⟨({ busy (wk 0x03 [0xF1F02] []) with boot := { up.boot with tileReset := [31] } }), (31), (15), (7), (wk 0x03 [0xF1F02] []), (by decide +kernel)⟩,
   ⟨(up), (31), (15), (by decide +kernel), (by decide +kernel), (by decide +kernel), (by decide +kernel), (by decide +kernel), (by decide +kernel), (by decide +kernel), (by decide +kernel), (by decide +kernel), (by intro v h; cases h)⟩,
   ⟨(up), (16), (15), (by decide +kernel)⟩,
   ⟨({ up with boot := { up.boot with tileReset := [31] } }), (31), (15), (by decide +kernel)⟩,
   ⟨({ up with boot := { up.boot with coreReset := [511] } }), (31), (15), (by decide +kernel)⟩⟩

theorem witness_StartsBeginAndEnd :
    (∃ (s : State) (src : _) (clk : _), (s.stores = []) ∧ (s.boot.powered = true) ∧ (s.boot.inReset = true) ∧ (s.boot.perstLow = true) ∧ (s.boot.thermtrip = false) ∧ (src < 3) ∧ (clk < 3))
    ∧ (∃ (s : State) (src : _) (clk : _), (s.stores = []) ∧ (s.boot.powered = true) ∧ (s.boot.inReset = true) ∧ (s.boot.perstLow = false) ∧ (s.boot.thermtrip = true) ∧ (src < 3) ∧ (clk < 3) ∧ (s.boot.failedStarts ≠ 3))
    ∧ (∃ (s : State) (t0 : _) (t16 : _), (s.stores = []) ∧ (s.boot.bringup = true) ∧ (t0 = false) ∧ (t16 = false))
    ∧ (∃ (s : State) (t0 : _) (t16 : _) (f : _) (g : _), (s.stores = []) ∧ (s.boot.bringup = true) ∧ ((t0 || t16) = true) ∧ (s.boot.awaits 1 = false) ∧ (s.boot.awaits 2 = false) ∧ (s.bootChoice f g = none))
    ∧ (∃ (s : State) (t0 : _) (t16 : _) (dram : _) (f : _) (g : _) (i : _) (fell : _), (s.stores = []) ∧ (s.boot.bringup = true) ∧ ((t0 || t16) = true) ∧ (s.boot.awaits 1 = false) ∧ (s.boot.awaits 2 = false) ∧ (s.bootChoice f g = some (i, fell)) ∧ (dram = true))
    ∧ (∃ (s : State) (t0 : _) (t16 : _) (dram : _) (f : _) (g : _) (i : _) (fell : _), (s.stores = []) ∧ (s.boot.bringup = true) ∧ ((t0 || t16) = true) ∧ (s.boot.awaits 1 = false) ∧ (s.boot.awaits 2 = false) ∧ (s.bootChoice f g = some (i, fell)) ∧ (dram = false))
    ∧ (∃ (s : State) (dt : Nat), (s.stores = []) ∧ (s.boot.bringupDone = true) ∧ (s.boot.doneAt + 60000000000 ≤ s.uptime + dt))
    ∧ (∃ (s : State) (dt : Nat), (s.stores = []) ∧ (s.boot.awaits 2 = true) ∧ (s.boot.releasedAt + 20000000000 ≤ s.uptime + dt) ∧ ((∀ l, l < 18 → (s.link l).st ≠ .up)))
    ∧ (∃ (s : State), (s.stores = []) ∧ (s.boot.powered = true) ∧ (s.boot.inReset = false) ∧ (s.boot.awaits 1 = false))
    ∧ (∃ (s : State) (len : _), (s.stores = []) ∧ (s.boot.powered = true) ∧ (s.boot.inReset = false) ∧ (s.boot.awaits 1 = true) ∧ (s.cxlOpen = true) ∧ (0 < len) ∧ (len < 2 ^ 32)) :=
  ⟨⟨({ State.reset with boot := { State.reset.boot with inReset := true, perstLow := true, failedStarts := 2 } }), (2), (2), (by decide +kernel)⟩,
   ⟨({ State.reset with boot := { State.reset.boot with inReset := true, thermtrip := true, failedStarts := 2 } }), (2), (2), (by decide +kernel)⟩,
   ⟨(State.reset), (false), (false), (by decide +kernel)⟩,
   ⟨(State.reset), (true), (false), (true), (true), (by decide +kernel)⟩,
   ⟨(State.reset), (true), (false), (true), (false), (false), (State.reset.boot.flashA), (false), (by decide +kernel)⟩,
   ⟨(State.reset), (true), (false), (false), (false), (false), (State.reset.boot.flashA), (false), (by decide +kernel)⟩,
   ⟨({ up with uptime := 60000000000 }), (5), (by decide +kernel)⟩,
   ⟨({ { State.reset with boot := { State.reset.boot with strapSrc := 2 } } with uptime := 20000000000 }), (5), (by decide +kernel)⟩,
   ⟨(State.reset), (by decide +kernel)⟩,
   ⟨({ State.reset with boot := { State.reset.boot with strapSrc := 1 }, cxl := { State.reset.cxl with linkUp := true, bme := true } }), (5), (by decide +kernel)⟩⟩

theorem witness_FirmwareIsStagedAndSwitched :
    (∃ (s : State) (pid : Nat) (w : Work), (s.stores = []) ∧ (s.handed pid [0x04] = some w) ∧ (s.sec.error = true))
    ∧ (∃ (s : State) (pid : Nat) (w : Work), (s.stores = []) ∧ (s.handed pid [0x05] = some w) ∧ (s.sec.error = false) ∧ (s.boot.sloe = false))
    ∧ (∃ (s : State) (pid : Nat) (w : Work), (s.stores = []) ∧ (s.handed pid [0x05] = some w) ∧ (s.sec.error = false) ∧ (s.boot.sloe = true) ∧ (s.boot.inReset = false))
    ∧ (∃ (s : State) (dt : Nat) (k : _) (i : _) (v : _), 
      let u := (s.pass dt).settleSafePoints
      (s.stores = []) ∧ (u.boot.booking = some k) ∧ (u.boot.staged = some i) ∧ (u.work k.pid = some v) ∧ (k.ft ≤ u.ftNow) ∧ (u.alert = true))
    ∧ (∃ (s : State) (dt : Nat) (k : _) (i : _) (v : _), 
      let u := (s.pass dt).settleSafePoints
      (s.stores = []) ∧ (u.boot.booking = some k) ∧ (u.boot.staged = some i) ∧ (u.work k.pid = some v) ∧ (k.ft ≤ u.ftNow) ∧ (u.alert = false) ∧ ((u.ft.unsynced || (List.range 4).any u.voting) = true))
    ∧ (∃ (s : State) (dt : Nat) (k : _) (i : _) (v : _), 
      let u := (s.pass dt).settleSafePoints
      (s.stores = []) ∧ (u.boot.booking = some k) ∧ (u.boot.staged = some i) ∧ (u.work k.pid = some v) ∧ (k.ft ≤ u.ftNow) ∧ (u.alert = false) ∧ ((u.ft.unsynced || (List.range 4).any u.voting) = false))
    ∧ (∃ (s : State), (s.stores = []) ∧ (s.boot.booking = none) ∧ (s.rel.windows = []) ∧ (s.colls = []) ∧ (s.buckets = []) ∧ ((∀ j, j < 4 → (s.job j).commitWaits = false ∧ (s.job j).site ≠ .safing)))
    ∧ (∃ (s : State) (pid : Nat) (v : _), (s.stores = []) ∧ (s.boot.handover = some pid) ∧ (s.work pid = some v))
    ∧ (∃ (s : State) (dt : Nat), (s.stores = []) ∧ (s.boot.bringupDone = true) ∧ (s.boot.runSince + 600000000000 ≤ s.uptime + dt))
    ∧ (∃ (s : State) (dt : Nat), (s.stores = []) ∧ (s.boot.bringupDone = true) ∧ (s.boot.runSince + 600000000000 ≤ s.uptime + dt)) :=
  ⟨⟨({ busy (wk 0x804 [4096, 0] []) with sec := { up.sec with error := true } }), (7), (wk 0x804 [4096, 0] []), (by decide +kernel)⟩,
   ⟨(busy (wk 0x05 [12] [])), (7), (wk 0x05 [12] []), (by decide +kernel)⟩,
   ⟨({ busy (wk 0x05 [12] []) with boot := { State.reset.boot with bringup := false, sloe := true, reason := 4 } }), (7), (wk 0x05 [12] []), (by decide +kernel)⟩,
   ⟨({ busy (wk 0x05 [12] []) with boot := { up.boot with booking := some { pid := 7, ft := 12 }, staged := some { version := 2, ok := true } }, site := { up.site with asserted := true } }), (5), (({ pid := 7, ft := 12 } : SwitchBooking)), (({ version := 2, ok := true } : Image)), (wk 0x05 [12] []), (by decide +kernel), (by decide +kernel)⟩,
   ⟨({ busy (wk 0x05 [12] []) with boot := { up.boot with booking := some { pid := 7, ft := 12 }, staged := some { version := 2, ok := true } }, ft := { up.ft with outOfLock := true } }), (5), (({ pid := 7, ft := 12 } : SwitchBooking)), (({ version := 2, ok := true } : Image)), (wk 0x05 [12] []), (by decide +kernel), (by decide +kernel)⟩,
   ⟨({ busy (wk 0x05 [12] []) with boot := { up.boot with booking := some { pid := 7, ft := 12 }, staged := some { version := 2, ok := true } } }), (5), (({ pid := 7, ft := 12 } : SwitchBooking)), (({ version := 2, ok := true } : Image)), (wk 0x05 [12] []), (by decide +kernel), (by decide +kernel)⟩,
   ⟨(up), (by decide +kernel)⟩,
   ⟨({ busy (wk 0x05 [12] []) with boot := { up.boot with handover := some 7 } }), (7), (wk 0x05 [12] []), (by decide +kernel)⟩,
   ⟨({ up with uptime := 600000000000 }), (5), (by decide +kernel)⟩,
   ⟨({ up with uptime := 600000000000 }), (5), (by decide +kernel)⟩⟩

theorem witness_CollectivesAreTaken :
    (∃ (s : State) (pid : Nat) (w : Work), (s.stores = []) ∧ (s.coll pid = none) ∧ (s.handed pid [0x52] = some w) ∧ (s.fenced w w.pkt.cdesc = false))
    ∧ (∃ (s : State) (pid : Nat) (w : Work), (s.stores = []) ∧ (s.coll pid = none) ∧ (s.handed pid [0x53] = some w) ∧ (s.fenced w w.pkt.cdesc = false))
    ∧ (∃ (s : State) (pid : Nat) (w : Work), (s.stores = []) ∧ (s.coll pid = none) ∧ (s.handed pid [0x54] = some w) ∧ (s.fenced w w.pkt.cdesc = false))
    ∧ (∃ (s : State) (pid : Nat) (w : Work), (s.stores = []) ∧ (s.coll pid = none) ∧ (s.handed pid [0x55] = some w) ∧ (s.fenced w w.pkt.cdesc = false))
    ∧ (∃ (s : State) (pid : Nat) (w : Work), (s.stores = []) ∧ (s.coll pid = none) ∧ (s.handed pid [0x57] = some w) ∧ (s.fenced w w.pkt.cdesc = false))
    ∧ (∃ (s : State) (pid : Nat) (w : Work), (s.stores = []) ∧ (s.coll pid = none) ∧ (s.handed pid [0x56] = some w) ∧ (s.fenced w w.pkt.cdesc = false))
    ∧ (∃ (s : State) (pid : Nat) (w : Work), (s.stores = []) ∧ (s.coll pid = none) ∧ (s.handed pid [0x56] = some w) ∧ (s.fenced w w.pkt.cdesc = true)) :=
  ⟨⟨(busy (wk 0x1052 [1] [1, 0, 2, 0, 0x300000010])), (7), (wk 0x1052 [1] [1, 0, 2, 0, 0x300000010]), (by decide +kernel)⟩,
   ⟨(busy (wk 0x1053 [1] [1, 0, 2, 0, 0x300000010])), (7), (wk 0x1053 [1] [1, 0, 2, 0, 0x300000010]), (by decide +kernel)⟩,
   ⟨(busy (wk 0x1054 [1] [1, 0, 2, 0, 0x300000010])), (7), (wk 0x1054 [1] [1, 0, 2, 0, 0x300000010]), (by decide +kernel)⟩,
   ⟨(busy (wk 0x1055 [1] [1, 0, 2, 0, 0x300000010])), (7), (wk 0x1055 [1] [1, 0, 2, 0, 0x300000010]), (by decide +kernel)⟩,
   ⟨(busy (wk 0x1057 [1] [1, 0, 2, 0, 0x300000010])), (7), (wk 0x1057 [1] [1, 0, 2, 0, 0x300000010]), (by decide +kernel)⟩,
   ⟨(busy (wk 0x1056 [1] [1, 0, 2, 0, 0x300000010])), (7), (wk 0x1056 [1] [1, 0, 2, 0, 0x300000010]), (by decide +kernel)⟩,
   ⟨({ busy (wk 0x1056 [1] [1, 0, 2, 0, 0x10002300000010, 0, 1]) with works := [{ wk 0x1052 [1] [1, 0, 2, 0, 0x300000010] with pid := 6 }, (wk 0x1056 [1] [1, 0, 2, 0, 0x10002300000010, 0, 1])] }), (7), ((wk 0x1056 [1] [1, 0, 2, 0, 0x10002300000010, 0, 1])), (by decide +kernel)⟩⟩

theorem witness_CollectivesStartInOrder :
    (∃ (s : State) (slot : Nat) (gnum : Nat), (s.stores = []) ∧ (slot < 4) ∧ (s.group slot gnum = none))
    ∧ (∃ (s : State) (slot : Nat) (gnum : Nat) (g : Group), (s.stores = []) ∧ (slot < 4) ∧ (s.group slot gnum = some g) ∧ (s.dataDue slot gnum = none) ∧ (g.queue.head?.bind s.work = none))
    ∧ (∃ (s : State) (slot : Nat) (gnum : Nat) (g : Group) (w : Work), 
      let d := w.pkt.cdesc
      let rs := sendRanges (d.sends g.size (g.rank s.fabric.mod) (s.collParts slot d) w.mask)
      (s.stores = []) ∧ (slot < 4) ∧ (s.group slot gnum = some g) ∧ (s.dataDue slot gnum = some w) ∧ ((s.colls.filter fun c => c.pid == w.pid).length = 1) ∧ ((rs.all fun x => s.rangeFetched w.pid x.1 x.2.1 x.2.2) = true) ∧ (s.gated slot (rs.flatMap fun x => s.rangeKeys x.1 x.2.1 x.2.2) = false))
    ∧ (∃ (s : State) (slot : Nat) (gnum : Nat) (g : Group) (w : Work), (s.stores = []) ∧ (slot < 4) ∧ (s.group slot gnum = some g) ∧ (s.dataDue slot gnum = none) ∧ (g.queue.head?.bind s.work = some w) ∧ (w.stage = .handed ∨ (w.pkt.opcode = 0x58 ∧ (s.run (48 + 4 * slot)).isSome = true) ∨ (w.pkt.opcode = 0x5A ∧ (s.run w.pkt.rowanTag).isSome = true)))
    ∧ (∃ (s : State) (dt : Nat) (slot : Nat) (gnum : Nat) (g : Group) (w : Work) (tag : Nat) (serves : RowanUse) (op : Nat) (v : List Nat), 
      let u := s.pass dt
      (s.stores = []) ∧ (slot < 4) ∧ (s.group slot gnum = some g) ∧ (s.dataDue slot gnum = none) ∧ (g.queue.head?.bind s.work = some w) ∧ (w.stage ≠ .handed) ∧ (w.slot = some slot) ∧ (tag < 64) ∧ ((w.pkt.opcode = 0x58 ∧ tag = 48 + 4 * slot ∧ serves = .barrier w.pid ∧ op = 3 ∧ v = [u.ftNow, (s.job slot).rampNs, s.ft.releaseLead] ∨ w.pkt.opcode = 0x5A ∧ tag = w.pkt.rowanTag ∧ serves = .reduce w.pid ∧ op = w.pkt.rowanOp ∧ v = (List.range w.pkt.rowanLanes).map fun i => (w.pkt.pay i).toNat)) ∧ (s.run tag = none))
    ∧ (∃ (s : State) (slot : Nat) (gnum : Nat) (g : Group) (w : Work) (b : Bucket) (x : ScaleGroup) (gt : Tensor), (s.stores = []) ∧ (slot < 4) ∧ (s.group slot gnum = some g) ∧ (s.dataDue slot gnum = none) ∧ (g.queue.head?.bind s.work = some w) ∧ (w.stage ≠ .handed) ∧ (w.pkt.opcode = 0x59) ∧ (w.slot = some slot) ∧ (w.pkt.bdesc.grp = gnum) ∧ (w.pkt.group = gnum) ∧ (s.bucket w.pid = some b) ∧ (b.started = false) ∧ ((s.buckets.filter fun c => c.pid == w.pid).length = 1) ∧ ((s.job slot).scaleGroup w.pkt.bdesc.sgroup = some x) ∧ (s.tensorKept slot w.pkt.bdesc.grad = some gt) ∧ (gt.spill = none) ∧ ((x.exp.isSome || x.inFlight) = true ∨ s.run (scaleTag slot w.pkt.bdesc.sgroup) = none))
    ∧ (∃ (s : State) (slot : Nat) (gnum : Nat) (g : Group) (w : Work) (c : Coll), 
      let d := w.pkt.cdesc
      (s.stores = []) ∧ (slot < 4) ∧ (s.group slot gnum = some g) ∧ (s.dataDue slot gnum = none) ∧ (g.queue.head?.bind s.work = some w) ∧ (w.stage ≠ .handed) ∧ (0x52 ≤ w.pkt.opcode) ∧ (w.pkt.opcode ≤ 0x57) ∧ (w.slot = some slot) ∧ (w.pkt.group = gnum) ∧ (s.coll w.pid = some c) ∧ ((s.colls.filter fun c => c.pid == w.pid).length = 1) ∧ (c.started = false) ∧ (s.fenced w d = true))
    ∧ (∃ (s : State) (slot : Nat) (gnum : Nat) (g : Group) (w : Work) (c : Coll), 
      let d := w.pkt.cdesc
      (s.stores = []) ∧ (slot < 4) ∧ (s.group slot gnum = some g) ∧ (s.dataDue slot gnum = none) ∧ (g.queue.head?.bind s.work = some w) ∧ (w.stage ≠ .handed) ∧ (0x52 ≤ w.pkt.opcode) ∧ (w.pkt.opcode ≤ 0x57) ∧ (w.slot = some slot) ∧ (w.pkt.group = gnum) ∧ (s.coll w.pid = some c) ∧ ((s.colls.filter fun c => c.pid == w.pid).length = 1) ∧ (c.started = false) ∧ (s.fenced w d = false) ∧ (s.awaitsCommit w = true))
    ∧ (∃ (s : State) (slot : Nat) (gnum : Nat) (g : Group) (w : Work) (c : Coll), 
      let d := w.pkt.cdesc
      let ps := s.collParts slot d
      let rs := sendRanges (d.sends g.size (g.rank s.fabric.mod) ps w.mask)
      (s.stores = []) ∧ (slot < 4) ∧ (s.group slot gnum = some g) ∧ (s.dataDue slot gnum = none) ∧ (g.queue.head?.bind s.work = some w) ∧ (w.stage ≠ .handed) ∧ (0x52 ≤ w.pkt.opcode) ∧ (w.pkt.opcode ≤ 0x57) ∧ (w.slot = some slot) ∧ (w.pkt.group = gnum) ∧ (s.coll w.pid = some c) ∧ ((s.colls.filter fun c => c.pid == w.pid).length = 1) ∧ (c.started = false) ∧ (s.fenced w d = false) ∧ (s.awaitsCommit w = false) ∧ ((rs.all fun x => s.rangeFetched w.pid x.1 x.2.1 x.2.2) = true) ∧ (s.gated slot (rs.flatMap fun x => s.rangeKeys x.1 x.2.1 x.2.2) = false) ∧ (s.canStage d ps = false))
    ∧ (∃ (s : State) (slot : Nat) (gnum : Nat) (g : Group) (w : Work) (c : Coll), 
      let d := w.pkt.cdesc
      let ps := s.collParts slot d
      let rs := sendRanges (d.sends g.size (g.rank s.fabric.mod) ps w.mask)
      (s.stores = []) ∧ (slot < 4) ∧ (s.group slot gnum = some g) ∧ (s.dataDue slot gnum = none) ∧ (g.queue.head?.bind s.work = some w) ∧ (w.stage ≠ .handed) ∧ (0x52 ≤ w.pkt.opcode) ∧ (w.pkt.opcode ≤ 0x57) ∧ (w.slot = some slot) ∧ (w.pkt.group = gnum) ∧ (s.coll w.pid = some c) ∧ ((s.colls.filter fun c => c.pid == w.pid).length = 1) ∧ (c.started = false) ∧ (s.fenced w d = false) ∧ (s.awaitsCommit w = false) ∧ ((rs.all fun x => s.rangeFetched w.pid x.1 x.2.1 x.2.2) = true) ∧ (s.gated slot (rs.flatMap fun x => s.rangeKeys x.1 x.2.1 x.2.2) = false) ∧ (s.canStage d ps = true)) :=
  ⟨⟨(up), (0), (1), (by decide +kernel)⟩,
   ⟨(withJob (withGroup (pair 1))), (0), (1), (pair 1), (by decide +kernel)⟩,
   ⟨({ withJob { withGroup { pair 1 with queue := [7] } with fjob := 5 } with works := [{ wk 0x1054 [1] [1, 0, 2, 0, 0x300000004] with stage := .running }], colls := [({ pid := 7, slot := 0, group := 1, cseq := 0, started := true } : Coll)], tensors := [{ num := 1, slot := 0, tile := 0, page := 1, bytes := 65536, fmt := 2, cplx := false, life := 1, rows := 128, cols := 128, epoch := 0 }, { num := 2, slot := 0, tile := 0, page := 2, bytes := 65536, fmt := 2, cplx := false, life := 1, rows := 128, cols := 128, epoch := 0 }] }), (0), (1), ({ pair 1 with queue := [7] }), ({ wk 0x1054 [1] [1, 0, 2, 0, 0x300000004] with stage := .running }), (by decide +kernel), (by decide +kernel)⟩,
   ⟨({ withJob { withGroup { pair 1 with queue := [7] } with fjob := 5 } with works := [wk 0x1054 [1] []], tensors := [{ num := 1, slot := 0, tile := 0, page := 1, bytes := 65536, fmt := 2, cplx := false, life := 1, rows := 128, cols := 128, epoch := 0 }, { num := 2, slot := 0, tile := 0, page := 2, bytes := 65536, fmt := 2, cplx := false, life := 1, rows := 128, cols := 128, epoch := 0 }] }), (0), (1), ({ pair 1 with queue := [7] }), (wk 0x1054 [1] []), (by decide +kernel), (by decide +kernel), (by decide +kernel), (by decide +kernel), (by decide +kernel), (Or.inl (by decide +kernel))⟩,
   ⟨({ withJob { withGroup { pair 1 with queue := [7] } with fjob := 5 } with works := [{ wk 0x1058 [1] [] with stage := .running }], tensors := [{ num := 1, slot := 0, tile := 0, page := 1, bytes := 65536, fmt := 2, cplx := false, life := 1, rows := 128, cols := 128, epoch := 0 }, { num := 2, slot := 0, tile := 0, page := 2, bytes := 65536, fmt := 2, cplx := false, life := 1, rows := 128, cols := 128, epoch := 0 }] }), (5), (0), (1), ({ pair 1 with queue := [7] }), ({ wk 0x1058 [1] [] with stage := .running }), ((48 : Nat)), (RowanUse.barrier 7), ((3 : Nat)), ([(({ withJob { withGroup { pair 1 with queue := [7] } with fjob := 5 } with works := [{ wk 0x1058 [1] [] with stage := .running }], tensors := [{ num := 1, slot := 0, tile := 0, page := 1, bytes := 65536, fmt := 2, cplx := false, life := 1, rows := 128, cols := 128, epoch := 0 }, { num := 2, slot := 0, tile := 0, page := 2, bytes := 65536, fmt := 2, cplx := false, life := 1, rows := 128, cols := 128, epoch := 0 }] } : State).pass 5).ftNow, ({ withJob { withGroup { pair 1 with queue := [7] } with fjob := 5 } with works := [{ wk 0x1058 [1] [] with stage := .running }], tensors := [{ num := 1, slot := 0, tile := 0, page := 1, bytes := 65536, fmt := 2, cplx := false, life := 1, rows := 128, cols := 128, epoch := 0 }, { num := 2, slot := 0, tile := 0, page := 2, bytes := 65536, fmt := 2, cplx := false, life := 1, rows := 128, cols := 128, epoch := 0 }] } : State).ft.releaseLead - ({ withJob { withGroup { pair 1 with queue := [7] } with fjob := 5 } with works := [{ wk 0x1058 [1] [] with stage := .running }], tensors := [{ num := 1, slot := 0, tile := 0, page := 1, bytes := 65536, fmt := 2, cplx := false, life := 1, rows := 128, cols := 128, epoch := 0 }, { num := 2, slot := 0, tile := 0, page := 2, bytes := 65536, fmt := 2, cplx := false, life := 1, rows := 128, cols := 128, epoch := 0 }] } : State).ft.releaseLead + (({ withJob { withGroup { pair 1 with queue := [7] } with fjob := 5 } with works := [{ wk 0x1058 [1] [] with stage := .running }], tensors := [{ num := 1, slot := 0, tile := 0, page := 1, bytes := 65536, fmt := 2, cplx := false, life := 1, rows := 128, cols := 128, epoch := 0 }, { num := 2, slot := 0, tile := 0, page := 2, bytes := 65536, fmt := 2, cplx := false, life := 1, rows := 128, cols := 128, epoch := 0 }] } : State).job 0).rampNs, ({ withJob { withGroup { pair 1 with queue := [7] } with fjob := 5 } with works := [{ wk 0x1058 [1] [] with stage := .running }], tensors := [{ num := 1, slot := 0, tile := 0, page := 1, bytes := 65536, fmt := 2, cplx := false, life := 1, rows := 128, cols := 128, epoch := 0 }, { num := 2, slot := 0, tile := 0, page := 2, bytes := 65536, fmt := 2, cplx := false, life := 1, rows := 128, cols := 128, epoch := 0 }] } : State).ft.releaseLead]), (by decide +kernel), (by decide +kernel)⟩,
   ⟨({ withJob { withGroup { pair 1 with queue := [7] } with fjob := 5, scales := [{ sgroup := 0, group := 1, grad := 1, off := 0, units := 1, exp := some 0 }] } with works := [{ wk 0x1059 [1, 2000000000000, 9] [1, 0, 4294967300, 0, 1, 0, 0, 0] with stage := .running }], tensors := [{ num := 1, slot := 0, tile := 0, page := 1, bytes := 65536, fmt := 2, cplx := false, life := 1, rows := 128, cols := 128, epoch := 0 }, { num := 2, slot := 0, tile := 0, page := 2, bytes := 65536, fmt := 2, cplx := false, life := 1, rows := 128, cols := 128, epoch := 0 }], buckets := [({ pid := 7, slot := 0, group := 1, cseq := 0 } : Bucket)] }), (0), (1), ({ pair 1 with queue := [7] }), ({ wk 0x1059 [1, 2000000000000, 9] [1, 0, 4294967300, 0, 1, 0, 0, 0] with stage := .running }), ((({ pid := 7, slot := 0, group := 1, cseq := 0 } : Bucket))), (({ sgroup := 0, group := 1, grad := 1, off := 0, units := 1, exp := some 0 } : ScaleGroup)), (({ num := 1, slot := 0, tile := 0, page := 1, bytes := 65536, fmt := 2, cplx := false, life := 1, rows := 128, cols := 128, epoch := 0 } : Tensor)), (by decide +kernel)⟩,
   ⟨({ withJob { withGroup { pair 1 with queue := [7] } with fjob := 5 } with works := [{ wk 0x1052 [1] [1, 0, 2, 0, 0x300000010] with pid := 6 }, { (wk 0x1056 [1] [1, 0, 2, 0, 0x10002300000010, 0, 1]) with stage := .running }], colls := [({ pid := 7, slot := 0, group := 1, cseq := 0 } : Coll)], tensors := [{ num := 1, slot := 0, tile := 0, page := 1, bytes := 65536, fmt := 2, cplx := false, life := 1, rows := 128, cols := 128, epoch := 0 }, { num := 2, slot := 0, tile := 0, page := 2, bytes := 65536, fmt := 2, cplx := false, life := 1, rows := 128, cols := 128, epoch := 0 }] }), (0), (1), ({ pair 1 with queue := [7] }), ({ (wk 0x1056 [1] [1, 0, 2, 0, 0x10002300000010, 0, 1]) with stage := .running }), (({ pid := 7, slot := 0, group := 1, cseq := 0 } : Coll)), (by decide +kernel), (by decide +kernel)⟩,
   ⟨({ withJob { withGroup { pair 1 with queue := [7] } with fjob := 5 } with works := [{ wk 0x1054 [1] [1, 0, 2, 0, 0x1300000010, 1] with stage := .running }], colls := [({ pid := 7, slot := 0, group := 1, cseq := 0 } : Coll)], tensors := [{ num := 1, slot := 0, tile := 0, page := 1, bytes := 65536, fmt := 2, cplx := false, life := 1, rows := 128, cols := 128, epoch := 0 }, { num := 2, slot := 0, tile := 0, page := 2, bytes := 65536, fmt := 2, cplx := false, life := 1, rows := 128, cols := 128, epoch := 0 }] }), (0), (1), ({ pair 1 with queue := [7] }), ({ wk 0x1054 [1] [1, 0, 2, 0, 0x1300000010, 1] with stage := .running }), (({ pid := 7, slot := 0, group := 1, cseq := 0 } : Coll)), (by decide +kernel), (by decide +kernel)⟩,
   ⟨({ withJob { withGroup { pair 1 with queue := [7] } with fjob := 5 } with works := [{ wk 0x1056 [1] [1, 0, 1, 0, 0x4000003FFFFFFFF] with stage := .running }], colls := [({ pid := 7, slot := 0, group := 1, cseq := 0 } : Coll)] }), (0), (1), ({ pair 1 with queue := [7] }), ({ wk 0x1056 [1] [1, 0, 1, 0, 0x4000003FFFFFFFF] with stage := .running }), (({ pid := 7, slot := 0, group := 1, cseq := 0 } : Coll)), (by decide +kernel), (by decide +kernel)⟩,
   ⟨({ withJob { withGroup { pair 1 with queue := [7] } with fjob := 5 } with works := [{ wk 0x1054 [1] [1, 0, 2, 0, 0x300000004] with stage := .running }], colls := [({ pid := 7, slot := 0, group := 1, cseq := 0 } : Coll)], tensors := [{ num := 1, slot := 0, tile := 0, page := 1, bytes := 65536, fmt := 2, cplx := false, life := 1, rows := 128, cols := 128, epoch := 0 }, { num := 2, slot := 0, tile := 0, page := 2, bytes := 65536, fmt := 2, cplx := false, life := 1, rows := 128, cols := 128, epoch := 0 }] }), (0), (1), ({ pair 1 with queue := [7] }), ({ wk 0x1054 [1] [1, 0, 2, 0, 0x300000004] with stage := .running }), (({ pid := 7, slot := 0, group := 1, cseq := 0 } : Coll)), (by decide +kernel), (by decide +kernel)⟩⟩

theorem witness_CollectiveDataAndDeadlines :
    (∃ (s : State), 
      let ready (y : Delivered) : Bool := s.pieceReady y.msg || (s.mismatched y.msg).isSome
      (s.stores = []) ∧ (s.delivered.find? ready = none))
    ∧ (∃ (s : State) (x : _), 
      let ready (y : Delivered) : Bool := s.pieceReady y.msg || (s.mismatched y.msg).isSome
      (s.stores = []) ∧ (s.delivered.find? ready = some x) ∧ (s.msgWork x.msg = none))
    ∧ (∃ (s : State) (x : _) (w : _) (g : _) (c : _), 
      let ready (y : Delivered) : Bool := s.pieceReady y.msg || (s.mismatched y.msg).isSome
      let d := w.pkt.cdesc
      let ps := s.collParts (w.slot.getD 0) d
      let k := sizeAt ps (mOffset x.msg)
      let n := (x.msg.len + 1 - 8) / k
      (s.stores = []) ∧ (s.delivered.find? ready = some x) ∧ (s.msgWork x.msg = some w) ∧ (s.work w.pid = some w) ∧ (s.group (w.slot.getD 0) w.pkt.group = some g) ∧ (s.coll w.pid = some c) ∧ (0x54 ≤ d.op) ∧ (mOpcode x.msg = d.op) ∧ (d.fits g.size (g.rank s.fabric.mod) ps x.msg n = true) ∧ (c.unacked ≠ []) ∧ ((c.got.any fun p => p.phase == mPhase x.msg && p.rank == mRank x.msg && p.offset == mOffset x.msg) = false))
    ∧ (∃ (s : State) (x : _) (w : _) (g : _) (c : _), 
      let ready (y : Delivered) : Bool := s.pieceReady y.msg || (s.mismatched y.msg).isSome
      let d := w.pkt.cdesc
      let ps := s.collParts (w.slot.getD 0) d
      let n := (x.msg.len + 1 - 8) / sizeAt ps (mOffset x.msg)
      let there := c.got.any fun p => p.phase == mPhase x.msg && p.rank == mRank x.msg && p.offset == mOffset x.msg
      (s.stores = []) ∧ (s.delivered.find? ready = some x) ∧ (s.msgWork x.msg = some w) ∧ (s.work w.pid = some w) ∧ (s.group (w.slot.getD 0) w.pkt.group = some g) ∧ (s.coll w.pid = some c) ∧ ((s.colls.filter fun c => c.pid == w.pid).length = 1) ∧ (c.started = true) ∧ (mOpcode x.msg = d.op) ∧ (d.fits g.size (g.rank s.fabric.mod) ps x.msg n = true) ∧ (there = true))
    ∧ (∃ (s : State) (x : _) (w : _) (g : _) (c : _), 
      let ready (y : Delivered) : Bool := s.pieceReady y.msg || (s.mismatched y.msg).isSome
      let d := w.pkt.cdesc
      let ps := s.collParts (w.slot.getD 0) d
      let n := (x.msg.len + 1 - 8) / sizeAt ps (mOffset x.msg)
      let there := c.got.any fun p => p.phase == mPhase x.msg && p.rank == mRank x.msg && p.offset == mOffset x.msg
      (s.stores = []) ∧ (s.delivered.find? ready = some x) ∧ (s.msgWork x.msg = some w) ∧ (s.work w.pid = some w) ∧ (s.group (w.slot.getD 0) w.pkt.group = some g) ∧ (s.coll w.pid = some c) ∧ ((s.colls.filter fun c => c.pid == w.pid).length = 1) ∧ (c.started = true) ∧ (mOpcode x.msg = d.op) ∧ (d.fits g.size (g.rank s.fabric.mod) ps x.msg n = true) ∧ (there = false))
    ∧ (∃ (s : State) (x : _) (w : _) (g : _) (c : _), 
      let ready (y : Delivered) : Bool := s.pieceReady y.msg || (s.mismatched y.msg).isSome
      let d := w.pkt.cdesc
      let ps := s.collParts (w.slot.getD 0) d
      let n := (x.msg.len + 1 - 8) / sizeAt ps (mOffset x.msg)
      (s.stores = []) ∧ (s.delivered.find? ready = some x) ∧ (s.msgWork x.msg = some w) ∧ (s.work w.pid = some w) ∧ (s.group (w.slot.getD 0) w.pkt.group = some g) ∧ (s.coll w.pid = some c) ∧ ((s.colls.filter fun c => c.pid == w.pid).length = 1) ∧ (c.started = true) ∧ (mOpcode x.msg ≠ d.op ∨ d.fits g.size (g.rank s.fabric.mod) ps x.msg n = false) ∧ (w.tags = []) ∧ (w.outs = []))
    ∧ (∃ (s : State) (x : _) (w : _), 
      let ready (y : Delivered) : Bool := s.pieceReady y.msg || (s.mismatched y.msg).isSome
      (s.stores = []) ∧ (s.delivered.find? ready = some x) ∧ (s.mismatched x.msg = some w) ∧ (s.work w.pid = some w) ∧ (w.pkt.opcode = 0x58 ∨ w.pkt.opcode = 0x5A))
    ∧ (∃ (s : State) (dt : Nat) (pid : _) (w : _) (c : _), (s.stores = []) ∧ (s.work pid = some w) ∧ (s.coll pid = some c) ∧ (c.started = false ∨ c.expired = true ∨ w.pkt.cdesc.lateAt (s.pass dt).ftNow = false))
    ∧ (∃ (s : State) (dt : Nat) (pid : _) (w : _) (c : _), (s.stores = []) ∧ (s.work pid = some w) ∧ (s.coll pid = some c) ∧ (c.started = true) ∧ (c.expired = false) ∧ (w.pkt.cdesc.lateAt (s.pass dt).ftNow = true) ∧ (s.delivered = []) ∧ (0x54 ≤ w.pkt.cdesc.op) ∧ (c.unacked ≠ []))
    ∧ (∃ (s : State) (dt : Nat) (pid : _) (w : _) (c : _), (s.stores = []) ∧ (s.work pid = some w) ∧ (s.coll pid = some c) ∧ ((s.colls.filter fun c => c.pid == pid).length = 1) ∧ (c.started = true) ∧ (c.expired = false) ∧ (w.pkt.cdesc.lateAt (s.pass dt).ftNow = true)) :=
  ⟨⟨(up), (by decide +kernel), (by decide +kernel)⟩,
   ⟨({ withJob theJob with delivered := [({ link := 0, stamp := 10 ^ 12, msg := { (default : Msg) with vc := 2, src := 1, job := 5, op := .collective, len := 39, word2 := wd (1 + 2 * 2 ^ 30 + 2 ^ 32 + 0x54 * 2 ^ 44), data := ([4, 1, 2, 3, 4] : List Nat).map fun x => encodeWord (wd x) false } } : Delivered)] }), (({ link := 0, stamp := 10 ^ 12, msg := { (default : Msg) with vc := 2, src := 1, job := 5, op := .collective, len := 39, word2 := wd (1 + 2 * 2 ^ 30 + 2 ^ 32 + 0x54 * 2 ^ 44), data := ([4, 1, 2, 3, 4] : List Nat).map fun x => encodeWord (wd x) false } } : Delivered)), (by decide +kernel), (by decide +kernel)⟩,
   ⟨({ withJob (withGroup (pair 1)) with works := [{ wk 0x1054 [1, 2000000000000] [1, 0, 2, 0, 0x300000004] with stage := .running }], colls := [({ pid := 7, slot := 0, group := 1, cseq := 0, started := true, unacked := [({ tag := 9, msg := default, at_ := 10 ^ 12, resent := false } : Sent)] } : Coll)], tensors := [{ num := 1, slot := 0, tile := 0, page := 1, bytes := 65536, fmt := 2, cplx := false, life := 1, rows := 128, cols := 128, epoch := 0 }, { num := 2, slot := 0, tile := 0, page := 2, bytes := 65536, fmt := 2, cplx := false, life := 1, rows := 128, cols := 128, epoch := 0 }], delivered := [({ link := 0, stamp := 10 ^ 12, msg := { (default : Msg) with vc := 2, src := 1, job := 5, op := .collective, len := 39, word2 := wd (1 + 2 * 2 ^ 30 + 2 ^ 32 + 0x54 * 2 ^ 44), data := ([4, 1, 2, 3, 4] : List Nat).map fun x => encodeWord (wd x) false } } : Delivered)] }), (({ link := 0, stamp := 10 ^ 12, msg := { (default : Msg) with vc := 2, src := 1, job := 5, op := .collective, len := 39, word2 := wd (1 + 2 * 2 ^ 30 + 2 ^ 32 + 0x54 * 2 ^ 44), data := ([4, 1, 2, 3, 4] : List Nat).map fun x => encodeWord (wd x) false } } : Delivered)), ({ wk 0x1054 [1, 2000000000000] [1, 0, 2, 0, 0x300000004] with stage := .running }), (pair 1), (({ pid := 7, slot := 0, group := 1, cseq := 0, started := true, unacked := [({ tag := 9, msg := default, at_ := 10 ^ 12, resent := false } : Sent)] } : Coll)), (by decide +kernel), (by decide +kernel)⟩,
   ⟨({ withJob (withGroup (pair 1)) with works := [{ wk 0x1054 [1, 2000000000000] [1, 0, 2, 0, 0x300000004] with stage := .running }], colls := [({ pid := 7, slot := 0, group := 1, cseq := 0, started := true, got := [{ phase := 2, rank := 1, offset := 4, elems := [], late := false }], unacked := [({ tag := 9, msg := default, at_ := 10 ^ 12, resent := false } : Sent)] } : Coll)], tensors := [{ num := 1, slot := 0, tile := 0, page := 1, bytes := 65536, fmt := 2, cplx := false, life := 1, rows := 128, cols := 128, epoch := 0 }, { num := 2, slot := 0, tile := 0, page := 2, bytes := 65536, fmt := 2, cplx := false, life := 1, rows := 128, cols := 128, epoch := 0 }], delivered := [({ link := 0, stamp := 10 ^ 12, msg := { (default : Msg) with vc := 2, src := 1, job := 5, op := .collective, len := 39, word2 := wd (1 + 2 * 2 ^ 30 + 2 ^ 32 + 0x54 * 2 ^ 44), data := ([4, 1, 2, 3, 4] : List Nat).map fun x => encodeWord (wd x) false } } : Delivered)] }), (({ link := 0, stamp := 10 ^ 12, msg := { (default : Msg) with vc := 2, src := 1, job := 5, op := .collective, len := 39, word2 := wd (1 + 2 * 2 ^ 30 + 2 ^ 32 + 0x54 * 2 ^ 44), data := ([4, 1, 2, 3, 4] : List Nat).map fun x => encodeWord (wd x) false } } : Delivered)), ({ wk 0x1054 [1, 2000000000000] [1, 0, 2, 0, 0x300000004] with stage := .running }), (pair 1), (({ pid := 7, slot := 0, group := 1, cseq := 0, started := true, got := [{ phase := 2, rank := 1, offset := 4, elems := [], late := false }], unacked := [({ tag := 9, msg := default, at_ := 10 ^ 12, resent := false } : Sent)] } : Coll)), (by decide +kernel), (by decide +kernel)⟩,
   ⟨({ withJob (withGroup (pair 1)) with works := [{ wk 0x1054 [1, 2000000000000] [1, 0, 2, 0, 0x300000004] with stage := .running }], colls := [({ pid := 7, slot := 0, group := 1, cseq := 0, started := true, unacked := [({ tag := 9, msg := default, at_ := 10 ^ 12, resent := false } : Sent)] } : Coll)], tensors := [{ num := 1, slot := 0, tile := 0, page := 1, bytes := 65536, fmt := 2, cplx := false, life := 1, rows := 128, cols := 128, epoch := 0 }, { num := 2, slot := 0, tile := 0, page := 2, bytes := 65536, fmt := 2, cplx := false, life := 1, rows := 128, cols := 128, epoch := 0 }], delivered := [({ link := 0, stamp := 10 ^ 12, msg := { (default : Msg) with vc := 2, src := 1, job := 5, op := .collective, len := 39, word2 := wd (1 + 2 * 2 ^ 30 + 2 ^ 32 + 0x54 * 2 ^ 44), data := ([4, 1, 2, 3, 4] : List Nat).map fun x => encodeWord (wd x) false } } : Delivered)] }), (({ link := 0, stamp := 10 ^ 12, msg := { (default : Msg) with vc := 2, src := 1, job := 5, op := .collective, len := 39, word2 := wd (1 + 2 * 2 ^ 30 + 2 ^ 32 + 0x54 * 2 ^ 44), data := ([4, 1, 2, 3, 4] : List Nat).map fun x => encodeWord (wd x) false } } : Delivered)), ({ wk 0x1054 [1, 2000000000000] [1, 0, 2, 0, 0x300000004] with stage := .running }), (pair 1), (({ pid := 7, slot := 0, group := 1, cseq := 0, started := true, unacked := [({ tag := 9, msg := default, at_ := 10 ^ 12, resent := false } : Sent)] } : Coll)), (by decide +kernel), (by decide +kernel)⟩,
   ⟨({ withJob (withGroup (pair 1)) with works := [{ wk 0x1054 [1, 2000000000000] [1, 0, 2, 0, 0x300000004] with stage := .running }], colls := [({ pid := 7, slot := 0, group := 1, cseq := 0, started := true, unacked := [({ tag := 9, msg := default, at_ := 10 ^ 12, resent := false } : Sent)] } : Coll)], tensors := [{ num := 1, slot := 0, tile := 0, page := 1, bytes := 65536, fmt := 2, cplx := false, life := 1, rows := 128, cols := 128, epoch := 0 }, { num := 2, slot := 0, tile := 0, page := 2, bytes := 65536, fmt := 2, cplx := false, life := 1, rows := 128, cols := 128, epoch := 0 }], delivered := [({ link := 0, stamp := 10 ^ 12, msg := { (default : Msg) with vc := 2, src := 1, job := 5, op := .collective, len := 39, word2 := wd (1 + 2 * 2 ^ 30 + 2 ^ 32 + 0x53 * 2 ^ 44), data := ([4, 1, 2, 3, 4] : List Nat).map fun x => encodeWord (wd x) false } } : Delivered)] }), (({ link := 0, stamp := 10 ^ 12, msg := { (default : Msg) with vc := 2, src := 1, job := 5, op := .collective, len := 39, word2 := wd (1 + 2 * 2 ^ 30 + 2 ^ 32 + 0x53 * 2 ^ 44), data := ([4, 1, 2, 3, 4] : List Nat).map fun x => encodeWord (wd x) false } } : Delivered)), ({ wk 0x1054 [1, 2000000000000] [1, 0, 2, 0, 0x300000004] with stage := .running }), (pair 1), (({ pid := 7, slot := 0, group := 1, cseq := 0, started := true, unacked := [({ tag := 9, msg := default, at_ := 10 ^ 12, resent := false } : Sent)] } : Coll)), (by decide +kernel), (by decide +kernel)⟩,
   ⟨({ withJob (withGroup (pair 1)) with works := [{ wk 0x1058 [1] [] with stage := .running }], colls := [], tensors := [{ num := 1, slot := 0, tile := 0, page := 1, bytes := 65536, fmt := 2, cplx := false, life := 1, rows := 128, cols := 128, epoch := 0 }, { num := 2, slot := 0, tile := 0, page := 2, bytes := 65536, fmt := 2, cplx := false, life := 1, rows := 128, cols := 128, epoch := 0 }], delivered := [({ link := 0, stamp := 10 ^ 12, msg := { (default : Msg) with vc := 2, src := 1, job := 5, op := .collective, len := 39, word2 := wd (1 + 2 * 2 ^ 30 + 2 ^ 32 + 0x54 * 2 ^ 44), data := ([4, 1, 2, 3, 4] : List Nat).map fun x => encodeWord (wd x) false } } : Delivered)] }), (({ link := 0, stamp := 10 ^ 12, msg := { (default : Msg) with vc := 2, src := 1, job := 5, op := .collective, len := 39, word2 := wd (1 + 2 * 2 ^ 30 + 2 ^ 32 + 0x54 * 2 ^ 44), data := ([4, 1, 2, 3, 4] : List Nat).map fun x => encodeWord (wd x) false } } : Delivered)), ({ wk 0x1058 [1] [] with stage := .running }), (by decide +kernel), (by decide +kernel)⟩,
   ⟨({ withJob (withGroup (pair 1)) with works := [{ wk 0x1054 [1, 2000000000000] [1, 0, 2, 0, 0x300000004] with stage := .running }], colls := [({ pid := 7, slot := 0, group := 1, cseq := 0 } : Coll)], tensors := [{ num := 1, slot := 0, tile := 0, page := 1, bytes := 65536, fmt := 2, cplx := false, life := 1, rows := 128, cols := 128, epoch := 0 }, { num := 2, slot := 0, tile := 0, page := 2, bytes := 65536, fmt := 2, cplx := false, life := 1, rows := 128, cols := 128, epoch := 0 }], delivered := [] }), (5), (7), ({ wk 0x1054 [1, 2000000000000] [1, 0, 2, 0, 0x300000004] with stage := .running }), (({ pid := 7, slot := 0, group := 1, cseq := 0 } : Coll)), (by decide +kernel)⟩,
   ⟨({ withJob (withGroup (pair 1)) with works := [{ wk 0x1054 [1, 999999000000] [1, 0, 2, 0, 0x300000004] with stage := .running }], colls := [({ pid := 7, slot := 0, group := 1, cseq := 0, started := true, unacked := [({ tag := 9, msg := default, at_ := 10 ^ 12, resent := false } : Sent)] } : Coll)], tensors := [{ num := 1, slot := 0, tile := 0, page := 1, bytes := 65536, fmt := 2, cplx := false, life := 1, rows := 128, cols := 128, epoch := 0 }, { num := 2, slot := 0, tile := 0, page := 2, bytes := 65536, fmt := 2, cplx := false, life := 1, rows := 128, cols := 128, epoch := 0 }], delivered := [] }), (5), (7), ({ wk 0x1054 [1, 999999000000] [1, 0, 2, 0, 0x300000004] with stage := .running }), (({ pid := 7, slot := 0, group := 1, cseq := 0, started := true, unacked := [({ tag := 9, msg := default, at_ := 10 ^ 12, resent := false } : Sent)] } : Coll)), (by decide +kernel)⟩,
   ⟨({ withJob (withGroup (pair 1)) with works := [{ wk 0x1054 [1, 999999000000] [1, 0, 2, 0, 0x300000004] with stage := .running }], colls := [({ pid := 7, slot := 0, group := 1, cseq := 0, started := true, unacked := [({ tag := 9, msg := default, at_ := 10 ^ 12, resent := false } : Sent)] } : Coll)], tensors := [{ num := 1, slot := 0, tile := 0, page := 1, bytes := 65536, fmt := 2, cplx := false, life := 1, rows := 128, cols := 128, epoch := 0 }, { num := 2, slot := 0, tile := 0, page := 2, bytes := 65536, fmt := 2, cplx := false, life := 1, rows := 128, cols := 128, epoch := 0 }], delivered := [] }), (5), (7), ({ wk 0x1054 [1, 999999000000] [1, 0, 2, 0, 0x300000004] with stage := .running }), (({ pid := 7, slot := 0, group := 1, cseq := 0, started := true, unacked := [({ tag := 9, msg := default, at_ := 10 ^ 12, resent := false } : Sent)] } : Coll)), (by decide +kernel)⟩⟩

theorem witness_MessagesAreSentTwice :
    (∃ (s : State) (pid : Nat) (tag : Nat), (s.stores = []) ∧ (s.sentMsg pid tag = none))
    ∧ (∃ (s : State) (dt : Nat) (pid : Nat) (tag : Nat) (e : _), (s.stores = []) ∧ (s.sentMsg pid tag = some e) ∧ ((s.pass dt).ftNow < e.at_ + 2000000))
    ∧ (∃ (s : State) (dt : Nat) (pid : Nat) (tag : Nat) (e : _), (s.stores = []) ∧ (s.sentMsg pid tag = some e) ∧ (e.at_ + 2000000 ≤ (s.pass dt).ftNow) ∧ (e.resent = false))
    ∧ (∃ (s : State) (dt : Nat) (pid : Nat) (tag : Nat) (e : _) (w : _) (c : _), (s.stores = []) ∧ (s.sentMsg pid tag = some e) ∧ (e.at_ + 2000000 ≤ (s.pass dt).ftNow) ∧ (e.resent = true) ∧ ((∀ y, y ∈ s.bindSent → y.tag ≠ tag)) ∧ (s.work pid = some w) ∧ (s.coll pid = some c) ∧ (w.tags = []) ∧ (w.outs = []) ∧ (w.result = 0)) :=
  ⟨⟨(up), (7), (9), (by decide +kernel)⟩,
   ⟨({ withJob (withGroup (pair 1)) with works := [{ wk 0x1054 [1, 2000000000000] [1, 0, 2, 0, 0x300000004] with stage := .running }], colls := [({ pid := 7, slot := 0, group := 1, cseq := 0, started := true, unacked := [({ tag := 9, msg := default, at_ := 10 ^ 12, resent := false } : Sent)] } : Coll)], tensors := [{ num := 1, slot := 0, tile := 0, page := 1, bytes := 65536, fmt := 2, cplx := false, life := 1, rows := 128, cols := 128, epoch := 0 }, { num := 2, slot := 0, tile := 0, page := 2, bytes := 65536, fmt := 2, cplx := false, life := 1, rows := 128, cols := 128, epoch := 0 }], delivered := [] }), (5), (7), (9), (({ tag := 9, msg := default, at_ := 10 ^ 12, resent := false } : Sent)), (by decide +kernel)⟩,
   ⟨({ withJob (withGroup (pair 1)) with works := [{ wk 0x1054 [1, 2000000000000] [1, 0, 2, 0, 0x300000004] with stage := .running }], colls := [({ pid := 7, slot := 0, group := 1, cseq := 0, started := true, unacked := [({ tag := 9, msg := default, at_ := 9 * 10 ^ 11, resent := false } : Sent)] } : Coll)], tensors := [{ num := 1, slot := 0, tile := 0, page := 1, bytes := 65536, fmt := 2, cplx := false, life := 1, rows := 128, cols := 128, epoch := 0 }, { num := 2, slot := 0, tile := 0, page := 2, bytes := 65536, fmt := 2, cplx := false, life := 1, rows := 128, cols := 128, epoch := 0 }], delivered := [] }), (5), (7), (9), (({ tag := 9, msg := default, at_ := 9 * 10 ^ 11, resent := false } : Sent)), (by decide +kernel)⟩,
   ⟨({ withJob (withGroup (pair 1)) with works := [{ wk 0x1054 [1, 2000000000000] [1, 0, 2, 0, 0x300000004] with stage := .running }], colls := [({ pid := 7, slot := 0, group := 1, cseq := 0, started := true, unacked := [({ tag := 9, msg := default, at_ := 9 * 10 ^ 11, resent := true } : Sent)] } : Coll)], tensors := [{ num := 1, slot := 0, tile := 0, page := 1, bytes := 65536, fmt := 2, cplx := false, life := 1, rows := 128, cols := 128, epoch := 0 }, { num := 2, slot := 0, tile := 0, page := 2, bytes := 65536, fmt := 2, cplx := false, life := 1, rows := 128, cols := 128, epoch := 0 }], delivered := [] }), (5), (7), (9), (({ tag := 9, msg := default, at_ := 9 * 10 ^ 11, resent := true } : Sent)), ({ wk 0x1054 [1, 2000000000000] [1, 0, 2, 0, 0x300000004] with stage := .running }), (({ pid := 7, slot := 0, group := 1, cseq := 0, started := true, unacked := [({ tag := 9, msg := default, at_ := 9 * 10 ^ 11, resent := true } : Sent)] } : Coll)), (by decide +kernel), (by decide +kernel), (by decide +kernel), (by decide +kernel), (by intro y h; cases h), (by decide +kernel)⟩⟩

theorem witness_ReductionsOfIntegers :
    (∃ (xs : List Nat), (xs.length ≤ 4096) ∧ ((∀ x, x ∈ xs → x < 2 ^ 64)))
    ∧ (∃ (xs : List Nat) (ys : List Nat), (xs.length ≤ 4096) ∧ ((∀ x, x ∈ xs → x < 2 ^ 64)) ∧ (xs.Perm ys)) :=
  ⟨⟨([5, 2 ^ 64 - 1]), (by decide +kernel)⟩,
   ⟨([5, 6]), ([6, 5]), (by decide +kernel), (by decide +kernel), (List.Perm.swap _ _ _)⟩⟩

theorem witness_ShardsAndBucketsAreTaken :
    (∃ (s : State) (pid : Nat) (w : Work), (s.stores = []) ∧ (s.handed pid [0x59] = some w) ∧ (w.pkt.declares = true))
    ∧ (∃ (s : State) (dt : Nat) (pid : Nat) (w : Work) (g : _), 
      let m := (s.pass dt).finishMoves
      let d := w.pkt.bdesc
      (s.stores = []) ∧ (s.handed pid [0x59] = some w) ∧ (w.pkt.declares = false) ∧ (s.group (w.slot.getD 0) w.pkt.bdesc.grp = some g) ∧ (m.work pid = some w) ∧ (m.group (w.slot.getD 0) w.pkt.bdesc.grp = some g) ∧ (g.rank s.fabric.mod ≠ d.owner))
    ∧ (∃ (s : State) (dt : Nat) (pid : Nat) (w : Work) (g : _), 
      let m := (s.pass dt).finishMoves
      let j := w.slot.getD 0
      let d := w.pkt.bdesc
      let tile := ((m.tensorKept j d.shard).map fun t => t.tile).getD 0
      (s.stores = []) ∧ (s.handed pid [0x59] = some w) ∧ (w.pkt.declares = false) ∧ (s.group (w.slot.getD 0) w.pkt.bdesc.grp = some g) ∧ (m.work pid = some w) ∧ (m.group (w.slot.getD 0) w.pkt.bdesc.grp = some g) ∧ (g.rank s.fabric.mod = d.owner) ∧ (m.placeBuffer j tile d.count g.size = none) ∧ (j < 4)) :=
  ⟨⟨(busy (wk 0x59 [0x100] [1, 2, 0, 3])), (7), (wk 0x59 [0x100] [1, 2, 0, 3]), (by decide +kernel)⟩,
   ⟨({ withJob (withGroup (pair 1)) with works := [wk 0x1059 [1, 2000000000000, 9] [1, 0, 35188667056132, 0, 1, 0, 0, 0]], tensors := [{ num := 1, slot := 0, tile := 0, page := 1, bytes := 65536, fmt := 2, cplx := false, life := 1, rows := 128, cols := 128, epoch := 0 }, { num := 2, slot := 0, tile := 0, page := 2, bytes := 65536, fmt := 2, cplx := false, life := 1, rows := 128, cols := 128, epoch := 0 }], delivered := [] }), (5), (7), (wk 0x1059 [1, 2000000000000, 9] [1, 0, 35188667056132, 0, 1, 0, 0, 0]), (pair 1), (by decide +kernel), (by decide +kernel)⟩,
   ⟨({ withJob (withGroup (pair 1)) with works := [wk 0x1059 [1, 2000000000000, 9] [1, 0, 8589934591, 0, 1, 0, 0, 0]], tensors := [{ num := 1, slot := 0, tile := 0, page := 1, bytes := 65536, fmt := 2, cplx := false, life := 1, rows := 128, cols := 128, epoch := 0 }, { num := 2, slot := 0, tile := 0, page := 2, bytes := 65536, fmt := 2, cplx := false, life := 1, rows := 128, cols := 128, epoch := 0 }], delivered := [] }), (5), (7), (wk 0x1059 [1, 2000000000000, 9] [1, 0, 8589934591, 0, 1, 0, 0, 0]), (pair 1), (by decide +kernel), (by decide +kernel)⟩⟩

theorem witness_BucketsCollectContributions :
    (∃ (s : State) (dt : Nat) (b : Bucket) (w : Work) (g : Group) (o : OwnerSide) (off : Nat) (qs : List Int) (rest : List (Nat × List Int)), 
      let d := w.pkt.bdesc
      (s.stores = []) ∧ (s.bucket b.pid = some b) ∧ (s.work b.pid = some w) ∧ (s.group (w.slot.getD 0) w.pkt.bdesc.grp = some g) ∧ (w.pkt.group = w.pkt.bdesc.grp) ∧ ((s.buckets.filter fun c => c.pid == b.pid).length = 1) ∧ (b.owner = some o) ∧ (s.buckets.find? (fun b => !b.ownChunks.isEmpty) = some b) ∧ (b.ownChunks = (off, qs) :: rest) ∧ ((d.force = true ∨ (s.pass dt).ftNow < d.dl)))
    ∧ (∃ (s : State) (b : Bucket) (w : Work) (g : Group) (o : OwnerSide) (x : Delivered), 
      let d := w.pkt.bdesc
      (s.stores = []) ∧ (s.bucket b.pid = some b) ∧ (s.work b.pid = some w) ∧ (s.group (w.slot.getD 0) w.pkt.bdesc.grp = some g) ∧ (w.pkt.group = w.pkt.bdesc.grp) ∧ ((s.buckets.filter fun c => c.pid == b.pid).length = 1) ∧ (b.owner = some o) ∧ (s.delivered.find? (fun y => s.chunkReady y.msg) = some x) ∧ (s.msgWork x.msg = some w) ∧ ((d.force = true ∨ x.stamp < d.dl)))
    ∧ (∃ (s : State) (b : Bucket) (w : Work) (g : Group) (o : OwnerSide) (x : Delivered), 
      let d := w.pkt.bdesc
      let r := g.rank x.msg.src
      let o1 := ({ o with members := o.members.mapIdx fun i (m : Standing) => if i = r then { m with voided := true, voidElem := fld (noticeWords x.msg).1 0 32, voidPoison := bitOf (noticeWords x.msg).1 32 } else m } : OwnerSide)
      (s.stores = []) ∧ (s.bucket b.pid = some b) ∧ (s.work b.pid = some w) ∧ (s.group (w.slot.getD 0) w.pkt.bdesc.grp = some g) ∧ (w.pkt.group = w.pkt.bdesc.grp) ∧ ((s.buckets.filter fun c => c.pid == b.pid).length = 1) ∧ (b.owner = some o) ∧ (s.delivered.find? (fun y => s.noticeReady 0x20 true y.msg) = some x) ∧ (s.noticeWork x.msg = some w) ∧ (d.force = false) ∧ (x.stamp < d.dl) ∧ (o.closed = false) ∧ (o1.allIn d w.mask = false))
    ∧ (∃ (s : State) (b : Bucket) (w : Work) (g : Group) (o : OwnerSide) (x : Delivered), 
      let d := w.pkt.bdesc
      let r := g.rank x.msg.src
      let o1 := ({ o with members := o.members.mapIdx fun i (m : Standing) => if i = r then { m with voided := true, voidElem := fld (noticeWords x.msg).1 0 32, voidPoison := bitOf (noticeWords x.msg).1 32 } else m } : OwnerSide)
      (s.stores = []) ∧ (s.bucket b.pid = some b) ∧ (s.work b.pid = some w) ∧ (s.group (w.slot.getD 0) w.pkt.bdesc.grp = some g) ∧ (w.pkt.group = w.pkt.bdesc.grp) ∧ ((s.buckets.filter fun c => c.pid == b.pid).length = 1) ∧ (b.owner = some o) ∧ (s.delivered.find? (fun y => s.noticeReady 0x20 true y.msg) = some x) ∧ (s.noticeWork x.msg = some w) ∧ (d.force = false) ∧ (x.stamp < d.dl) ∧ (o.closed = false) ∧ (o1.allIn d w.mask = true))
    ∧ (∃ (s : State) (b : Bucket) (w : Work) (g : Group) (o : OwnerSide) (x : Delivered), 
      let d := w.pkt.bdesc
      (s.stores = []) ∧ (s.bucket b.pid = some b) ∧ (s.work b.pid = some w) ∧ (s.group (w.slot.getD 0) w.pkt.bdesc.grp = some g) ∧ (w.pkt.group = w.pkt.bdesc.grp) ∧ ((s.buckets.filter fun c => c.pid == b.pid).length = 1) ∧ (b.owner = some o) ∧ (s.delivered.find? (fun y => s.noticeReady 0x20 true y.msg) = some x) ∧ (s.noticeWork x.msg = some w) ∧ (d.force = false) ∧ (x.stamp < d.dl) ∧ (o.closed = true))
    ∧ (∃ (s : State) (dt : Nat) (b : Bucket) (w : Work) (g : Group) (o : OwnerSide), 
      let d := w.pkt.bdesc
      (s.stores = []) ∧ (s.bucket b.pid = some b) ∧ (s.work b.pid = some w) ∧ (s.group (w.slot.getD 0) w.pkt.bdesc.grp = some g) ∧ (w.pkt.group = w.pkt.bdesc.grp) ∧ ((s.buckets.filter fun c => c.pid == b.pid).length = 1) ∧ (b.owner = some o) ∧ (d.force = false) ∧ (d.dl ≤ (s.pass dt).ftNow) ∧ (o.closed = false) ∧ (w.slot.getD 0 < 4))
    ∧ (∃ (s : State) (dt : Nat) (b : Bucket) (w : Work) (g : Group) (o : OwnerSide), 
      let d := w.pkt.bdesc
      let ranked := o.members.mapIdx fun i (m : Standing) => (i, m)
      let counted := (ranked.filter fun x => d.counts w.mask x.1 x.2).map Prod.fst
      (s.stores = []) ∧ (s.bucket b.pid = some b) ∧ (s.work b.pid = some w) ∧ (s.group (w.slot.getD 0) w.pkt.bdesc.grp = some g) ∧ (w.pkt.group = w.pkt.bdesc.grp) ∧ ((s.buckets.filter fun c => c.pid == b.pid).length = 1) ∧ (b.owner = some o) ∧ (d.force = false) ∧ (d.dl ≤ (s.pass dt).ftNow) ∧ (o.closed = false) ∧ (w.slot.getD 0 < 4) ∧ (s.delivered = []) ∧ ((∀ m, m ∈ o.members → m.voided = false)) ∧ (d.min_ ≤ counted.length) ∧ ((∀ x, x ∈ ranked → x.1 ∉ counted → x.2.added ≠ d.count)))
    ∧ (∃ (s : State) (dt : Nat) (b : Bucket) (w : Work) (g : Group) (o : OwnerSide), 
      let d := w.pkt.bdesc
      let ranked := o.members.mapIdx fun i (m : Standing) => (i, m)
      let counted := (ranked.filter fun x => d.counts w.mask x.1 x.2).map Prod.fst
      (s.stores = []) ∧ (s.bucket b.pid = some b) ∧ (s.work b.pid = some w) ∧ (s.group (w.slot.getD 0) w.pkt.bdesc.grp = some g) ∧ (w.pkt.group = w.pkt.bdesc.grp) ∧ ((s.buckets.filter fun c => c.pid == b.pid).length = 1) ∧ (b.owner = some o) ∧ (d.force = false) ∧ (d.dl ≤ (s.pass dt).ftNow) ∧ (o.closed = false) ∧ (w.slot.getD 0 < 4) ∧ (s.delivered = []) ∧ ((∀ m, m ∈ o.members → m.voided = false)) ∧ (counted.length < d.min_) ∧ (o.failed = none) ∧ (s.tensorKept (w.slot.getD 0) d.mask = none) ∧ (w.tags = []) ∧ (w.outs = []))
    ∧ (∃ (s : State) (dt : Nat) (b : Bucket) (w : Work) (g : Group) (o : OwnerSide), 
      let d := w.pkt.bdesc
      (s.stores = []) ∧ (s.bucket b.pid = some b) ∧ (s.work b.pid = some w) ∧ (s.group (w.slot.getD 0) w.pkt.bdesc.grp = some g) ∧ (w.pkt.group = w.pkt.bdesc.grp) ∧ ((s.buckets.filter fun c => c.pid == b.pid).length = 1) ∧ (b.owner = some o) ∧ ((s.pass dt).ftNow < d.dl ∨ d.force = true ∨ o.closed = true ∧ s.delivered = [])) :=
  ⟨⟨({ withJob (withGroup (pair 1)) with works := [wk 0x1059 [1, 2000000000000, 9] [1, 0, 4294967300, 0, 1, 0, 0, 0]], tensors := [{ num := 1, slot := 0, tile := 0, page := 1, bytes := 65536, fmt := 2, cplx := false, life := 1, rows := 128, cols := 128, epoch := 0 }, { num := 2, slot := 0, tile := 0, page := 2, bytes := 65536, fmt := 2, cplx := false, life := 1, rows := 128, cols := 128, epoch := 0 }], buckets := [({ pid := 7, slot := 0, group := 1, cseq := 0, started := true, ownChunks := [(0, [1, 2])], owner := some ({ members := [{  }, {  }], bufTile := 0, bufPage := 9, bufPages := 1 } : OwnerSide) } : Bucket)], delivered := [] }), (5), (({ pid := 7, slot := 0, group := 1, cseq := 0, started := true, ownChunks := [(0, [1, 2])], owner := some ({ members := [{  }, {  }], bufTile := 0, bufPage := 9, bufPages := 1 } : OwnerSide) } : Bucket)), (wk 0x1059 [1, 2000000000000, 9] [1, 0, 4294967300, 0, 1, 0, 0, 0]), (pair 1), (({ members := [{  }, {  }], bufTile := 0, bufPage := 9, bufPages := 1 } : OwnerSide)), (0), ([1, 2]), (([] : List (Nat × List Int))), (by decide +kernel), (by decide +kernel)⟩,
   ⟨({ withJob (withGroup (pair 1)) with works := [wk 0x1059 [1, 2000000000000, 9] [1, 0, 4294967300, 0, 1, 0, 0, 0]], tensors := [{ num := 1, slot := 0, tile := 0, page := 1, bytes := 65536, fmt := 2, cplx := false, life := 1, rows := 128, cols := 128, epoch := 0 }, { num := 2, slot := 0, tile := 0, page := 2, bytes := 65536, fmt := 2, cplx := false, life := 1, rows := 128, cols := 128, epoch := 0 }], buckets := [({ pid := 7, slot := 0, group := 1, cseq := 0, started := true, ownChunks := [], owner := some ({ members := [{  }, {  }], bufTile := 0, bufPage := 9, bufPages := 1 } : OwnerSide) } : Bucket)], delivered := [({ link := 0, stamp := 10 ^ 12, msg := { (default : Msg) with vc := 2, src := 1, job := 5, op := .collective, len := 79, word2 := wd (1 + 2 ^ 32 + 0x59 * 2 ^ 44), data := ([0, 1, 2, 3, 4, 0, 0, 0, 0, 0x04030201] : List Nat).map fun x => encodeWord (wd x) false } } : Delivered)] }), (({ pid := 7, slot := 0, group := 1, cseq := 0, started := true, ownChunks := [], owner := some ({ members := [{  }, {  }], bufTile := 0, bufPage := 9, bufPages := 1 } : OwnerSide) } : Bucket)), (wk 0x1059 [1, 2000000000000, 9] [1, 0, 4294967300, 0, 1, 0, 0, 0]), (pair 1), (({ members := [{  }, {  }], bufTile := 0, bufPage := 9, bufPages := 1 } : OwnerSide)), (({ link := 0, stamp := 10 ^ 12, msg := { (default : Msg) with vc := 2, src := 1, job := 5, op := .collective, len := 79, word2 := wd (1 + 2 ^ 32 + 0x59 * 2 ^ 44), data := ([0, 1, 2, 3, 4, 0, 0, 0, 0, 0x04030201] : List Nat).map fun x => encodeWord (wd x) false } } : Delivered)), (by decide +kernel), (by decide +kernel)⟩,
   ⟨({ withJob (withGroup (pair 1)) with works := [wk 0x1059 [1, 2000000000000, 9] [1, 0, 4, 0, 1, 0, 0, 0]], tensors := [{ num := 1, slot := 0, tile := 0, page := 1, bytes := 65536, fmt := 2, cplx := false, life := 1, rows := 128, cols := 128, epoch := 0 }, { num := 2, slot := 0, tile := 0, page := 2, bytes := 65536, fmt := 2, cplx := false, life := 1, rows := 128, cols := 128, epoch := 0 }], buckets := [({ pid := 7, slot := 0, group := 1, cseq := 0, started := true, ownChunks := [], owner := some ({ members := [{  }, {  }], bufTile := 0, bufPage := 9, bufPages := 1 } : OwnerSide) } : Bucket)], delivered := [({ from1 (.notice 0x120 5 0 false) with msg := { (from1 (.notice 0x120 5 0 false)).msg with job := 5 } } : Delivered)] }), (({ pid := 7, slot := 0, group := 1, cseq := 0, started := true, ownChunks := [], owner := some ({ members := [{  }, {  }], bufTile := 0, bufPage := 9, bufPages := 1 } : OwnerSide) } : Bucket)), (wk 0x1059 [1, 2000000000000, 9] [1, 0, 4, 0, 1, 0, 0, 0]), (pair 1), (({ members := [{  }, {  }], bufTile := 0, bufPage := 9, bufPages := 1 } : OwnerSide)), (({ from1 (.notice 0x120 5 0 false) with msg := { (from1 (.notice 0x120 5 0 false)).msg with job := 5 } } : Delivered)), (by decide +kernel), (by decide +kernel)⟩,
   ⟨({ withJob (withGroup (pair 1)) with works := [wk 0x1059 [1, 2000000000000, 9] [1, 0, 4, 0, 1, 0, 0, 0]], tensors := [{ num := 1, slot := 0, tile := 0, page := 1, bytes := 65536, fmt := 2, cplx := false, life := 1, rows := 128, cols := 128, epoch := 0 }, { num := 2, slot := 0, tile := 0, page := 2, bytes := 65536, fmt := 2, cplx := false, life := 1, rows := 128, cols := 128, epoch := 0 }], buckets := [({ pid := 7, slot := 0, group := 1, cseq := 0, started := true, ownChunks := [], owner := some ({ members := [{ added := 4, complete := some 5 }, {  }], bufTile := 0, bufPage := 9, bufPages := 1 } : OwnerSide) } : Bucket)], delivered := [({ from1 (.notice 0x120 5 0 false) with msg := { (from1 (.notice 0x120 5 0 false)).msg with job := 5 } } : Delivered)] }), (({ pid := 7, slot := 0, group := 1, cseq := 0, started := true, ownChunks := [], owner := some ({ members := [{ added := 4, complete := some 5 }, {  }], bufTile := 0, bufPage := 9, bufPages := 1 } : OwnerSide) } : Bucket)), (wk 0x1059 [1, 2000000000000, 9] [1, 0, 4, 0, 1, 0, 0, 0]), (pair 1), (({ members := [{ added := 4, complete := some 5 }, {  }], bufTile := 0, bufPage := 9, bufPages := 1 } : OwnerSide)), (({ from1 (.notice 0x120 5 0 false) with msg := { (from1 (.notice 0x120 5 0 false)).msg with job := 5 } } : Delivered)), (by decide +kernel), (by decide +kernel)⟩,
   ⟨({ withJob (withGroup (pair 1)) with works := [wk 0x1059 [1, 2000000000000, 9] [1, 0, 4, 0, 1, 0, 0, 0]], tensors := [{ num := 1, slot := 0, tile := 0, page := 1, bytes := 65536, fmt := 2, cplx := false, life := 1, rows := 128, cols := 128, epoch := 0 }, { num := 2, slot := 0, tile := 0, page := 2, bytes := 65536, fmt := 2, cplx := false, life := 1, rows := 128, cols := 128, epoch := 0 }], buckets := [({ pid := 7, slot := 0, group := 1, cseq := 0, started := true, ownChunks := [], owner := some ({ members := [{ added := 4, complete := some 5 }, {  }], bufTile := 0, bufPage := 9, bufPages := 1, closed := true } : OwnerSide) } : Bucket)], delivered := [({ from1 (.notice 0x120 5 0 false) with msg := { (from1 (.notice 0x120 5 0 false)).msg with job := 5 } } : Delivered)] }), (({ pid := 7, slot := 0, group := 1, cseq := 0, started := true, ownChunks := [], owner := some ({ members := [{ added := 4, complete := some 5 }, {  }], bufTile := 0, bufPage := 9, bufPages := 1, closed := true } : OwnerSide) } : Bucket)), (wk 0x1059 [1, 2000000000000, 9] [1, 0, 4, 0, 1, 0, 0, 0]), (pair 1), (({ members := [{ added := 4, complete := some 5 }, {  }], bufTile := 0, bufPage := 9, bufPages := 1, closed := true } : OwnerSide)), (({ from1 (.notice 0x120 5 0 false) with msg := { (from1 (.notice 0x120 5 0 false)).msg with job := 5 } } : Delivered)), (by decide +kernel), (by decide +kernel)⟩,
   ⟨({ withJob (withGroup (pair 1)) with works := [wk 0x1059 [1, 999999000000, 9] [1, 0, 4294967300, 0, 1, 0, 0, 0]], tensors := [{ num := 1, slot := 0, tile := 0, page := 1, bytes := 65536, fmt := 2, cplx := false, life := 1, rows := 128, cols := 128, epoch := 0 }, { num := 2, slot := 0, tile := 0, page := 2, bytes := 65536, fmt := 2, cplx := false, life := 1, rows := 128, cols := 128, epoch := 0 }], buckets := [({ pid := 7, slot := 0, group := 1, cseq := 0, started := true, ownChunks := [], owner := some ({ members := [{ added := 4, complete := some 5 }, { added := 4, complete := some 6 }], bufTile := 0, bufPage := 9, bufPages := 1 } : OwnerSide) } : Bucket)], delivered := [] }), (5), (({ pid := 7, slot := 0, group := 1, cseq := 0, started := true, ownChunks := [], owner := some ({ members := [{ added := 4, complete := some 5 }, { added := 4, complete := some 6 }], bufTile := 0, bufPage := 9, bufPages := 1 } : OwnerSide) } : Bucket)), (wk 0x1059 [1, 999999000000, 9] [1, 0, 4294967300, 0, 1, 0, 0, 0]), (pair 1), (({ members := [{ added := 4, complete := some 5 }, { added := 4, complete := some 6 }], bufTile := 0, bufPage := 9, bufPages := 1 } : OwnerSide)), (by decide +kernel), (by decide +kernel)⟩,
   ⟨({ withJob (withGroup (pair 1)) with works := [wk 0x1059 [1, 999999000000, 9] [1, 0, 4294967300, 0, 1, 0, 0, 0]], tensors := [{ num := 1, slot := 0, tile := 0, page := 1, bytes := 65536, fmt := 2, cplx := false, life := 1, rows := 128, cols := 128, epoch := 0 }, { num := 2, slot := 0, tile := 0, page := 2, bytes := 65536, fmt := 2, cplx := false, life := 1, rows := 128, cols := 128, epoch := 0 }], buckets := [({ pid := 7, slot := 0, group := 1, cseq := 0, started := true, ownChunks := [], owner := some ({ members := [{ added := 4, complete := some 5 }, { added := 4, complete := some 6 }], bufTile := 0, bufPage := 9, bufPages := 1 } : OwnerSide) } : Bucket)], delivered := [] }), (5), (({ pid := 7, slot := 0, group := 1, cseq := 0, started := true, ownChunks := [], owner := some ({ members := [{ added := 4, complete := some 5 }, { added := 4, complete := some 6 }], bufTile := 0, bufPage := 9, bufPages := 1 } : OwnerSide) } : Bucket)), (wk 0x1059 [1, 999999000000, 9] [1, 0, 4294967300, 0, 1, 0, 0, 0]), (pair 1), (({ members := [{ added := 4, complete := some 5 }, { added := 4, complete := some 6 }], bufTile := 0, bufPage := 9, bufPages := 1 } : OwnerSide)), (by decide +kernel), (by decide +kernel)⟩,
   ⟨({ withJob (withGroup (pair 1)) with works := [wk 0x1059 [1, 999999000000, 9] [1, 0, 4294967300, 0, 1, 0, 0, 0]], tensors := [{ num := 1, slot := 0, tile := 0, page := 1, bytes := 65536, fmt := 2, cplx := false, life := 1, rows := 128, cols := 128, epoch := 0 }, { num := 2, slot := 0, tile := 0, page := 2, bytes := 65536, fmt := 2, cplx := false, life := 1, rows := 128, cols := 128, epoch := 0 }], buckets := [({ pid := 7, slot := 0, group := 1, cseq := 0, started := true, ownChunks := [], owner := some ({ members := [{  }, {  }], bufTile := 0, bufPage := 9, bufPages := 1 } : OwnerSide) } : Bucket)], delivered := [] }), (5), (({ pid := 7, slot := 0, group := 1, cseq := 0, started := true, ownChunks := [], owner := some ({ members := [{  }, {  }], bufTile := 0, bufPage := 9, bufPages := 1 } : OwnerSide) } : Bucket)), (wk 0x1059 [1, 999999000000, 9] [1, 0, 4294967300, 0, 1, 0, 0, 0]), (pair 1), (({ members := [{  }, {  }], bufTile := 0, bufPage := 9, bufPages := 1 } : OwnerSide)), (by decide +kernel), (by decide +kernel)⟩,
   ⟨({ withJob (withGroup (pair 1)) with works := [wk 0x1059 [1, 2000000000000, 9] [1, 0, 4294967300, 0, 1, 0, 0, 0]], tensors := [{ num := 1, slot := 0, tile := 0, page := 1, bytes := 65536, fmt := 2, cplx := false, life := 1, rows := 128, cols := 128, epoch := 0 }, { num := 2, slot := 0, tile := 0, page := 2, bytes := 65536, fmt := 2, cplx := false, life := 1, rows := 128, cols := 128, epoch := 0 }], buckets := [({ pid := 7, slot := 0, group := 1, cseq := 0, started := true, ownChunks := [], owner := some ({ members := [{  }, {  }], bufTile := 0, bufPage := 9, bufPages := 1 } : OwnerSide) } : Bucket)], delivered := [] }), (5), (({ pid := 7, slot := 0, group := 1, cseq := 0, started := true, ownChunks := [], owner := some ({ members := [{  }, {  }], bufTile := 0, bufPage := 9, bufPages := 1 } : OwnerSide) } : Bucket)), (wk 0x1059 [1, 2000000000000, 9] [1, 0, 4294967300, 0, 1, 0, 0, 0]), (pair 1), (({ members := [{  }, {  }], bufTile := 0, bufPage := 9, bufPages := 1 } : OwnerSide)), (by decide +kernel), (by decide +kernel)⟩⟩

theorem witness_MembersSendAgain :
    (∃ (s : State) (x : _), (s.stores = []) ∧ (s.delivered.find? (fun y => s.noticeReady 0x21 false y.msg) = some x) ∧ (s.noticeWork x.msg = none))
    ∧ (∃ (s : State) (x : _), (s.stores = []) ∧ (s.delivered.find? (fun y => s.noticeReady 0x23 false y.msg) = some x) ∧ (s.noticeWork x.msg = none))
    ∧ (∃ (s : State) (x : _), (s.stores = []) ∧ (s.delivered.find? (fun y => s.noticeReady 0x20 true y.msg) = some x) ∧ (s.noticeWork x.msg = none))
    ∧ (∃ (s : State) (x : _) (w : _) (b : _) (g : _) (u : _) (e : _) (gt : _), (s.stores = []) ∧ (s.noticeWork x.msg = some w) ∧ (s.work w.pid = some w) ∧ (s.bucket w.pid = some b) ∧ ((s.buckets.filter fun c => c.pid == w.pid).length = 1) ∧ (s.group (w.slot.getD 0) w.pkt.group = some g) ∧ (w.pkt.bdesc.grp = w.pkt.group) ∧ ((s.job (w.slot.getD 0)).scaleGroup w.pkt.bdesc.sgroup = some u) ∧ (u.exp = some e) ∧ (s.tensorKept (w.slot.getD 0) w.pkt.bdesc.grad = some gt) ∧ (s.delivered.find? (fun y => s.noticeReady 0x21 false y.msg) = some x))
    ∧ (∃ (s : State) (x : _) (w : _) (b : _) (g : _) (u : _) (e : _) (gt : _), (s.stores = []) ∧ (s.noticeWork x.msg = some w) ∧ (s.work w.pid = some w) ∧ (s.bucket w.pid = some b) ∧ ((s.buckets.filter fun c => c.pid == w.pid).length = 1) ∧ (s.group (w.slot.getD 0) w.pkt.group = some g) ∧ (w.pkt.bdesc.grp = w.pkt.group) ∧ ((s.job (w.slot.getD 0)).scaleGroup w.pkt.bdesc.sgroup = some u) ∧ (u.exp = some e) ∧ (s.tensorKept (w.slot.getD 0) w.pkt.bdesc.grad = some gt) ∧ (s.delivered.find? (fun y => s.noticeReady 0x23 false y.msg) = some x)) :=
  ⟨⟨({ withJob theJob with delivered := [({ from1 (.notice 0x121 0 0 false) with msg := { (from1 (.notice 0x121 0 0 false)).msg with job := 5 } } : Delivered)] }), (({ from1 (.notice 0x121 0 0 false) with msg := { (from1 (.notice 0x121 0 0 false)).msg with job := 5 } } : Delivered)), (by decide +kernel)⟩,
   ⟨({ withJob theJob with delivered := [({ from1 (.notice 0x123 0 0 false) with msg := { (from1 (.notice 0x123 0 0 false)).msg with job := 5 } } : Delivered)] }), (({ from1 (.notice 0x123 0 0 false) with msg := { (from1 (.notice 0x123 0 0 false)).msg with job := 5 } } : Delivered)), (by decide +kernel)⟩,
   ⟨({ withJob theJob with delivered := [({ from1 (.notice 0x120 0 0 false) with msg := { (from1 (.notice 0x120 0 0 false)).msg with job := 5 } } : Delivered)] }), (({ from1 (.notice 0x120 0 0 false) with msg := { (from1 (.notice 0x120 0 0 false)).msg with job := 5 } } : Delivered)), (by decide +kernel)⟩,
   ⟨({ withJob ({ withGroup (pair 1) with scales := [{ sgroup := 0, group := 1, grad := 1, off := 0, units := 1, exp := some 0 }] }) with works := [wk 0x1059 [1, 2000000000000, 9] [1, 0, 35188667056132, 0, 1, 0, 0, 0]], tensors := [{ num := 1, slot := 0, tile := 0, page := 1, bytes := 65536, fmt := 2, cplx := false, life := 1, rows := 128, cols := 128, epoch := 0 }, { num := 2, slot := 0, tile := 0, page := 2, bytes := 65536, fmt := 2, cplx := false, life := 1, rows := 128, cols := 128, epoch := 0 }], buckets := [({ pid := 7, slot := 0, group := 1, cseq := 0, started := true, ownChunks := [], owner := none } : Bucket)], delivered := [({ from1 (.notice 0x121 0 0 false) with msg := { (from1 (.notice 0x121 0 0 false)).msg with job := 5 } } : Delivered)] }), (({ from1 (.notice 0x121 0 0 false) with msg := { (from1 (.notice 0x121 0 0 false)).msg with job := 5 } } : Delivered)), (wk 0x1059 [1, 2000000000000, 9] [1, 0, 35188667056132, 0, 1, 0, 0, 0]), (({ pid := 7, slot := 0, group := 1, cseq := 0, started := true, ownChunks := [], owner := none } : Bucket)), (pair 1), (({ sgroup := 0, group := 1, grad := 1, off := 0, units := 1, exp := some 0 } : ScaleGroup)), ((0 : Int)), (({ num := 1, slot := 0, tile := 0, page := 1, bytes := 65536, fmt := 2, cplx := false, life := 1, rows := 128, cols := 128, epoch := 0 } : Tensor)), (by decide +kernel)⟩,
   ⟨({ withJob ({ withGroup (pair 1) with scales := [{ sgroup := 0, group := 1, grad := 1, off := 0, units := 1, exp := some 0 }] }) with works := [wk 0x1059 [1, 2000000000000, 9] [1, 0, 35188667056132, 0, 1, 0, 0, 0]], tensors := [{ num := 1, slot := 0, tile := 0, page := 1, bytes := 65536, fmt := 2, cplx := false, life := 1, rows := 128, cols := 128, epoch := 0 }, { num := 2, slot := 0, tile := 0, page := 2, bytes := 65536, fmt := 2, cplx := false, life := 1, rows := 128, cols := 128, epoch := 0 }], buckets := [({ pid := 7, slot := 0, group := 1, cseq := 0, started := true, ownChunks := [], owner := none } : Bucket)], delivered := [({ from1 (.notice 0x123 0 0 false) with msg := { (from1 (.notice 0x123 0 0 false)).msg with job := 5 } } : Delivered)] }), (({ from1 (.notice 0x123 0 0 false) with msg := { (from1 (.notice 0x123 0 0 false)).msg with job := 5 } } : Delivered)), (wk 0x1059 [1, 2000000000000, 9] [1, 0, 35188667056132, 0, 1, 0, 0, 0]), (({ pid := 7, slot := 0, group := 1, cseq := 0, started := true, ownChunks := [], owner := none } : Bucket)), (pair 1), (({ sgroup := 0, group := 1, grad := 1, off := 0, units := 1, exp := some 0 } : ScaleGroup)), ((0 : Int)), (({ num := 1, slot := 0, tile := 0, page := 1, bytes := 65536, fmt := 2, cplx := false, life := 1, rows := 128, cols := 128, epoch := 0 } : Tensor)), (by decide +kernel)⟩⟩

theorem witness_OwnersCheckAndOptimize :
    (∃ (s : State) (dt : Nat) (pid : Nat) (w : Work) (b : Bucket) (o : OwnerSide) (g : Group) (u : _) (e : _), 
      let j := w.slot.getD 0
      let d := w.pkt.bdesc
      let m := (s.pass dt).finishMoves
      (s.stores = []) ∧ (s.work pid = some w) ∧ (s.bucket pid = some b) ∧ ((s.buckets.filter fun c => c.pid == pid).length = 1) ∧ ((s.works.filter fun v => v.pid == pid).length = 1) ∧ (b.owner = some o) ∧ (s.group (w.slot.getD 0) w.pkt.bdesc.grp = some g) ∧ (m.work pid = some w) ∧ ((s.job j).scaleGroup d.sgroup = some u) ∧ (u.exp = some e) ∧ (o.settled d = false ∨ o.mean.isSome = true ∨ s.ownerCore j o = none))
    ∧ (∃ (s : State) (dt : Nat) (pid : Nat) (w : Work) (b : Bucket) (o : OwnerSide) (g : Group) (u : _) (e : _) (core : _), 
      let j := w.slot.getD 0
      let d := w.pkt.bdesc
      let m := (s.pass dt).finishMoves
      let r := m.readWords o.bufTile o.base w.dma (bufferWords d g.size)
      (s.stores = []) ∧ (s.work pid = some w) ∧ (s.bucket pid = some b) ∧ ((s.buckets.filter fun c => c.pid == pid).length = 1) ∧ ((s.works.filter fun v => v.pid == pid).length = 1) ∧ (b.owner = some o) ∧ (s.group (w.slot.getD 0) w.pkt.bdesc.grp = some g) ∧ (m.work pid = some w) ∧ ((s.job j).scaleGroup d.sgroup = some u) ∧ (u.exp = some e) ∧ (o.settled d = true) ∧ (o.mean = none) ∧ (s.ownerCore j o = some core) ∧ (bufferFlaw r.1 d.count = none))
    ∧ (∃ (s : State) (dt : Nat) (pid : Nat) (w : Work) (b : Bucket) (o : OwnerSide) (g : Group) (u : _) (e : _) (core : _) (i : _), 
      let j := w.slot.getD 0
      let d := w.pkt.bdesc
      let m := (s.pass dt).finishMoves
      let r := m.readWords o.bufTile o.base w.dma (bufferWords d g.size)
      (s.stores = []) ∧ (s.work pid = some w) ∧ (s.bucket pid = some b) ∧ ((s.buckets.filter fun c => c.pid == pid).length = 1) ∧ ((s.works.filter fun v => v.pid == pid).length = 1) ∧ (b.owner = some o) ∧ (s.group (w.slot.getD 0) w.pkt.bdesc.grp = some g) ∧ (m.work pid = some w) ∧ ((s.job j).scaleGroup d.sgroup = some u) ∧ (u.exp = some e) ∧ (o.settled d = true) ∧ (o.mean = none) ∧ (s.ownerCore j o = some core) ∧ (bufferFlaw r.1 d.count = some i) ∧ (o.collects = 0) ∧ (j < 4))
    ∧ (∃ (s : State) (dt : Nat) (pid : Nat) (w : Work) (b : Bucket) (o : OwnerSide) (g : Group) (u : _) (e : _) (core : _) (i : _), 
      let j := w.slot.getD 0
      let d := w.pkt.bdesc
      let m := (s.pass dt).finishMoves
      let r := m.readWords o.bufTile o.base w.dma (bufferWords d g.size)
      (s.stores = []) ∧ (s.work pid = some w) ∧ (s.bucket pid = some b) ∧ ((s.buckets.filter fun c => c.pid == pid).length = 1) ∧ ((s.works.filter fun v => v.pid == pid).length = 1) ∧ (b.owner = some o) ∧ (s.group (w.slot.getD 0) w.pkt.bdesc.grp = some g) ∧ (m.work pid = some w) ∧ ((s.job j).scaleGroup d.sgroup = some u) ∧ (u.exp = some e) ∧ (o.settled d = true) ∧ (o.mean = none) ∧ (s.ownerCore j o = some core) ∧ (bufferFlaw r.1 d.count = some i) ∧ (o.collects ≠ 0) ∧ (s.tensorKept j d.mask = none) ∧ (w.tags = []) ∧ (w.outs = []) ∧ (w.items = []))
    ∧ (∃ (s : State) (dt : Nat) (pid : Nat) (w : Work) (b : Bucket) (o : OwnerSide) (g : Group) (h : _), 
      let j := w.slot.getD 0
      let d := w.pkt.bdesc
      let m := (s.pass dt).finishMoves
      (s.stores = []) ∧ (s.work pid = some w) ∧ (s.bucket pid = some b) ∧ ((s.buckets.filter fun c => c.pid == pid).length = 1) ∧ ((s.works.filter fun v => v.pid == pid).length = 1) ∧ (b.owner = some o) ∧ (s.group (w.slot.getD 0) w.pkt.bdesc.grp = some g) ∧ (m.work pid = some w) ∧ (s.bucketShard w d = some h) ∧ (o.mean = none ∨ o.program.isSome = true ∨ s.gatherReads j h = true ∨ (s.copyInWay j = true ∧ (s.job j).shadow.stall = true) ∨ s.ownerCore j o = none))
    ∧ (∃ (s : State) (dt : Nat) (pid : Nat) (w : Work) (b : Bucket) (o : OwnerSide) (g : Group) (h : _) (core : _) (u : _), 
      let j := w.slot.getD 0
      let d := w.pkt.bdesc
      let m := (s.pass dt).finishMoves
      (s.stores = []) ∧ (s.work pid = some w) ∧ (s.bucket pid = some b) ∧ ((s.buckets.filter fun c => c.pid == pid).length = 1) ∧ ((s.works.filter fun v => v.pid == pid).length = 1) ∧ (b.owner = some o) ∧ (s.group (w.slot.getD 0) w.pkt.bdesc.grp = some g) ∧ (m.work pid = some w) ∧ (s.bucketShard w d = some h) ∧ (o.mean.isSome = true) ∧ (o.program = none) ∧ (s.gatherReads j h = false) ∧ ((s.copyInWay j && (s.job j).shadow.stall) = false) ∧ (s.ownerCore j o = some core) ∧ (w.outs = []) ∧ ((s.pass dt).fetchRanges (w.ctx core) (s.optReads w h d) = some u))
    ∧ (∃ (s : State) (dt : Nat) (pid : Nat) (w : Work) (b : Bucket) (o : OwnerSide) (g : Group) (h : _) (core : _), 
      let j := w.slot.getD 0
      let d := w.pkt.bdesc
      let m := (s.pass dt).finishMoves
      let n := if m.copyInWay j then m.endCopy j else m
      let found := n.tensors.find? fun t => t.num == h.prog && t.slot == j
      (s.stores = []) ∧ (s.work pid = some w) ∧ (s.bucket pid = some b) ∧ ((s.buckets.filter fun c => c.pid == pid).length = 1) ∧ ((s.works.filter fun v => v.pid == pid).length = 1) ∧ (b.owner = some o) ∧ (s.group (w.slot.getD 0) w.pkt.bdesc.grp = some g) ∧ (m.work pid = some w) ∧ (s.bucketShard w d = some h) ∧ (o.mean.isSome = true) ∧ (o.program = none) ∧ (s.gatherReads j h = false) ∧ ((s.copyInWay j && (s.job j).shadow.stall) = false) ∧ (s.ownerCore j o = some core) ∧ (w.outs = []) ∧ ((s.pass dt).fetchRanges (w.ctx core) (s.optReads w h d) = none) ∧ (n.work pid = some w) ∧ (found = none) ∧ (n.tensorKept j d.mask = none) ∧ (w.tags = []))
    ∧ (∃ (s : State) (dt : Nat) (pid : Nat) (w : Work) (b : Bucket) (o : OwnerSide) (g : Group) (h : _) (core : _) (pt : _), 
      let j := w.slot.getD 0
      let d := w.pkt.bdesc
      let m := (s.pass dt).finishMoves
      let n := if m.copyInWay j then m.endCopy j else m
      let found := n.tensors.find? fun t => t.num == h.prog && t.slot == j
      let q := n.steer pt core pt.bytes (w.ctx core)
      let sound := pt.bytes % 16 = 0 ∧ 16 ≤ pt.bytes ∧ pt.bytes ≤ 16384 ∧ vprogramOk h.argCount q.words = true ∧ vreduceOk h.argCount (vprogram q.words) = true
      (s.stores = []) ∧ (s.work pid = some w) ∧ (s.bucket pid = some b) ∧ ((s.buckets.filter fun c => c.pid == pid).length = 1) ∧ ((s.works.filter fun v => v.pid == pid).length = 1) ∧ (b.owner = some o) ∧ (s.group (w.slot.getD 0) w.pkt.bdesc.grp = some g) ∧ (m.work pid = some w) ∧ (s.bucketShard w d = some h) ∧ (o.mean.isSome = true) ∧ (o.program = none) ∧ (s.gatherReads j h = false) ∧ ((s.copyInWay j && (s.job j).shadow.stall) = false) ∧ (s.ownerCore j o = some core) ∧ (w.outs = []) ∧ ((s.pass dt).fetchRanges (w.ctx core) (s.optReads w h d) = none) ∧ (n.work pid = some w) ∧ (found = some pt) ∧ (n.tensorCheck (w.ctx core) .read pt pt.bytes = none) ∧ (q.bad = false) ∧ (sound))
    ∧ (∃ (s : State) (dt : Nat) (pid : Nat) (w : Work) (b : Bucket) (o : OwnerSide) (g : Group) (h : _) (core : _) (pt : _), 
      let j := w.slot.getD 0
      let d := w.pkt.bdesc
      let m := (s.pass dt).finishMoves
      let n := if m.copyInWay j then m.endCopy j else m
      let found := n.tensors.find? fun t => t.num == h.prog && t.slot == j
      let q := n.steer pt core pt.bytes (w.ctx core)
      let sound := pt.bytes % 16 = 0 ∧ 16 ≤ pt.bytes ∧ pt.bytes ≤ 16384 ∧ vprogramOk h.argCount q.words = true ∧ vreduceOk h.argCount (vprogram q.words) = true
      (s.stores = []) ∧ (s.work pid = some w) ∧ (s.bucket pid = some b) ∧ ((s.buckets.filter fun c => c.pid == pid).length = 1) ∧ ((s.works.filter fun v => v.pid == pid).length = 1) ∧ (b.owner = some o) ∧ (s.group (w.slot.getD 0) w.pkt.bdesc.grp = some g) ∧ (m.work pid = some w) ∧ (s.bucketShard w d = some h) ∧ (o.mean.isSome = true) ∧ (o.program = none) ∧ (s.gatherReads j h = false) ∧ ((s.copyInWay j && (s.job j).shadow.stall) = false) ∧ (s.ownerCore j o = some core) ∧ (w.outs = []) ∧ ((s.pass dt).fetchRanges (w.ctx core) (s.optReads w h d) = none) ∧ (n.work pid = some w) ∧ (found = some pt) ∧ (n.tensorCheck (w.ctx core) .read pt pt.bytes = none) ∧ (q.bad = true ∨ ¬ sound))
    ∧ (∃ (s : State) (dt : Nat) (pid : Nat) (w : Work) (b : Bucket) (o : OwnerSide) (g : Group) (h : _), 
      let j := w.slot.getD 0
      let d := w.pkt.bdesc
      let m := (s.pass dt).finishMoves
      (s.stores = []) ∧ (s.work pid = some w) ∧ (s.bucket pid = some b) ∧ ((s.buckets.filter fun c => c.pid == pid).length = 1) ∧ ((s.works.filter fun v => v.pid == pid).length = 1) ∧ (b.owner = some o) ∧ (s.group (w.slot.getD 0) w.pkt.bdesc.grp = some g) ∧ (m.work pid = some w) ∧ (s.bucketShard w d = some h) ∧ (o.program = none ∨ s.ownerCore j o = none))
    ∧ (∃ (s : State) (dt : Nat) (pid : Nat) (w : Work) (b : Bucket) (o : OwnerSide) (g : Group) (h : _) (words : _) (core : _), 
      let j := w.slot.getD 0
      let d := w.pkt.bdesc
      let m := (s.pass dt).finishMoves
      (s.stores = []) ∧ (s.work pid = some w) ∧ (s.bucket pid = some b) ∧ ((s.buckets.filter fun c => c.pid == pid).length = 1) ∧ ((s.works.filter fun v => v.pid == pid).length = 1) ∧ (b.owner = some o) ∧ (s.group (w.slot.getD 0) w.pkt.bdesc.grp = some g) ∧ (m.work pid = some w) ∧ (s.bucketShard w d = some h) ∧ (o.program = some words) ∧ (s.ownerCore j o = some core)) :=
  ⟨⟨({ withJob ({ withGroup (pair 1) with scales := [{ sgroup := 0, group := 1, grad := 1, off := 0, units := 1, exp := some 0 }] }) with works := [wk 0x1059 [1, 2000000000000, 9] [1, 0, 4294967300, 0, 1, 0, 0, 0]], tensors := [{ num := 1, slot := 0, tile := 0, page := 1, bytes := 65536, fmt := 2, cplx := false, life := 1, rows := 128, cols := 128, epoch := 0 }, { num := 2, slot := 0, tile := 0, page := 2, bytes := 65536, fmt := 2, cplx := false, life := 1, rows := 128, cols := 128, epoch := 0 }], buckets := [({ pid := 7, slot := 0, group := 1, cseq := 0, started := true, ownChunks := [], owner := some ({ members := [{  }, {  }], bufTile := 0, bufPage := 9, bufPages := 1 } : OwnerSide) } : Bucket)], delivered := [], shards := [({ slot := 0, param := 1, master := 2, state := 0, prog := 3, hyper := [], elems := 4, pfmt := 2, states := 0, kept := 1 } : Shard)] }), (5), (7), (wk 0x1059 [1, 2000000000000, 9] [1, 0, 4294967300, 0, 1, 0, 0, 0]), (({ pid := 7, slot := 0, group := 1, cseq := 0, started := true, ownChunks := [], owner := some ({ members := [{  }, {  }], bufTile := 0, bufPage := 9, bufPages := 1 } : OwnerSide) } : Bucket)), (({ members := [{  }, {  }], bufTile := 0, bufPage := 9, bufPages := 1 } : OwnerSide)), (pair 1), (({ sgroup := 0, group := 1, grad := 1, off := 0, units := 1, exp := some 0 } : ScaleGroup)), ((0 : Int)), (by decide +kernel), (by decide +kernel)⟩,
   ⟨({ withJob ({ withGroup (pair 1) with scales := [{ sgroup := 0, group := 1, grad := 1, off := 0, units := 1, exp := some 0 }] }) with works := [wk 0x1059 [1, 2000000000000, 9] [1, 0, 4294967300, 0, 1, 0, 0, 0]], tensors := [{ num := 1, slot := 0, tile := 0, page := 1, bytes := 65536, fmt := 2, cplx := false, life := 1, rows := 128, cols := 128, epoch := 0 }, { num := 2, slot := 0, tile := 0, page := 2, bytes := 65536, fmt := 2, cplx := false, life := 1, rows := 128, cols := 128, epoch := 0 }], buckets := [({ pid := 7, slot := 0, group := 1, cseq := 0, started := true, ownChunks := [], owner := some ({ members := [{ added := 4, complete := some 5 }, { added := 4, complete := some 6 }], bufTile := 0, bufPage := 9, bufPages := 1, closed := true, counted := [0, 1] } : OwnerSide) } : Bucket)], delivered := [], shards := [({ slot := 0, param := 1, master := 2, state := 0, prog := 3, hyper := [], elems := 4, pfmt := 2, states := 0, kept := 1 } : Shard)] }), (5), (7), (wk 0x1059 [1, 2000000000000, 9] [1, 0, 4294967300, 0, 1, 0, 0, 0]), (({ pid := 7, slot := 0, group := 1, cseq := 0, started := true, ownChunks := [], owner := some ({ members := [{ added := 4, complete := some 5 }, { added := 4, complete := some 6 }], bufTile := 0, bufPage := 9, bufPages := 1, closed := true, counted := [0, 1] } : OwnerSide) } : Bucket)), (({ members := [{ added := 4, complete := some 5 }, { added := 4, complete := some 6 }], bufTile := 0, bufPage := 9, bufPages := 1, closed := true, counted := [0, 1] } : OwnerSide)), (pair 1), (({ sgroup := 0, group := 1, grad := 1, off := 0, units := 1, exp := some 0 } : ScaleGroup)), ((0 : Int)), (0), (by decide +kernel), (by decide +kernel)⟩,
   ⟨({ withJob ({ withGroup (pair 1) with scales := [{ sgroup := 0, group := 1, grad := 1, off := 0, units := 1, exp := some 0 }] }) with works := [wk 0x1059 [1, 2000000000000, 9] [1, 0, 4294967300, 0, 1, 0, 0, 0]], tensors := [{ num := 1, slot := 0, tile := 0, page := 1, bytes := 65536, fmt := 2, cplx := false, life := 1, rows := 128, cols := 128, epoch := 0 }, { num := 2, slot := 0, tile := 0, page := 2, bytes := 65536, fmt := 2, cplx := false, life := 1, rows := 128, cols := 128, epoch := 0 }], buckets := [({ pid := 7, slot := 0, group := 1, cseq := 0, started := true, ownChunks := [], owner := some ({ members := [{ added := 4, complete := some 5 }, { added := 4, complete := some 6 }], bufTile := 0, bufPage := 9, bufPages := 1, closed := true, counted := [0, 1] } : OwnerSide) } : Bucket)], delivered := [], shards := [({ slot := 0, param := 1, master := 2, state := 0, prog := 3, hyper := [], elems := 4, pfmt := 2, states := 0, kept := 1 } : Shard)], mem := (((natBytes 10 (encodeWord 1 false).toNat).mapIdx fun i b => (10 * placeKey (.dram 0 9 0 0) + i, b))).filter fun c => c.2 ≠ 0 }), (5), (7), (wk 0x1059 [1, 2000000000000, 9] [1, 0, 4294967300, 0, 1, 0, 0, 0]), (({ pid := 7, slot := 0, group := 1, cseq := 0, started := true, ownChunks := [], owner := some ({ members := [{ added := 4, complete := some 5 }, { added := 4, complete := some 6 }], bufTile := 0, bufPage := 9, bufPages := 1, closed := true, counted := [0, 1] } : OwnerSide) } : Bucket)), (({ members := [{ added := 4, complete := some 5 }, { added := 4, complete := some 6 }], bufTile := 0, bufPage := 9, bufPages := 1, closed := true, counted := [0, 1] } : OwnerSide)), (pair 1), (({ sgroup := 0, group := 1, grad := 1, off := 0, units := 1, exp := some 0 } : ScaleGroup)), ((0 : Int)), (0), ((0 : Nat)), (by decide +kernel), (by decide +kernel)⟩,
   ⟨({ withJob ({ withGroup (pair 1) with scales := [{ sgroup := 0, group := 1, grad := 1, off := 0, units := 1, exp := some 0 }] }) with works := [wk 0x1059 [1, 2000000000000, 9] [1, 0, 4294967300, 0, 1, 0, 0, 0]], tensors := [{ num := 1, slot := 0, tile := 0, page := 1, bytes := 65536, fmt := 2, cplx := false, life := 1, rows := 128, cols := 128, epoch := 0 }, { num := 2, slot := 0, tile := 0, page := 2, bytes := 65536, fmt := 2, cplx := false, life := 1, rows := 128, cols := 128, epoch := 0 }], buckets := [({ pid := 7, slot := 0, group := 1, cseq := 0, started := true, ownChunks := [], owner := some ({ members := [{ added := 4, complete := some 5 }, { added := 4, complete := some 6 }], bufTile := 0, bufPage := 9, bufPages := 1, closed := true, counted := [0, 1], collects := 1 } : OwnerSide) } : Bucket)], delivered := [], shards := [({ slot := 0, param := 1, master := 2, state := 0, prog := 3, hyper := [], elems := 4, pfmt := 2, states := 0, kept := 1 } : Shard)], mem := (((natBytes 10 (encodeWord 1 false).toNat).mapIdx fun i b => (10 * placeKey (.dram 0 9 0 0) + i, b))).filter fun c => c.2 ≠ 0 }), (5), (7), (wk 0x1059 [1, 2000000000000, 9] [1, 0, 4294967300, 0, 1, 0, 0, 0]), (({ pid := 7, slot := 0, group := 1, cseq := 0, started := true, ownChunks := [], owner := some ({ members := [{ added := 4, complete := some 5 }, { added := 4, complete := some 6 }], bufTile := 0, bufPage := 9, bufPages := 1, closed := true, counted := [0, 1], collects := 1 } : OwnerSide) } : Bucket)), (({ members := [{ added := 4, complete := some 5 }, { added := 4, complete := some 6 }], bufTile := 0, bufPage := 9, bufPages := 1, closed := true, counted := [0, 1], collects := 1 } : OwnerSide)), (pair 1), (({ sgroup := 0, group := 1, grad := 1, off := 0, units := 1, exp := some 0 } : ScaleGroup)), ((0 : Int)), (0), ((0 : Nat)), (by decide +kernel), (by decide +kernel)⟩,
   ⟨({ withJob ({ withGroup (pair 1) with scales := [{ sgroup := 0, group := 1, grad := 1, off := 0, units := 1, exp := some 0 }] }) with works := [wk 0x1059 [1, 2000000000000, 9] [1, 0, 4294967300, 0, 1, 0, 0, 0]], tensors := [{ num := 1, slot := 0, tile := 0, page := 1, bytes := 65536, fmt := 2, cplx := false, life := 1, rows := 128, cols := 128, epoch := 0 }, { num := 2, slot := 0, tile := 0, page := 2, bytes := 65536, fmt := 2, cplx := false, life := 1, rows := 128, cols := 128, epoch := 0 }], buckets := [({ pid := 7, slot := 0, group := 1, cseq := 0, started := true, ownChunks := [], owner := some ({ members := [{  }, {  }], bufTile := 0, bufPage := 9, bufPages := 1 } : OwnerSide) } : Bucket)], delivered := [], shards := [({ slot := 0, param := 1, master := 2, state := 0, prog := 3, hyper := [], elems := 4, pfmt := 2, states := 0, kept := 1 } : Shard)] }), (5), (7), (wk 0x1059 [1, 2000000000000, 9] [1, 0, 4294967300, 0, 1, 0, 0, 0]), (({ pid := 7, slot := 0, group := 1, cseq := 0, started := true, ownChunks := [], owner := some ({ members := [{  }, {  }], bufTile := 0, bufPage := 9, bufPages := 1 } : OwnerSide) } : Bucket)), (({ members := [{  }, {  }], bufTile := 0, bufPage := 9, bufPages := 1 } : OwnerSide)), (pair 1), (({ slot := 0, param := 1, master := 2, state := 0, prog := 3, hyper := [], elems := 4, pfmt := 2, states := 0, kept := 1 } : Shard)), (by decide +kernel), (by decide +kernel)⟩,
   ⟨({ withJob ({ withGroup (pair 1) with scales := [{ sgroup := 0, group := 1, grad := 1, off := 0, units := 1, exp := some 0 }] }) with works := [wk 0x1059 [1, 2000000000000, 9] [1, 0, 4294967300, 0, 1, 0, 0, 0]], tensors := [{ num := 1, slot := 0, tile := 0, page := 1, bytes := 65536, fmt := 2, cplx := false, life := 1, rows := 128, cols := 128, epoch := 0 }, { num := 2, slot := 0, tile := 0, page := 2, bytes := 65536, fmt := 2, cplx := false, life := 1, rows := 128, cols := 128, epoch := 0 }, tns 3 (some 0x1001000000000000)], buckets := [({ pid := 7, slot := 0, group := 1, cseq := 0, started := true, ownChunks := [], owner := some ({ members := [{ added := 4, complete := some 5 }, { added := 4, complete := some 6 }], bufTile := 0, bufPage := 9, bufPages := 1, closed := true, counted := [0, 1], mean := some [0, 0, 0, 0] } : OwnerSide) } : Bucket)], delivered := [], shards := [({ slot := 0, param := 1, master := 2, state := 0, prog := 3, hyper := [], elems := 4, pfmt := 2, states := 0, kept := 1 } : Shard)] }), (5), (7), (wk 0x1059 [1, 2000000000000, 9] [1, 0, 4294967300, 0, 1, 0, 0, 0]), (({ pid := 7, slot := 0, group := 1, cseq := 0, started := true, ownChunks := [], owner := some ({ members := [{ added := 4, complete := some 5 }, { added := 4, complete := some 6 }], bufTile := 0, bufPage := 9, bufPages := 1, closed := true, counted := [0, 1], mean := some [0, 0, 0, 0] } : OwnerSide) } : Bucket)), (({ members := [{ added := 4, complete := some 5 }, { added := 4, complete := some 6 }], bufTile := 0, bufPage := 9, bufPages := 1, closed := true, counted := [0, 1], mean := some [0, 0, 0, 0] } : OwnerSide)), (pair 1), (({ slot := 0, param := 1, master := 2, state := 0, prog := 3, hyper := [], elems := 4, pfmt := 2, states := 0, kept := 1 } : Shard)), (0), ((({ withJob ({ withGroup (pair 1) with scales := [{ sgroup := 0, group := 1, grad := 1, off := 0, units := 1, exp := some 0 }] }) with works := [wk 0x1059 [1, 2000000000000, 9] [1, 0, 4294967300, 0, 1, 0, 0, 0]], tensors := [{ num := 1, slot := 0, tile := 0, page := 1, bytes := 65536, fmt := 2, cplx := false, life := 1, rows := 128, cols := 128, epoch := 0 }, { num := 2, slot := 0, tile := 0, page := 2, bytes := 65536, fmt := 2, cplx := false, life := 1, rows := 128, cols := 128, epoch := 0 }, tns 3 (some 0x1001000000000000)], buckets := [({ pid := 7, slot := 0, group := 1, cseq := 0, started := true, ownChunks := [], owner := some ({ members := [{ added := 4, complete := some 5 }, { added := 4, complete := some 6 }], bufTile := 0, bufPage := 9, bufPages := 1, closed := true, counted := [0, 1], mean := some [0, 0, 0, 0] } : OwnerSide) } : Bucket)], delivered := [], shards := [({ slot := 0, param := 1, master := 2, state := 0, prog := 3, hyper := [], elems := 4, pfmt := 2, states := 0, kept := 1 } : Shard)] }.pass 5).fetchRanges ((wk 0x1059 [1, 2000000000000, 9] [1, 0, 4294967300, 0, 1, 0, 0, 0]).ctx 0) ({ withJob ({ withGroup (pair 1) with scales := [{ sgroup := 0, group := 1, grad := 1, off := 0, units := 1, exp := some 0 }] }) with works := [wk 0x1059 [1, 2000000000000, 9] [1, 0, 4294967300, 0, 1, 0, 0, 0]], tensors := [{ num := 1, slot := 0, tile := 0, page := 1, bytes := 65536, fmt := 2, cplx := false, life := 1, rows := 128, cols := 128, epoch := 0 }, { num := 2, slot := 0, tile := 0, page := 2, bytes := 65536, fmt := 2, cplx := false, life := 1, rows := 128, cols := 128, epoch := 0 }, tns 3 (some 0x1001000000000000)], buckets := [({ pid := 7, slot := 0, group := 1, cseq := 0, started := true, ownChunks := [], owner := some ({ members := [{ added := 4, complete := some 5 }, { added := 4, complete := some 6 }], bufTile := 0, bufPage := 9, bufPages := 1, closed := true, counted := [0, 1], mean := some [0, 0, 0, 0] } : OwnerSide) } : Bucket)], delivered := [], shards := [({ slot := 0, param := 1, master := 2, state := 0, prog := 3, hyper := [], elems := 4, pfmt := 2, states := 0, kept := 1 } : Shard)] }.optReads (wk 0x1059 [1, 2000000000000, 9] [1, 0, 4294967300, 0, 1, 0, 0, 0]) ({ slot := 0, param := 1, master := 2, state := 0, prog := 3, hyper := [], elems := 4, pfmt := 2, states := 0, kept := 1 } : Shard) (wk 0x1059 [1, 2000000000000, 9] [1, 0, 4294967300, 0, 1, 0, 0, 0]).pkt.bdesc)).getD up), (by decide +kernel), (by decide +kernel)⟩,
   ⟨({ withJob ({ withGroup (pair 1) with scales := [{ sgroup := 0, group := 1, grad := 1, off := 0, units := 1, exp := some 0 }] }) with works := [wk 0x1059 [1, 2000000000000, 9] [1, 0, 4294967300, 0, 1, 0, 0, 0]], tensors := [{ num := 1, slot := 0, tile := 0, page := 1, bytes := 65536, fmt := 2, cplx := false, life := 1, rows := 128, cols := 128, epoch := 0 }, { num := 2, slot := 0, tile := 0, page := 2, bytes := 65536, fmt := 2, cplx := false, life := 1, rows := 128, cols := 128, epoch := 0 }], buckets := [({ pid := 7, slot := 0, group := 1, cseq := 0, started := true, ownChunks := [], owner := some ({ members := [{ added := 4, complete := some 5 }, { added := 4, complete := some 6 }], bufTile := 0, bufPage := 9, bufPages := 1, closed := true, counted := [0, 1], mean := some [0, 0, 0, 0] } : OwnerSide) } : Bucket)], delivered := [], shards := [({ slot := 0, param := 1, master := 2, state := 0, prog := 3, hyper := [], elems := 4, pfmt := 2, states := 0, kept := 1 } : Shard)] }), (5), (7), (wk 0x1059 [1, 2000000000000, 9] [1, 0, 4294967300, 0, 1, 0, 0, 0]), (({ pid := 7, slot := 0, group := 1, cseq := 0, started := true, ownChunks := [], owner := some ({ members := [{ added := 4, complete := some 5 }, { added := 4, complete := some 6 }], bufTile := 0, bufPage := 9, bufPages := 1, closed := true, counted := [0, 1], mean := some [0, 0, 0, 0] } : OwnerSide) } : Bucket)), (({ members := [{ added := 4, complete := some 5 }, { added := 4, complete := some 6 }], bufTile := 0, bufPage := 9, bufPages := 1, closed := true, counted := [0, 1], mean := some [0, 0, 0, 0] } : OwnerSide)), (pair 1), (({ slot := 0, param := 1, master := 2, state := 0, prog := 3, hyper := [], elems := 4, pfmt := 2, states := 0, kept := 1 } : Shard)), (0), (by decide +kernel), (by decide +kernel)⟩,
   ⟨({ withJob ({ withGroup (pair 1) with scales := [{ sgroup := 0, group := 1, grad := 1, off := 0, units := 1, exp := some 0 }] }) with works := [wk 0x1059 [1, 2000000000000, 9] [1, 0, 4294967300, 0, 1, 0, 0, 0]], tensors := [{ num := 1, slot := 0, tile := 0, page := 1, bytes := 65536, fmt := 2, cplx := false, life := 1, rows := 128, cols := 128, epoch := 0 }, { num := 2, slot := 0, tile := 0, page := 2, bytes := 65536, fmt := 2, cplx := false, life := 1, rows := 128, cols := 128, epoch := 0 }, { tns 3 with bytes := 16 }], buckets := [({ pid := 7, slot := 0, group := 1, cseq := 0, started := true, ownChunks := [], owner := some ({ members := [{ added := 4, complete := some 5 }, { added := 4, complete := some 6 }], bufTile := 0, bufPage := 9, bufPages := 1, closed := true, counted := [0, 1], mean := some [0, 0, 0, 0] } : OwnerSide) } : Bucket)], delivered := [], shards := [({ slot := 0, param := 1, master := 2, state := 0, prog := 3, hyper := [], elems := 4, pfmt := 2, states := 0, kept := 1 } : Shard)], mem := (((natBytes 10 (encodeWord 4294443024 false).toNat).mapIdx fun i b => (10 * placeKey (.dram 0 3 0 0) + i, b))).filter fun c => c.2 ≠ 0 }), (5), (7), (wk 0x1059 [1, 2000000000000, 9] [1, 0, 4294967300, 0, 1, 0, 0, 0]), (({ pid := 7, slot := 0, group := 1, cseq := 0, started := true, ownChunks := [], owner := some ({ members := [{ added := 4, complete := some 5 }, { added := 4, complete := some 6 }], bufTile := 0, bufPage := 9, bufPages := 1, closed := true, counted := [0, 1], mean := some [0, 0, 0, 0] } : OwnerSide) } : Bucket)), (({ members := [{ added := 4, complete := some 5 }, { added := 4, complete := some 6 }], bufTile := 0, bufPage := 9, bufPages := 1, closed := true, counted := [0, 1], mean := some [0, 0, 0, 0] } : OwnerSide)), (pair 1), (({ slot := 0, param := 1, master := 2, state := 0, prog := 3, hyper := [], elems := 4, pfmt := 2, states := 0, kept := 1 } : Shard)), (0), (({ tns 3 with bytes := 16 } : Tensor)), (by decide +kernel), (by decide +kernel)⟩,
   ⟨({ withJob ({ withGroup (pair 1) with scales := [{ sgroup := 0, group := 1, grad := 1, off := 0, units := 1, exp := some 0 }] }) with works := [wk 0x1059 [1, 2000000000000, 9] [1, 0, 4294967300, 0, 1, 0, 0, 0]], tensors := [{ num := 1, slot := 0, tile := 0, page := 1, bytes := 65536, fmt := 2, cplx := false, life := 1, rows := 128, cols := 128, epoch := 0 }, { num := 2, slot := 0, tile := 0, page := 2, bytes := 65536, fmt := 2, cplx := false, life := 1, rows := 128, cols := 128, epoch := 0 }, { tns 3 with bytes := 16 }], buckets := [({ pid := 7, slot := 0, group := 1, cseq := 0, started := true, ownChunks := [], owner := some ({ members := [{ added := 4, complete := some 5 }, { added := 4, complete := some 6 }], bufTile := 0, bufPage := 9, bufPages := 1, closed := true, counted := [0, 1], mean := some [0, 0, 0, 0] } : OwnerSide) } : Bucket)], delivered := [], shards := [({ slot := 0, param := 1, master := 2, state := 0, prog := 3, hyper := [], elems := 4, pfmt := 2, states := 0, kept := 1 } : Shard)] }), (5), (7), (wk 0x1059 [1, 2000000000000, 9] [1, 0, 4294967300, 0, 1, 0, 0, 0]), (({ pid := 7, slot := 0, group := 1, cseq := 0, started := true, ownChunks := [], owner := some ({ members := [{ added := 4, complete := some 5 }, { added := 4, complete := some 6 }], bufTile := 0, bufPage := 9, bufPages := 1, closed := true, counted := [0, 1], mean := some [0, 0, 0, 0] } : OwnerSide) } : Bucket)), (({ members := [{ added := 4, complete := some 5 }, { added := 4, complete := some 6 }], bufTile := 0, bufPage := 9, bufPages := 1, closed := true, counted := [0, 1], mean := some [0, 0, 0, 0] } : OwnerSide)), (pair 1), (({ slot := 0, param := 1, master := 2, state := 0, prog := 3, hyper := [], elems := 4, pfmt := 2, states := 0, kept := 1 } : Shard)), (0), (({ tns 3 with bytes := 16 } : Tensor)), (by decide +kernel), (by decide +kernel)⟩,
   ⟨({ withJob ({ withGroup (pair 1) with scales := [{ sgroup := 0, group := 1, grad := 1, off := 0, units := 1, exp := some 0 }] }) with works := [wk 0x1059 [1, 2000000000000, 9] [1, 0, 4294967300, 0, 1, 0, 0, 0]], tensors := [{ num := 1, slot := 0, tile := 0, page := 1, bytes := 65536, fmt := 2, cplx := false, life := 1, rows := 128, cols := 128, epoch := 0 }, { num := 2, slot := 0, tile := 0, page := 2, bytes := 65536, fmt := 2, cplx := false, life := 1, rows := 128, cols := 128, epoch := 0 }], buckets := [({ pid := 7, slot := 0, group := 1, cseq := 0, started := true, ownChunks := [], owner := some ({ members := [{ added := 4, complete := some 5 }, { added := 4, complete := some 6 }], bufTile := 0, bufPage := 9, bufPages := 1, closed := true, counted := [0, 1], mean := some [0, 0, 0, 0] } : OwnerSide) } : Bucket)], delivered := [], shards := [({ slot := 0, param := 1, master := 2, state := 0, prog := 3, hyper := [], elems := 4, pfmt := 2, states := 0, kept := 1 } : Shard)] }), (5), (7), (wk 0x1059 [1, 2000000000000, 9] [1, 0, 4294967300, 0, 1, 0, 0, 0]), (({ pid := 7, slot := 0, group := 1, cseq := 0, started := true, ownChunks := [], owner := some ({ members := [{ added := 4, complete := some 5 }, { added := 4, complete := some 6 }], bufTile := 0, bufPage := 9, bufPages := 1, closed := true, counted := [0, 1], mean := some [0, 0, 0, 0] } : OwnerSide) } : Bucket)), (({ members := [{ added := 4, complete := some 5 }, { added := 4, complete := some 6 }], bufTile := 0, bufPage := 9, bufPages := 1, closed := true, counted := [0, 1], mean := some [0, 0, 0, 0] } : OwnerSide)), (pair 1), (({ slot := 0, param := 1, master := 2, state := 0, prog := 3, hyper := [], elems := 4, pfmt := 2, states := 0, kept := 1 } : Shard)), (by decide +kernel), (by decide +kernel)⟩,
   ⟨({ withJob ({ withGroup (pair 1) with scales := [{ sgroup := 0, group := 1, grad := 1, off := 0, units := 1, exp := some 0 }] }) with works := [wk 0x1059 [1, 2000000000000, 9] [1, 0, 4294967300, 0, 1, 0, 0, 0]], tensors := [{ num := 1, slot := 0, tile := 0, page := 1, bytes := 65536, fmt := 2, cplx := false, life := 1, rows := 128, cols := 128, epoch := 0 }, { num := 2, slot := 0, tile := 0, page := 2, bytes := 65536, fmt := 2, cplx := false, life := 1, rows := 128, cols := 128, epoch := 0 }], buckets := [({ pid := 7, slot := 0, group := 1, cseq := 0, started := true, ownChunks := [], owner := some ({ members := [{ added := 4, complete := some 5 }, { added := 4, complete := some 6 }], bufTile := 0, bufPage := 9, bufPages := 1, closed := true, counted := [0, 1], mean := some [0, 0, 0, 0], program := some [0] } : OwnerSide) } : Bucket)], delivered := [], shards := [({ slot := 0, param := 1, master := 2, state := 0, prog := 3, hyper := [], elems := 4, pfmt := 2, states := 0, kept := 1 } : Shard)] }), (5), (7), (wk 0x1059 [1, 2000000000000, 9] [1, 0, 4294967300, 0, 1, 0, 0, 0]), (({ pid := 7, slot := 0, group := 1, cseq := 0, started := true, ownChunks := [], owner := some ({ members := [{ added := 4, complete := some 5 }, { added := 4, complete := some 6 }], bufTile := 0, bufPage := 9, bufPages := 1, closed := true, counted := [0, 1], mean := some [0, 0, 0, 0], program := some [0] } : OwnerSide) } : Bucket)), (({ members := [{ added := 4, complete := some 5 }, { added := 4, complete := some 6 }], bufTile := 0, bufPage := 9, bufPages := 1, closed := true, counted := [0, 1], mean := some [0, 0, 0, 0], program := some [0] } : OwnerSide)), (pair 1), (({ slot := 0, param := 1, master := 2, state := 0, prog := 3, hyper := [], elems := 4, pfmt := 2, states := 0, kept := 1 } : Shard)), (([0] : List Word)), (0), (by decide +kernel), (by decide +kernel)⟩⟩

theorem witness_MembersReplyOutcomes :
    (∃ (s : State) (x : Delivered), (s.stores = []) ∧ (s.delivered.find? (fun y => s.noticeReady 0x22 false y.msg) = some x) ∧ (s.noticeWork x.msg = none))
    ∧ (∃ (s : State) (x : Delivered) (w : _) (g : _), (s.stores = []) ∧ (s.delivered.find? (fun y => s.noticeReady 0x22 false y.msg) = some x) ∧ (s.noticeWork x.msg = some w) ∧ (s.work w.pid = some w) ∧ (s.group (w.slot.getD 0) w.pkt.group = some g)) :=
  ⟨⟨({ withJob theJob with delivered := [({ from1 (.notice 0x122 0x40600000000 0 false) with msg := { (from1 (.notice 0x122 0x40600000000 0 false)).msg with job := 5 } } : Delivered)] }), (({ from1 (.notice 0x122 0x40600000000 0 false) with msg := { (from1 (.notice 0x122 0x40600000000 0 false)).msg with job := 5 } } : Delivered)), (by decide +kernel)⟩,
   ⟨({ withJob (withGroup (pair 1)) with works := [wk 0x1059 [1, 2000000000000, 9] [1, 0, 35188667056132, 0, 1, 0, 0, 0]], tensors := [{ num := 1, slot := 0, tile := 0, page := 1, bytes := 65536, fmt := 2, cplx := false, life := 1, rows := 128, cols := 128, epoch := 0 }, { num := 2, slot := 0, tile := 0, page := 2, bytes := 65536, fmt := 2, cplx := false, life := 1, rows := 128, cols := 128, epoch := 0 }], buckets := [({ pid := 7, slot := 0, group := 1, cseq := 0, started := true, ownChunks := [], owner := none } : Bucket)], delivered := [({ from1 (.notice 0x122 0x40600000000 0 false) with msg := { (from1 (.notice 0x122 0x40600000000 0 false)).msg with job := 5 } } : Delivered)] }), (({ from1 (.notice 0x122 0x40600000000 0 false) with msg := { (from1 (.notice 0x122 0x40600000000 0 false)).msg with job := 5 } } : Delivered)), (wk 0x1059 [1, 2000000000000, 9] [1, 0, 35188667056132, 0, 1, 0, 0, 0]), (pair 1), (by decide +kernel)⟩⟩

theorem witness_TimeIsKept :
    (∃ (s : State) (dt : Nat) (err : _), 
      let u := s.pass dt
      (s.stores = []) ∧ (s.ftRuns = true) ∧ ((msOffset ((u.ft.ps : Int) + err)).natAbs ≤ 500000))
    ∧ (∃ (s : State) (dt : Nat) (err : _), 
      let u := s.pass dt
      (s.stores = []) ∧ (s.ftRuns = true) ∧ (500000 < (msOffset ((u.ft.ps : Int) + err)).natAbs))
    ∧ (∃ (s : State), (s.stores = []) ∧ (s.delivered.find? (fun d => isTimeMessage d.msg) = none))
    ∧ (∃ (s : State) (x : _) (ft : _) (src : _), (s.stores = []) ∧ (s.delivered.find? (fun d => isTimeMessage d.msg) = some x) ∧ (x.msg.ctl = .time ft src))
    ∧ (∃ (s : State) (l : Nat) (e : Exchange), (s.stores = []) ∧ (l < 18) ∧ (s.delivered.find? (isTransfer l e) = none))
    ∧ (∃ (s : State) (l : Nat) (e : Exchange) (x : _), (s.stores = []) ∧ (l < 18) ∧ (s.delivered.find? (isTransfer l e) = some x) ∧ (s.ftRuns = false))
    ∧ (∃ (s : State) (l : Nat) (e : Exchange) (x : _) (t1 : _), (s.stores = []) ∧ (l < 18) ∧ (s.delivered.find? (isTransfer l e) = some x) ∧ (s.ftRuns = true) ∧ (x.msg.ctl = .xferReq t1))
    ∧ (∃ (s : State) (l : Nat) (e : Exchange) (x : _) (t1 : _) (t2 : _) (t3 : _) (locked : _) (hops : _), (s.stores = []) ∧ (l < 18) ∧ (s.delivered.find? (isTransfer l e) = some x) ∧ (s.ftRuns = true) ∧ (x.msg.ctl = .xferAns t1 t2 t3 locked hops))
    ∧ (∃ (s : State) (dt : Nat), 
      let u := s.pass dt
      (s.stores = []) ∧ (s.ftRuns = true) ∧ (u.onGrid 1000000 = true))
    ∧ (∃ (s : State) (dt : Nat), 
      let u := s.pass dt
      (s.stores = []) ∧ (s.ftRuns = false ∨ u.onGrid 1000000 = false))
    ∧ (∃ (s : State), (s.stores = []) ∧ (s.ft.refPresent = true))
    ∧ (∃ (s : State), (s.stores = [])) :=
  ⟨⟨(up), (5), ((5 : Int)), (by decide +kernel), (by decide +kernel)⟩,
   ⟨(up), (5), ((600000 : Int)), (by decide +kernel), (by decide +kernel)⟩,
   ⟨(up), (by decide +kernel)⟩,
   ⟨({ up with ft := { up.ft with state := .unset }, delivered := [from1 (.time 77 (.neighbour true))] }), (from1 (.time 77 (.neighbour true))), (77), ((TimeFrom.neighbour true)), (by decide +kernel)⟩,
   ⟨(up), (17), (({ t1 := 77, t2 := 90, t3 := 95, t4 := 10 ^ 12, locked := true, hops := 2 } : Exchange)), (by decide +kernel)⟩,
   ⟨({ up with links := vmod up.links 17 (fun l => { l with st := .up, width := 3 }), delivered := [({ from1 (.xferReq 77) with link := 17 } : Delivered)], ft := { up.ft with state := .unset } }), (17), (({ t1 := 77, t2 := 10 ^ 12, t3 := 95, t4 := 10 ^ 12, locked := true, hops := 2 } : Exchange)), (({ from1 (.xferReq 77) with link := 17 } : Delivered)), (by decide +kernel)⟩,
   ⟨({ up with links := vmod up.links 17 (fun l => { l with st := .up, width := 3 }), delivered := [({ from1 (.xferReq 77) with link := 17 } : Delivered)] }), (17), (({ t1 := 77, t2 := 10 ^ 12, t3 := 95, t4 := 10 ^ 12, locked := true, hops := 2 } : Exchange)), (({ from1 (.xferReq 77) with link := 17 } : Delivered)), (77), (by decide +kernel)⟩,
   ⟨({ up with links := vmod up.links 17 (fun l => { l with st := .up, width := 3 }), delivered := [({ from1 (.xferAns 77 90 95 true 2) with link := 17 } : Delivered)] }), (17), (({ t1 := 77, t2 := 90, t3 := 95, t4 := 10 ^ 12, locked := true, hops := 2 } : Exchange)), (({ from1 (.xferAns 77 90 95 true 2) with link := 17 } : Delivered)), (77), (90), (95), (true), (2), (by decide +kernel)⟩,
   ⟨(up), (5), (by decide +kernel), (by decide +kernel)⟩,
   ⟨({ up with ft := { up.ft with ps := 10 ^ 15 + 5 * 10 ^ 8 } }), (5), (by decide +kernel), (by decide +kernel)⟩,
   ⟨(up), (by decide +kernel)⟩,
   ⟨(up), (by decide +kernel)⟩⟩

theorem witness_CopiesFinishAndSlotsBegin :
    (∃ (s : State) (slot : Nat), 
      let waits : Bool := s.remotes.any fun r => r.pid == some (shadowPid slot)
      let h := (s.job slot).shadow
      (s.stores = []) ∧ (slot < 4) ∧ (h.copy = none ∨ waits = true ∨ (h.fabric = false ∧ s.cxlOpen = false)))
    ∧ (∃ (s : State) (slot : Nat) (c : _), 
      let waits : Bool := s.remotes.any fun r => r.pid == some (shadowPid slot)
      let h := (s.job slot).shadow
      (s.stores = []) ∧ (slot < 4) ∧ (h.copy = some c) ∧ (waits = false) ∧ ((h.fabric = true ∨ s.cxlOpen = true)) ∧ (c.issued.isSome = true) ∧ (c.failed = false))
    ∧ (∃ (s : State) (dt : Nat) (slot : Nat) (c : _) (u : _), 
      let waits : Bool := s.remotes.any fun r => r.pid == some (shadowPid slot)
      let h := (s.job slot).shadow
      (s.stores = []) ∧ (slot < 4) ∧ (h.copy = some c) ∧ (waits = false) ∧ ((h.fabric = true ∨ s.cxlOpen = true)) ∧ (c.issued = none ∨ c.failed = true) ∧ (s.copyDenied slot c.gen = none) ∧ ((s.pass dt).fetchRanges (s.shadowCtx slot) (s.copyReads slot c.gen) = some u))
    ∧ (∃ (s : State) (dt : Nat) (slot : Nat) (c : _), 
      let waits : Bool := s.remotes.any fun r => r.pid == some (shadowPid slot)
      let h := (s.job slot).shadow
      (s.stores = []) ∧ (slot < 4) ∧ (h.copy = some c) ∧ (waits = false) ∧ ((h.fabric = true ∨ s.cxlOpen = true)) ∧ (c.issued = none ∨ c.failed = true) ∧ (s.copyDenied slot c.gen = none) ∧ ((s.pass dt).fetchRanges (s.shadowCtx slot) (s.copyReads slot c.gen) = none))
    ∧ (∃ (s : State) (dt : Nat) (slot : Nat) (k : _), 
      let u := (s.pass dt).settleWindows
      (s.stores = []) ∧ (slot < 4) ∧ ((∀ r, u.ramps.find? (fun r => r.slot == slot) = some r → u.ftNow < r.release + k * r.width)))
    ∧ (∃ (s : State) (dt : Nat) (slot : Nat) (k : _) (r : _), 
      let u := (s.pass dt).settleWindows
      (s.stores = []) ∧ (slot < 4) ∧ (u.ramps.find? (fun r => r.slot == slot) = some r) ∧ (r.release + k * r.width ≤ u.ftNow) ∧ ((u.works.map fun w => w.pid).Nodup) ∧ ((∀ w, w ∈ u.works → (w.items.map fun i => i.num).Nodup))) :=
  ⟨⟨(withJob theJob), (0), (by decide +kernel), (by decide +kernel)⟩,
   ⟨({ withJob { theJob with shadow := { enable := true, content := 1, fabric := true, copy := some ({ gen := 4, commitFt := 9, issued := some (0, 0, 0) } : ShadowCopy) } } with shards := [], tensors := [] }), (0), (({ gen := 4, commitFt := 9, issued := some (0, 0, 0) } : ShadowCopy)), (by decide +kernel), (by decide +kernel)⟩,
   ⟨({ withJob { theJob with shadow := { enable := true, content := 1, fabric := true, copy := some ({ gen := 4, commitFt := 9 } : ShadowCopy) } } with shards := [{ slot := 0, param := 1, master := 2, state := 0, prog := 3, hyper := [], elems := 4, pfmt := 2, states := 0, kept := 1 }], tensors := [tns 2 (some 0x1001000000000000)] }), (5), (0), (({ gen := 4, commitFt := 9 } : ShadowCopy)), (((({ withJob { theJob with shadow := { enable := true, content := 1, fabric := true, copy := some ({ gen := 4, commitFt := 9 } : ShadowCopy) } } with shards := [{ slot := 0, param := 1, master := 2, state := 0, prog := 3, hyper := [], elems := 4, pfmt := 2, states := 0, kept := 1 }], tensors := [tns 2 (some 0x1001000000000000)] }).pass 5).fetchRanges (({ withJob { theJob with shadow := { enable := true, content := 1, fabric := true, copy := some ({ gen := 4, commitFt := 9 } : ShadowCopy) } } with shards := [{ slot := 0, param := 1, master := 2, state := 0, prog := 3, hyper := [], elems := 4, pfmt := 2, states := 0, kept := 1 }], tensors := [tns 2 (some 0x1001000000000000)] }).shadowCtx 0) (({ withJob { theJob with shadow := { enable := true, content := 1, fabric := true, copy := some ({ gen := 4, commitFt := 9 } : ShadowCopy) } } with shards := [{ slot := 0, param := 1, master := 2, state := 0, prog := 3, hyper := [], elems := 4, pfmt := 2, states := 0, kept := 1 }], tensors := [tns 2 (some 0x1001000000000000)] }).copyReads 0 4)).getD up), (by decide +kernel), (by decide +kernel)⟩,
   ⟨({ withJob { theJob with shadow := { enable := true, content := 1, fabric := true, copy := some ({ gen := 4, commitFt := 9 } : ShadowCopy) } } with shards := [], tensors := [] }), (5), (0), (({ gen := 4, commitFt := 9 } : ShadowCopy)), (by decide +kernel), (by decide +kernel)⟩,
   ⟨({ withJob theJob with ramps := [({ slot := 0, release := 10 ^ 12 + 5, width := 5 } : Ramp)] }), (5), (0), (1), (by decide +kernel), (by decide +kernel), (by intro r h; cases h; decide +kernel)⟩,
   ⟨({ withJob theJob with ramps := [({ slot := 0, release := 10 ^ 12 + 5, width := 5 } : Ramp)] }), (5), (0), (0), (({ slot := 0, release := 10 ^ 12 + 5, width := 5 } : Ramp)), (by decide +kernel), (by decide +kernel), (by decide +kernel), (by decide +kernel), (by decide +kernel), (by intro w h; cases h)⟩⟩

theorem witness_LinksTrainAndFail :
    (∃ (s : State) (l : Nat) (lane : _), (s.stores = []) ∧ (l < 18) ∧ (lane < 4) ∧ (s.linksRun = true))
    ∧ (∃ (s : State) (l : Nat), 
      let k := s.link l
      (s.stores = []) ∧ (l < 18) ∧ (s.linksRun = true) ∧ (k.st = .training) ∧ (k.goalWidth ≠ 0))
    ∧ (∃ (s : State) (l : Nat) (ok : _), 
      let k := s.link l
      (s.stores = []) ∧ (l < 18) ∧ (s.linksRun = true) ∧ (k.st = .training) ∧ (ok = false ∨ k.goalWidth = 0))
    ∧ (∃ (s : State) (l : Nat), 
      let k := s.link l
      (s.stores = []) ∧ (l < 18) ∧ (s.linksRun = true) ∧ (k.failedTraining = true) ∧ (k.enable = true) ∧ (k.retired = false) ∧ (k.st = .down) ∧ (k.light = true) ∧ (k.trainWidth ≠ 0))
    ∧ (∃ (s : State) (l : Nat) (lane : _), 
      let k := s.link l
      let bad := k.lanesBad ||| 2 ^ lane
      let k1 : Link := { k with lanesBad := bad }
      (s.stores = []) ∧ (l < 18) ∧ (lane < 4) ∧ (s.linksRun = true) ∧ (k.lanesBad &&& 2 ^ lane = 0) ∧ (k.st = .up) ∧ (k.width = 3) ∧ (k1.cleanPair ≠ 0))
    ∧ (∃ (s : State) (l : Nat) (lane : _), 
      let k := s.link l
      let bad := k.lanesBad ||| 2 ^ lane
      let k1 : Link := { k with lanesBad := bad }
      (s.stores = []) ∧ (l < 18) ∧ (lane < 4) ∧ (s.linksRun = true) ∧ (k.lanesBad &&& 2 ^ lane = 0) ∧ (k.st = .up) ∧ (k.width ≠ 3 ∨ k1.cleanPair = 0))
    ∧ (∃ (s : State) (l : Nat) (lane : _), 
      let k := s.link l
      (s.stores = []) ∧ (l < 18) ∧ (lane < 4) ∧ (s.linksRun = true) ∧ (k.lanesBad &&& 2 ^ lane = 0) ∧ (k.st = .training))
    ∧ (∃ (s : State) (l : Nat) (lane : _), 
      let k := s.link l
      (s.stores = []) ∧ (l < 18) ∧ (lane < 4) ∧ (s.linksRun = true) ∧ (k.lanesBad &&& 2 ^ lane = 0) ∧ (k.st = .down ∨ k.st = .off))
    ∧ (∃ (s : State) (l : Nat), 
      let k := s.link l
      (s.stores = []) ∧ (l < 18) ∧ (s.registersRun = true) ∧ (k.st = .up) ∧ (k.lanesBad % 16 = 0))
    ∧ (∃ (s : State) (l : Nat), (s.stores = []) ∧ (l < 18) ∧ (s.registersRun = true))
    ∧ (∃ (s : State) (l : Nat), (s.stores = []) ∧ (l < 18) ∧ (s.registersRun = true))
    ∧ (∃ (s : State) (l : Nat) (p : _), (s.stores = []) ∧ (l < 18) ∧ (s.registersRun = true) ∧ (17 < p))
    ∧ (∃ (s : State) (l : Nat) (p : _), (s.stores = []) ∧ (l < 18) ∧ (s.registersRun = true) ∧ (p < 18)) :=
  ⟨⟨(up), (17), (3), (by decide +kernel)⟩,
   ⟨({ up with links := vmod up.links 17 (fun l => { l with st := .training }) }), (17), (by decide +kernel), (by decide +kernel)⟩,
   ⟨({ up with links := vmod up.links 17 (fun l => { l with st := .training }) }), (17), (false), (by decide +kernel), (by decide +kernel)⟩,
   ⟨({ up with links := vmod up.links 17 (fun l => { l with failedTraining := true, light := true }) }), (17), (by decide +kernel), (by decide +kernel)⟩,
   ⟨({ up with links := vmod up.links 17 (fun l => { l with st := .up, width := 3 }) }), (17), (3), (by decide +kernel), (by decide +kernel)⟩,
   ⟨({ up with links := vmod up.links 17 (fun l => { l with st := .up, width := 1 }) }), (17), (3), (by decide +kernel), (by decide +kernel)⟩,
   ⟨({ up with links := vmod up.links 17 (fun l => { l with st := .training }) }), (17), (3), (by decide +kernel), (by decide +kernel)⟩,
   ⟨(up), (17), (3), (by decide +kernel), (by decide +kernel)⟩,
   ⟨({ up with links := vmod up.links 17 (fun l => { l with st := .up, width := 3 }) }), (17), (by decide +kernel), (by decide +kernel)⟩,
   ⟨({ up with links := vmod up.links 17 (fun l => { l with st := .up, width := 3 }) }), (17), (by decide +kernel)⟩,
   ⟨({ up with links := vmod up.links 17 (fun l => { l with st := .off, light := true }) }), (17), (by decide +kernel)⟩,
   ⟨(up), (17), (18), (by decide +kernel)⟩,
   ⟨(up), (17), (17), (by decide +kernel)⟩⟩

theorem witness_LinksCarryMessages :
    (∃ (s : State) (l : Nat) (seq : _) (ack : _), 
      let k := s.link l
      (s.stores = []) ∧ (l < 18) ∧ (s.linksRun = true) ∧ (seq < 512) ∧ (ack < 512) ∧ (k.st = .up))
    ∧ (∃ (s : State) (l : Nat) (seq : _) (ack : _), 
      let k := s.link l
      (s.stores = []) ∧ (l < 18) ∧ (s.linksRun = true) ∧ (seq < 512) ∧ (ack < 512) ∧ (k.st = .up) ∧ (seq ≠ k.rxNext))
    ∧ (∃ (s : State) (l : Nat) (seq : _) (ack : _), 
      let k := s.link l
      (s.stores = []) ∧ (l < 18) ∧ (s.linksRun = true) ∧ (seq < 512) ∧ (ack < 512) ∧ (k.st = .up) ∧ (seq = k.rxNext))
    ∧ (∃ (s : State) (dt : Nat) (l : Nat), 
      let k := s.link l
      (s.stores = []) ∧ (l < 18) ∧ (s.linksRun = true) ∧ (k.st = .up) ∧ (k.unacked ≠ []) ∧ (k.ackAt + 2000 ≤ s.uptime + dt))
    ∧ (∃ (s : State) (dt : Nat) (l : Nat), 
      let k := s.link l
      (s.stores = []) ∧ (l < 18) ∧ (s.linksRun = true) ∧ (k.st ≠ .up ∨ k.unacked = [] ∨ s.uptime + dt < k.ackAt + 2000))
    ∧ (∃ (s : State) (l : Nat) (m : Msg), 
      let k := s.link l
      (s.stores = []) ∧ (l < 18) ∧ (s.linksRun = true) ∧ (k.st ≠ .up ∨ s.formed k.port = false ∨ (isPeerMsg m = false ∧ (s.port k.port).seen.contains m.pseq = true)))
    ∧ (∃ (s : State) (l : Nat) (m : Msg), 
      let k := s.link l
      (s.stores = []) ∧ (l < 18) ∧ (s.linksRun = true) ∧ (k.st = .up) ∧ (s.formed k.port = true) ∧ (isPeerMsg m = true ∨ (s.port k.port).seen.contains m.pseq = false) ∧ (m.dest = s.fabric.mod))
    ∧ (∃ (s : State) (l : Nat) (m : Msg), 
      let k := s.link l
      (s.stores = []) ∧ (l < 18) ∧ (s.linksRun = true) ∧ (k.st = .up) ∧ (s.formed k.port = true) ∧ (isPeerMsg m = true ∨ (s.port k.port).seen.contains m.pseq = false) ∧ (m.dest ≠ s.fabric.mod) ∧ (s.fabric.modValid = false ∨ s.fabric.legacy = true))
    ∧ (∃ (s : State) (l : Nat) (m : Msg), 
      let k := s.link l
      (s.stores = []) ∧ (l < 18) ∧ (s.linksRun = true) ∧ (k.st = .up) ∧ (s.formed k.port = true) ∧ (isPeerMsg m = true ∨ (s.port k.port).seen.contains m.pseq = false) ∧ (m.dest ≠ s.fabric.mod) ∧ (s.fabric.modValid = true) ∧ (s.fabric.legacy = false) ∧ (s.outPort m.dest = none))
    ∧ (∃ (s : State) (l : Nat) (m : Msg) (p : Nat), 
      let k := s.link l
      let allowed : Prop := s.fabric.transitEn = true ∧ (m.vc = 0 ∨ ∃ r, r ∈ s.fabric.res.toList ∧ r.hits m.job k.port p = true)
      (s.stores = []) ∧ (l < 18) ∧ (s.linksRun = true) ∧ (k.st = .up) ∧ (s.formed k.port = true) ∧ (isPeerMsg m = true ∨ (s.port k.port).seen.contains m.pseq = false) ∧ (m.dest ≠ s.fabric.mod) ∧ (s.fabric.modValid = true) ∧ (s.fabric.legacy = false) ∧ (s.outPort m.dest = some p) ∧ (¬ allowed))
    ∧ (∃ (s : State) (l : Nat) (m : Msg) (p : Nat), 
      let k := s.link l
      let allowed : Prop := s.fabric.transitEn = true ∧ (m.vc = 0 ∨ ∃ r, r ∈ s.fabric.res.toList ∧ r.hits m.job k.port p = true)
      (s.stores = []) ∧ (l < 18) ∧ (s.linksRun = true) ∧ (k.st = .up) ∧ (s.formed k.port = true) ∧ (isPeerMsg m = true ∨ (s.port k.port).seen.contains m.pseq = false) ∧ (m.dest ≠ s.fabric.mod) ∧ (s.fabric.modValid = true) ∧ (s.fabric.legacy = false) ∧ (s.outPort m.dest = some p) ∧ (allowed))
    ∧ (∃ (s : State) (l : Nat) (p : Nat), 
      let still : Bool := (s.sentOn (s.members p)).any fun o => (s.port p).sentBefore.contains o.msg.pseq
      (s.stores = []) ∧ (l < 18) ∧ (s.linksRun = true) ∧ (p < 18) ∧ ((s.port p).holding = false ∨ still = true))
    ∧ (∃ (s : State) (l : Nat) (p : Nat), 
      let still : Bool := (s.sentOn (s.members p)).any fun o => (s.port p).sentBefore.contains o.msg.pseq
      (s.stores = []) ∧ (l < 18) ∧ (s.linksRun = true) ∧ (p < 18) ∧ ((s.port p).holding = true) ∧ (still = false)) :=
  ⟨⟨({ up with links := vmod up.links 17 (fun l => { l with st := .up, width := 3 }) }), (17), (0), (0), (by decide +kernel), (by decide +kernel)⟩,
   ⟨({ up with links := vmod up.links 17 (fun l => { l with st := .up, width := 3 }) }), (17), (511), (0), (by decide +kernel), (by decide +kernel)⟩,
   ⟨({ up with links := vmod up.links 17 (fun l => { l with st := .up, width := 3 }) }), (17), (0), (0), (by decide +kernel), (by decide +kernel)⟩,
   ⟨({ up with links := vmod up.links 17 (fun l => { l with st := .up, width := 3, unacked := [{ seq := 0, out := { msg := default, via := none } }] }) }), (5000), (17), (by decide +kernel), (by decide +kernel)⟩,
   ⟨(up), (5), (17), (by decide +kernel), (by decide +kernel)⟩,
   ⟨({ up with links := vmod up.links 17 (fun l => { l with st := .up, width := 3 }) , ports := vset up.ports (vget up.links 17).port { seen := [4] } }), (17), (({ (default : Msg) with vc := 0, dest := 9, src := 1, op := .read, pseq := 4 } : Msg)), (by decide +kernel), (by decide +kernel)⟩,
   ⟨({ up with links := vmod (vmod up.links 17 (fun l => { l with st := .up, width := 3 })) 0 (fun l => { l with st := .up, width := 3 }), fabric := { up.fabric with mod := 9, modValid := true, routes := [(9, 0)] } }), (17), (({ (default : Msg) with vc := 0, dest := 9, src := 1, op := .read, pseq := 4 } : Msg)), (by decide +kernel), (by decide +kernel)⟩,
   ⟨({ up with links := vmod (vmod up.links 17 (fun l => { l with st := .up, width := 3 })) 0 (fun l => { l with st := .up, width := 3 }), fabric := { up.fabric with mod := 7, modValid := false, routes := [(9, 0)] } }), (17), (({ (default : Msg) with vc := 0, dest := 9, src := 1, op := .read, pseq := 4 } : Msg)), (by decide +kernel), (by decide +kernel)⟩,
   ⟨({ up with links := vmod (vmod up.links 17 (fun l => { l with st := .up, width := 3 })) 0 (fun l => { l with st := .up, width := 3 }), fabric := { up.fabric with mod := 7, modValid := true, routes := [(8, 0)] } }), (17), (({ (default : Msg) with vc := 0, dest := 9, src := 1, op := .read, pseq := 4 } : Msg)), (by decide +kernel), (by decide +kernel)⟩,
   ⟨({ up with links := vmod (vmod up.links 17 (fun l => { l with st := .up, width := 3 })) 0 (fun l => { l with st := .up, width := 3 }), fabric := { up.fabric with mod := 7, modValid := true, routes := [(9, 0)], transitEn := false } }), (17), (({ (default : Msg) with vc := 0, dest := 9, src := 1, op := .read, pseq := 4 } : Msg)), (0), (by decide +kernel), (by decide +kernel)⟩,
   ⟨({ up with links := vmod (vmod up.links 17 (fun l => { l with st := .up, width := 3 })) 0 (fun l => { l with st := .up, width := 3 }), fabric := { up.fabric with mod := 7, modValid := true, routes := [(9, 0)], transitEn := true } }), (17), (({ (default : Msg) with vc := 0, dest := 9, src := 1, op := .read, pseq := 4 } : Msg)), (0), (by decide +kernel), (by decide +kernel)⟩,
   ⟨({ up with links := vmod up.links 17 (fun l => { l with st := .up, width := 3 }) }), (17), (5), (by decide +kernel), (by decide +kernel)⟩,
   ⟨({ up with links := vmod up.links 17 (fun l => { l with st := .up, width := 3 }) , ports := vset up.ports 5 { holding := true } }), (17), (5), (by decide +kernel), (by decide +kernel)⟩⟩

theorem witness_RowanFramesAreTaken :
    (∃ (f : Flit), (f.tag < 64) ∧ (f.kind < 4) ∧ (f.op < 16) ∧ (f.axis < 4) ∧ (f.inst < 256) ∧ (f.step < 16) ∧ (f.part < 4) ∧ (f.dest < 4096) ∧ (f.group < 64) ∧ (f.jobLo < 65536) ∧ (f.lanes.length = 3) ∧ ((∀ v, v ∈ f.lanes → v < 2 ^ 64)))
    ∧ (∃ (s : State) (l : Nat), 
      let k := s.link l
      (s.stores = []) ∧ (l < 18) ∧ (k.st ≠ .up))
    ∧ (∃ (s : State) (l : Nat) (ok : _), 
      let k := s.link l
      (s.stores = []) ∧ (l < 18) ∧ (k.st = .up) ∧ (ok = false ∨ s.formed k.port = false ∨ s.fabric.modValid = false))
    ∧ (∃ (s : State) (l : Nat) (cs : _) (f : _) (j : _) (g : _), 
      let k := s.link l
      let here (cs : List Codeword) (f : Flit) : Prop := k.st = .up ∧ s.formed k.port = true ∧ s.fabric.modValid = true ∧ frameFlit cs = some f ∧ (flitOf (cs.map cwData)).dest = s.fabric.mod
      (s.stores = []) ∧ (l < 18) ∧ (here cs f) ∧ (f.kind ≠ 2) ∧ (s.run f.tag = none) ∧ (s.flitGroup f = some (j, g)) ∧ (f.kind ≤ 1) ∧ (f.inst = s.tagCount f.tag (s.job j).fjob g.num % 256))
    ∧ (∃ (s : State) (l : Nat) (cs : _) (f : _), 
      let k := s.link l
      let here (cs : List Codeword) (f : Flit) : Prop := k.st = .up ∧ s.formed k.port = true ∧ s.fabric.modValid = true ∧ frameFlit cs = some f ∧ (flitOf (cs.map cwData)).dest = s.fabric.mod
      (s.stores = []) ∧ (l < 18) ∧ (here cs f) ∧ (f.kind ≠ 2) ∧ (s.flitGroup f = none) ∧ ((∀ u, s.run f.tag = some u → u.owns f = false)))
    ∧ (∃ (s : State) (l : Nat) (cs : _) (f : _) (u : _), 
      let k := s.link l
      let here (cs : List Codeword) (f : Flit) : Prop := k.st = .up ∧ s.formed k.port = true ∧ s.fabric.modValid = true ∧ frameFlit cs = some f ∧ (flitOf (cs.map cwData)).dest = s.fabric.mod
      (s.stores = []) ∧ (l < 18) ∧ (here cs f) ∧ (f.kind ≠ 2) ∧ (s.run f.tag = some u) ∧ (u.owns f = true) ∧ (u.wants f = false))
    ∧ (∃ (s : State) (l : Nat) (cs : _) (f : _) (u : _), 
      let k := s.link l
      let here (cs : List Codeword) (f : Flit) : Prop := k.st = .up ∧ s.formed k.port = true ∧ s.fabric.modValid = true ∧ frameFlit cs = some f ∧ (flitOf (cs.map cwData)).dest = s.fabric.mod
      (s.stores = []) ∧ (l < 18) ∧ (here cs f) ∧ (f.kind ≠ 2) ∧ (s.run f.tag = some u) ∧ (f.tag < 64) ∧ (u.owns f = true) ∧ (u.wants f = true) ∧ (({ u with got := u.got ++ [f] } : RowanRun).stepOnce = none))
    ∧ (∃ (s : State) (l : Nat) (cs : _) (f : _), 
      let k := s.link l
      let here (cs : List Codeword) (f : Flit) : Prop := k.st = .up ∧ s.formed k.port = true ∧ s.fabric.modValid = true ∧ frameFlit cs = some f ∧ (flitOf (cs.map cwData)).dest = s.fabric.mod
      (s.stores = []) ∧ (l < 18) ∧ (here cs f) ∧ (f.kind = 2) ∧ (s.sentFlits f = []))
    ∧ (∃ (s : State) (l : Nat) (cs : _) (f : _) (g : _) (p : _) (m : _), 
      let k := s.link l
      let here (cs : List Codeword) (f : Flit) : Prop := k.st = .up ∧ s.formed k.port = true ∧ s.fabric.modValid = true ∧ frameFlit cs = some f ∧ (flitOf (cs.map cwData)).dest = s.fabric.mod
      (s.stores = []) ∧ (l < 18) ∧ (here cs f) ∧ (f.kind = 2) ∧ (s.sentFlits f = [g]) ∧ (s.fabric.legacy = false) ∧ (s.outPort g.dest = some p) ∧ (memberOf (s.slots p) g.tag = some m) ∧ (m < 18))
    ∧ (∃ (s : State) (dt : Nat) (l : Nat) (tag : _) (u : _), (s.stores = []) ∧ (l < 18) ∧ (tag < 64) ∧ (s.run tag = some u) ∧ ((s.pass dt).ftNow < u.sentAt + 1000))
    ∧ (∃ (s : State) (dt : Nat) (l : Nat) (tag : _) (u : _), (s.stores = []) ∧ (l < 18) ∧ (tag < 64) ∧ (s.run tag = some u) ∧ (u.sentAt + 1000 ≤ (s.pass dt).ftNow)) :=
  ⟨⟨(({ tag := 63, kind := 3, op := 3, axis := 0, inst := 0, step := 0, part := 0, dest := 0, group := 3, jobLo := 5, lanes := [1, 2, 2 ^ 64 - 1] } : Flit)), (by decide +kernel)⟩,
   ⟨(up), (17), (by decide +kernel), (by decide +kernel)⟩,
   ⟨({ withJob (theJob) with links := vmod up.links 17 (fun l => { l with st := .up, width := 3 }), fabric := { up.fabric with modValid := true, routes := [(9, 0)] } }), (17), (false), (by decide +kernel), (by decide +kernel)⟩,
   ⟨({ withJob (withGroup (pair 3)) with links := vmod up.links 17 (fun l => { l with st := .up, width := 3 }), fabric := { up.fabric with modValid := true, routes := [(9, 0)] } }), (17), ((({ tag := 5, kind := 0, op := 3, axis := 0, inst := 0, step := 0, part := 0, dest := 0, group := 3, jobLo := 5, lanes := [1, 2, 3] } : Flit)).words.map fun w => encodeWord w false), (({ tag := 5, kind := 0, op := 3, axis := 0, inst := 0, step := 0, part := 0, dest := 0, group := 3, jobLo := 5, lanes := [1, 2, 3] } : Flit)), (0), (pair 3), (by decide +kernel), (by decide +kernel)⟩,
   ⟨({ withJob (theJob) with links := vmod up.links 17 (fun l => { l with st := .up, width := 3 }), fabric := { up.fabric with modValid := true, routes := [(9, 0)] } }), (17), ((({ tag := 5, kind := 0, op := 3, axis := 0, inst := 0, step := 0, part := 0, dest := 0, group := 3, jobLo := 5, lanes := [1, 2, 3] } : Flit)).words.map fun w => encodeWord w false), (({ tag := 5, kind := 0, op := 3, axis := 0, inst := 0, step := 0, part := 0, dest := 0, group := 3, jobLo := 5, lanes := [1, 2, 3] } : Flit)), (by decide +kernel), (by decide +kernel)⟩,
   ⟨({ withJob (theJob) with links := vmod up.links 17 (fun l => { l with st := .up, width := 3 }), fabric := { up.fabric with modValid := true, routes := [(9, 0)] }, rowan := vset up.rowan 5 (some ({ serves := .barrier 7, fjob := 5, slot := 0, group := 3, inst := 0, op := 0, lanes := 1, rings := [(0, [0, 1])], step := 0, sentAt := 10 ^ 12, v := [1], up := [], dn := [], x := [], y := [], got := [({ tag := 5, kind := 0, op := 3, axis := 0, inst := 0, step := 0, part := 0, dest := 0, group := 3, jobLo := 5, lanes := [1, 2, 3] } : Flit)] } : RowanRun)) }), (17), ((({ tag := 5, kind := 0, op := 3, axis := 0, inst := 0, step := 0, part := 0, dest := 0, group := 3, jobLo := 5, lanes := [1, 2, 3] } : Flit)).words.map fun w => encodeWord w false), (({ tag := 5, kind := 0, op := 3, axis := 0, inst := 0, step := 0, part := 0, dest := 0, group := 3, jobLo := 5, lanes := [1, 2, 3] } : Flit)), (({ serves := .barrier 7, fjob := 5, slot := 0, group := 3, inst := 0, op := 0, lanes := 1, rings := [(0, [0, 1])], step := 0, sentAt := 10 ^ 12, v := [1], up := [], dn := [], x := [], y := [], got := [({ tag := 5, kind := 0, op := 3, axis := 0, inst := 0, step := 0, part := 0, dest := 0, group := 3, jobLo := 5, lanes := [1, 2, 3] } : Flit)] } : RowanRun)), (by decide +kernel), (by decide +kernel)⟩,
   ⟨({ withJob (theJob) with links := vmod up.links 17 (fun l => { l with st := .up, width := 3 }), fabric := { up.fabric with modValid := true, routes := [(9, 0)] }, rowan := vset up.rowan 5 (some ({ serves := .barrier 7, fjob := 5, slot := 0, group := 3, inst := 0, op := 0, lanes := 1, rings := [(0, [0, 1])], step := 0, sentAt := 10 ^ 12, v := [1], up := [], dn := [], x := [], y := [] } : RowanRun)) }), (17), ((({ tag := 5, kind := 0, op := 3, axis := 0, inst := 0, step := 0, part := 0, dest := 0, group := 3, jobLo := 5, lanes := [1, 2, 3] } : Flit)).words.map fun w => encodeWord w false), (({ tag := 5, kind := 0, op := 3, axis := 0, inst := 0, step := 0, part := 0, dest := 0, group := 3, jobLo := 5, lanes := [1, 2, 3] } : Flit)), (({ serves := .barrier 7, fjob := 5, slot := 0, group := 3, inst := 0, op := 0, lanes := 1, rings := [(0, [0, 1])], step := 0, sentAt := 10 ^ 12, v := [1], up := [], dn := [], x := [], y := [] } : RowanRun)), (by decide +kernel), (by decide +kernel)⟩,
   ⟨({ withJob (theJob) with links := vmod up.links 17 (fun l => { l with st := .up, width := 3 }), fabric := { up.fabric with modValid := true, routes := [(9, 0)] } }), (17), ((({ tag := 5, kind := 2, op := 3, axis := 0, inst := 0, step := 0, part := 0, dest := 0, group := 3, jobLo := 5, lanes := [1, 2, 3] } : Flit)).words.map fun w => encodeWord w false), (({ tag := 5, kind := 2, op := 3, axis := 0, inst := 0, step := 0, part := 0, dest := 0, group := 3, jobLo := 5, lanes := [1, 2, 3] } : Flit)), (by decide +kernel), (by decide +kernel)⟩,
   ⟨({ withJob (withGroup (pair 3)) with links := vmod (vmod up.links 17 (fun l => { l with st := .up, width := 3 })) 0 (fun l => { l with st := .up, width := 3 }), fabric := { up.fabric with modValid := true, routes := [(9, 0)] }, tagUses := [{ tag := 5, fjob := 5, group := 3, count := 1, sent := [({ tag := 5, kind := 0, op := 3, axis := 0, inst := 0, step := 0, part := 0, dest := 9, group := 3, jobLo := 5, lanes := [1, 2, 3] } : Flit)] }] }), (17), ((({ tag := 5, kind := 2, op := 3, axis := 0, inst := 0, step := 0, part := 0, dest := 0, group := 3, jobLo := 5, lanes := [1, 2, 3] } : Flit)).words.map fun w => encodeWord w false), (({ tag := 5, kind := 2, op := 3, axis := 0, inst := 0, step := 0, part := 0, dest := 0, group := 3, jobLo := 5, lanes := [1, 2, 3] } : Flit)), (({ tag := 5, kind := 0, op := 3, axis := 0, inst := 0, step := 0, part := 0, dest := 9, group := 3, jobLo := 5, lanes := [1, 2, 3] } : Flit)), (0), (0), (by decide +kernel), (by decide +kernel)⟩,
   ⟨({ up with rowan := vset up.rowan 63 (some ({ serves := .barrier 7, fjob := 5, slot := 0, group := 3, inst := 0, op := 0, lanes := 1, rings := [(0, [0, 1])], step := 0, sentAt := 10 ^ 12, v := [1], up := [], dn := [], x := [], y := [] } : RowanRun)) }), (5), (17), (63), (({ serves := .barrier 7, fjob := 5, slot := 0, group := 3, inst := 0, op := 0, lanes := 1, rings := [(0, [0, 1])], step := 0, sentAt := 10 ^ 12, v := [1], up := [], dn := [], x := [], y := [] } : RowanRun)), (by decide +kernel)⟩,
   ⟨({ up with rowan := vset up.rowan 63 (some ({ serves := .barrier 7, fjob := 5, slot := 0, group := 3, inst := 0, op := 0, lanes := 1, rings := [(0, [0, 1])], step := 0, sentAt := 9 * 10 ^ 11, v := [1], up := [], dn := [], x := [], y := [] } : RowanRun)) }), (5), (17), (63), (({ serves := .barrier 7, fjob := 5, slot := 0, group := 3, inst := 0, op := 0, lanes := 1, rings := [(0, [0, 1])], step := 0, sentAt := 9 * 10 ^ 11, v := [1], up := [], dn := [], x := [], y := [] } : RowanRun)), (by decide +kernel)⟩⟩

theorem witness_FieldTestsRun :
    (∃ (s : State) (dt : Nat) (n : _) (w : _), 
      let p := s.pass dt
      let u := p.settleSwitch
      (s.stores = []) ∧ (u.testWindow n = some w) ∧ (w.opened = true ∨ u.ftNow < w.start))
    ∧ (∃ (s : State) (dt : Nat) (n : _) (w : _), 
      let p := s.pass dt
      let u := p.settleSwitch
      (s.stores = []) ∧ (u.testWindow n = some w) ∧ (w.opened = false) ∧ (w.start ≤ u.ftNow) ∧ (u.alert = true ∨ w.stop ≤ u.ftNow))
    ∧ (∃ (s : State) (dt : Nat) (n : _) (w : _), 
      let p := s.pass dt
      let u := p.settleSwitch
      (s.stores = []) ∧ (u.testWindow n = some w) ∧ (w.opened = false) ∧ (w.start ≤ u.ftNow) ∧ (u.alert = false) ∧ (u.ftNow < w.stop) ∧ (u.ft.unsynced = true) ∧ (w.deferred = false))
    ∧ (∃ (s : State) (dt : Nat) (n : _) (w : _), 
      let p := s.pass dt
      let u := p.settleSwitch
      (s.stores = []) ∧ (u.testWindow n = some w) ∧ (w.opened = false) ∧ (w.start ≤ u.ftNow) ∧ (u.alert = false) ∧ (u.ftNow < w.stop) ∧ (u.ft.unsynced = true) ∧ (w.deferred = true))
    ∧ (∃ (s : State) (dt : Nat) (n : _) (w : _), 
      let p := s.pass dt
      let u := p.settleSwitch
      (s.stores = []) ∧ (u.testWindow n = some w) ∧ (w.opened = false) ∧ (w.start ≤ u.ftNow) ∧ (u.alert = false) ∧ (u.ftNow < w.stop) ∧ (u.ft.unsynced = false) ∧ ((∃ y, y ∈ u.rel.tests ∧ y.core / 16 = w.tile)))
    ∧ (∃ (s : State) (dt : Nat) (n : _) (w : _), 
      let p := s.pass dt
      let u := p.settleSwitch
      let core := w.core.orElse fun _ => u.rotationCore w.tile
      (s.stores = []) ∧ (u.testWindow n = some w) ∧ (w.opened = false) ∧ (w.start ≤ u.ftNow) ∧ (u.alert = false) ∧ (u.ftNow < w.stop) ∧ (u.ft.unsynced = false) ∧ ((∀ y, y ∈ u.rel.tests → y.core / 16 ≠ w.tile)) ∧ (core = none ∨ (∃ g, core = some g ∧ u.retired (.core g) = true)))
    ∧ (∃ (s : State) (dt : Nat) (n : _) (w : _) (g : _), 
      let p := s.pass dt
      let u := p.settleSwitch
      let core := w.core.orElse fun _ => u.rotationCore w.tile
      (s.stores = []) ∧ (u.testWindow n = some w) ∧ (w.opened = false) ∧ (w.start ≤ u.ftNow) ∧ (u.alert = false) ∧ (u.ftNow < w.stop) ∧ (u.ft.unsynced = false) ∧ ((∀ y, y ∈ u.rel.tests → y.core / 16 ≠ w.tile)) ∧ (core = some g) ∧ (u.retired (.core g) = false))
    ∧ (∃ (s : State) (dt : Nat) (n : _) (w : _), 
      let p := s.pass dt
      (s.stores = []) ∧ (s.testWindow n = some w) ∧ (w.stop ≤ p.ftNow) ∧ ((∀ y, y ∈ s.rel.tests → y.window ≠ some n)))
    ∧ (∃ (s : State) (dt : Nat) (n : _) (w : _) (y : _), 
      let p := s.pass dt
      (s.stores = []) ∧ (s.testWindow n = some w) ∧ (w.stop ≤ p.ftNow) ∧ (s.rel.tests.find? (fun y => y.window == some n) = some y) ∧ (y.started = false))
    ∧ (∃ (s : State) (dt : Nat) (n : _) (w : _) (y : _), 
      let p := s.pass dt
      (s.stores = []) ∧ (s.testWindow n = some w) ∧ (w.stop ≤ p.ftNow) ∧ (s.rel.tests.find? (fun y => y.window == some n) = some y) ∧ (y.started = true))
    ∧ (∃ (s : State) (dt : Nat) (n : _) (w : _), 
      let p := s.pass dt
      (s.stores = []) ∧ (s.testWindow n = some w) ∧ (p.ftNow < w.stop))
    ∧ (∃ (s : State) (dt : Nat) (g : _) (x : _), 
      let p := s.pass dt
      (s.stores = []) ∧ (g < 512) ∧ (s.testRun g = some x) ∧ (x.started = false) ∧ (x.suspect = false) ∧ (x.waits = []) ∧ (s.busy g = true) ∧ (x.lastBoundary + 1000000 ≤ p.ftNow))
    ∧ (∃ (s : State) (dt : Nat) (g : _) (x : _), 
      let p := s.pass dt
      (s.stores = []) ∧ (g < 512) ∧ (s.testRun g = some x) ∧ (x.started = true ∨ x.suspect = true ∨ x.waits ≠ [] ∨ s.busy g = false ∨ p.ftNow < x.lastBoundary + 1000000))
    ∧ (∃ (s : State) (dt : Nat) (g : _) (x : _), 
      let p := s.pass dt
      let free : Prop := s.alert = false ∧ s.busy g = false ∧ s.retired (.core g) = false ∧ s.boot.coreReset.contains g = false ∧ s.boot.tileReset.contains (g / 16) = false ∧ ∀ y, y ∈ s.rel.tests → y.core / 16 = g / 16 → y.started = false
      let late : Prop := ∃ w, x.window.bind s.testWindow = some w ∧ w.stop ≤ p.ftNow
      (s.stores = []) ∧ (g < 512) ∧ (s.testRun g = some x) ∧ (¬ free ∨ x.started = true ∨ (s.rel.suspects.contains g = false ∧ (x.waits ≠ [] ∨ late))))
    ∧ (∃ (s : State) (dt : Nat) (g : _) (x : _), 
      let p := s.pass dt
      let free : Prop := s.alert = false ∧ s.busy g = false ∧ s.retired (.core g) = false ∧ s.boot.coreReset.contains g = false ∧ s.boot.tileReset.contains (g / 16) = false ∧ ∀ y, y ∈ s.rel.tests → y.core / 16 = g / 16 → y.started = false
      let late : Prop := ∃ w, x.window.bind s.testWindow = some w ∧ w.stop ≤ p.ftNow
      (s.stores = []) ∧ (g < 512) ∧ (s.testRun g = some x) ∧ (free) ∧ (x.started = false) ∧ (s.rel.suspects.contains g = true ∨ (x.waits = [] ∧ ¬ late)))
    ∧ (∃ (s : State) (g : _) (x : _), (s.stores = []) ∧ (g < 512) ∧ (s.testRun g = some x) ∧ (x.started = false))
    ∧ (∃ (s : State) (g : _) (x : _) (r : _), (s.stores = []) ∧ (g < 512) ∧ (s.testRun g = some x) ∧ (x.started = true) ∧ (failedUnit g r = none))
    ∧ (∃ (s : State) (g : _) (x : _) (r : _) (uu : _) (sig : _), (s.stores = []) ∧ (g < 512) ∧ (s.testRun g = some x) ∧ (x.started = true) ∧ (failedUnit g r = some (uu, sig)))
    ∧ (∃ (s : State) (g : _), (s.stores = []) ∧ (g < 512) ∧ (s.testRun g = none) ∧ (s.rel.suspects.contains g = true) ∧ (s.alert = false) ∧ (s.busy g = false) ∧ (s.retired (.core g) = false) ∧ (s.boot.coreReset.contains g = false) ∧ (s.boot.tileReset.contains (g / 16) = false) ∧ ((∀ y, y ∈ s.rel.tests → y.core / 16 = g / 16 → y.started = false))) :=
  ⟨⟨({ up with rel := { up.rel with windows := [({ num := 3, start := 10 ^ 12 - 5, stop := 10 ^ 12 + 100, core := none, tile := 2, opened := true } : TestWindow)] } }), (5), (3), (({ num := 3, start := 10 ^ 12 - 5, stop := 10 ^ 12 + 100, core := none, tile := 2, opened := true } : TestWindow)), (by decide +kernel), (by decide +kernel)⟩,
   ⟨({ up with rel := { up.rel with windows := [({ num := 3, start := 10 ^ 12 - 5, stop := 10 ^ 12 + 100, core := none, tile := 2 } : TestWindow)] }, site := { up.site with asserted := true } }), (5), (3), (({ num := 3, start := 10 ^ 12 - 5, stop := 10 ^ 12 + 100, core := none, tile := 2 } : TestWindow)), (by decide +kernel), (by decide +kernel)⟩,
   ⟨({ up with rel := { up.rel with windows := [({ num := 3, start := 10 ^ 12 - 5, stop := 10 ^ 12 + 100, core := none, tile := 2 } : TestWindow)] }, ft := { up.ft with outOfLock := true } }), (5), (3), (({ num := 3, start := 10 ^ 12 - 5, stop := 10 ^ 12 + 100, core := none, tile := 2 } : TestWindow)), (by decide +kernel), (by decide +kernel)⟩,
   ⟨({ up with rel := { up.rel with windows := [({ num := 3, start := 10 ^ 12 - 5, stop := 10 ^ 12 + 100, core := none, tile := 2, deferred := true } : TestWindow)] }, ft := { up.ft with outOfLock := true } }), (5), (3), (({ num := 3, start := 10 ^ 12 - 5, stop := 10 ^ 12 + 100, core := none, tile := 2, deferred := true } : TestWindow)), (by decide +kernel), (by decide +kernel)⟩,
   ⟨({ up with rel := { up.rel with windows := [({ num := 3, start := 10 ^ 12 - 5, stop := 10 ^ 12 + 100, core := none, tile := 2 } : TestWindow)], tests := [({ core := 37, window := none } : TestRun)] } }), (5), (3), (({ num := 3, start := 10 ^ 12 - 5, stop := 10 ^ 12 + 100, core := none, tile := 2 } : TestWindow)), (by decide +kernel), (by decide +kernel)⟩,
   ⟨({ up with rel := { up.rel with hist := [], units := [{ unit := .core 37, st := 2, lastFt := 0, total := 0 }], windows := [({ num := 3, start := 10 ^ 12 - 5, stop := 10 ^ 12 + 100, core := some 37, tile := 2 } : TestWindow)] }  }), (5), (3), (({ num := 3, start := 10 ^ 12 - 5, stop := 10 ^ 12 + 100, core := some 37, tile := 2 } : TestWindow)), (by decide +kernel), (by decide +kernel)⟩,
   ⟨({ up with rel := { up.rel with windows := [({ num := 3, start := 10 ^ 12 - 5, stop := 10 ^ 12 + 100, core := none, tile := 2 } : TestWindow)] } }), (5), (3), (({ num := 3, start := 10 ^ 12 - 5, stop := 10 ^ 12 + 100, core := none, tile := 2 } : TestWindow)), ((({ up with rel := { up.rel with windows := [({ num := 3, start := 10 ^ 12 - 5, stop := 10 ^ 12 + 100, core := none, tile := 2 } : TestWindow)] } }).rotationCore 2).getD 0), (by decide +kernel), (by decide +kernel)⟩,
   ⟨({ up with rel := { up.rel with windows := [({ num := 3, start := 10 ^ 12 - 5, stop := 10 ^ 12, core := none, tile := 2 } : TestWindow)] } }), (5), (3), (({ num := 3, start := 10 ^ 12 - 5, stop := 10 ^ 12, core := none, tile := 2 } : TestWindow)), (by decide +kernel), (by decide +kernel)⟩,
   ⟨({ up with rel := { up.rel with windows := [({ num := 3, start := 10 ^ 12 - 5, stop := 10 ^ 12, core := none, tile := 2 } : TestWindow)], tests := [({ core := 37, window := some 3 } : TestRun)] } }), (5), (3), (({ num := 3, start := 10 ^ 12 - 5, stop := 10 ^ 12, core := none, tile := 2 } : TestWindow)), (({ core := 37, window := some 3 } : TestRun)), (by decide +kernel), (by decide +kernel)⟩,
   ⟨({ up with rel := { up.rel with windows := [({ num := 3, start := 10 ^ 12 - 5, stop := 10 ^ 12, core := none, tile := 2 } : TestWindow)], tests := [({ core := 37, window := some 3, started := true } : TestRun)] } }), (5), (3), (({ num := 3, start := 10 ^ 12 - 5, stop := 10 ^ 12, core := none, tile := 2 } : TestWindow)), (({ core := 37, window := some 3, started := true } : TestRun)), (by decide +kernel), (by decide +kernel)⟩,
   ⟨({ up with rel := { up.rel with windows := [({ num := 3, start := 10 ^ 12 - 5, stop := 10 ^ 12 + 100, core := none, tile := 2 } : TestWindow)] } }), (5), (3), (({ num := 3, start := 10 ^ 12 - 5, stop := 10 ^ 12 + 100, core := none, tile := 2 } : TestWindow)), (by decide +kernel), (by decide +kernel)⟩,
   ⟨({ up with rel := { up.rel with tests := [({ core := 37, window := none, lastBoundary := 5 } : TestRun)] }, works := [{ wk 0x30 [] [] with items := [{ num := 0, core := some 37, started := true }] }] }), (5), (37), (({ core := 37, window := none, lastBoundary := 5 } : TestRun)), (by decide +kernel), (by decide +kernel)⟩,
   ⟨({ up with rel := { up.rel with tests := [({ core := 37, window := none, started := true } : TestRun)] } }), (5), (37), (({ core := 37, window := none, started := true } : TestRun)), (by decide +kernel), (by decide +kernel)⟩,
   ⟨({ up with rel := { up.rel with tests := [({ core := 37, window := none, started := true } : TestRun)] } }), (5), (37), (({ core := 37, window := none, started := true } : TestRun)), (by decide +kernel), (by decide +kernel)⟩,
   ⟨({ up with rel := { up.rel with tests := [({ core := 37, window := none } : TestRun)] } }), (5), (37), (({ core := 37, window := none } : TestRun)), (by decide +kernel), (by decide +kernel)⟩,
   ⟨({ up with rel := { up.rel with tests := [({ core := 37, window := none } : TestRun)] } }), (37), (({ core := 37, window := none } : TestRun)), (by decide +kernel)⟩,
   ⟨({ up with rel := { up.rel with tests := [({ core := 37, window := none, started := true } : TestRun)] } }), (37), (({ core := 37, window := none, started := true } : TestRun)), (PassResult.passed), (by decide +kernel)⟩,
   ⟨({ up with rel := { up.rel with tests := [({ core := 37, window := none, started := true } : TestRun)] } }), (37), (({ core := 37, window := none, started := true } : TestRun)), (PassResult.failedArray 1 2), ((Unit_.array 37 1)), ((2 + at_ 2 7 4 : Nat)), (by decide +kernel)⟩,
   ⟨({ up with rel := { up.rel with suspects := [37] } }), (37), (by decide +kernel)⟩⟩

theorem witness_RailsAndTemperatures :
    (∃ (s : State) (tile : Nat), (s.stores = []) ∧ (tile < 32) ∧ (s.clocksRun = true))
    ∧ (∃ (s : State) (tile : Nat), (s.stores = []) ∧ (tile < 32) ∧ (s.clocksRun = true))
    ∧ (∃ (s : State) (tile : Nat), (s.stores = []) ∧ (tile < 32) ∧ (s.clocksRun = true))
    ∧ (∃ (s : State) (tile : Nat), (s.stores = []) ∧ (tile < 32) ∧ (s.clocksRun = true))
    ∧ (∃ (s : State) (tile : Nat), (s.stores = []) ∧ (tile < 32) ∧ (s.clocksRun = true))
    ∧ (∃ (s : State) (tile : Nat), (s.stores = []) ∧ (tile < 32) ∧ (s.clocksRun = true))
    ∧ (∃ (s : State) (tile : Nat), (s.stores = []) ∧ (tile < 32) ∧ (s.clocksRun = true))
    ∧ (∃ (s : State) (tile : Nat), (s.stores = []) ∧ (tile < 32) ∧ (s.clocksRun = true))
    ∧ (∃ (s : State) (tile : Nat) (sensor : _) (temp : _), 
      let x := s.ptile tile
      (s.stores = []) ∧ (tile < 32) ∧ (s.clocksRun = true) ∧ (sensor < 8) ∧ ((105 : Int) ≤ temp) ∧ ((∀ c, c ∈ x.sensors → c < (105 : Int))))
    ∧ (∃ (s : State) (tile : Nat) (sensor : _) (temp : _), 
      let x := s.ptile tile
      (s.stores = []) ∧ (tile < 32) ∧ (s.clocksRun = true) ∧ (sensor < 8) ∧ (temp < (105 : Int) ∨ (∃ c, c ∈ x.sensors ∧ (105 : Int) ≤ c)))
    ∧ (∃ (s : State) (tile : Nat), 
      let x := s.ptile tile
      (s.stores = []) ∧ (tile < 32) ∧ (s.clocksRun = true) ∧ ((∀ c, c ∈ x.sensors → c < (105 : Int))))
    ∧ (∃ (s : State) (tile : Nat), 
      let x := s.ptile tile
      (s.stores = []) ∧ (tile < 32) ∧ (s.clocksRun = true) ∧ ((∃ c, c ∈ x.sensors ∧ (105 : Int) ≤ c)))
    ∧ (∃ (s : State) (tile : Nat) (temp : _), 
      let x := s.ptile tile
      (s.stores = []) ∧ (tile < 32) ∧ (s.clocksRun = true) ∧ ((95 : Int) ≤ temp) ∧ (x.stackHot = false))
    ∧ (∃ (s : State) (tile : Nat) (temp : _), 
      let x := s.ptile tile
      (s.stores = []) ∧ (tile < 32) ∧ (s.clocksRun = true) ∧ (temp < (95 : Int) ∨ x.stackHot = true))
    ∧ (∃ (s : State) (tile : Nat) (temp : _), 
      let x := s.ptile tile
      (s.stores = []) ∧ (tile < 32) ∧ (s.clocksRun = true) ∧ ((95 : Int) ≤ temp) ∧ (x.stackHot = false))
    ∧ (∃ (s : State) (tile : Nat) (temp : _), 
      let x := s.ptile tile
      (s.stores = []) ∧ (tile < 32) ∧ (s.clocksRun = true) ∧ (temp < (95 : Int) ∨ x.stackHot = true))
    ∧ (∃ (s : State) (tile : Nat), 
      let x := s.ptile tile
      (s.stores = []) ∧ (tile < 32) ∧ (s.clocksRun = true) ∧ (x.settling = none))
    ∧ (∃ (s : State) (tile : Nat) (k : _), 
      let x := s.ptile tile
      (s.stores = []) ∧ (tile < 32) ∧ (s.clocksRun = true) ∧ (x.settling = some k))
    ∧ (∃ (s : State) (tile : Nat), (s.stores = []) ∧ (tile < 32) ∧ (s.clocksRun = true) ∧ (s.registersRun = true)) :=
  ⟨⟨(up), (31), (by decide +kernel)⟩,
   ⟨(up), (31), (by decide +kernel)⟩,
   ⟨(up), (31), (by decide +kernel)⟩,
   ⟨(up), (31), (by decide +kernel)⟩,
   ⟨(up), (31), (by decide +kernel)⟩,
   ⟨(up), (31), (by decide +kernel)⟩,
   ⟨(up), (31), (by decide +kernel)⟩,
   ⟨(up), (31), (by decide +kernel)⟩,
   ⟨(up), (31), (7), ((105 : Int)), (by decide +kernel), (by decide +kernel)⟩,
   ⟨(up), (31), (7), ((20 : Int)), (by decide +kernel), (by decide +kernel)⟩,
   ⟨(up), (31), (by decide +kernel), (by decide +kernel)⟩,
   ⟨({ up with power := { up.power with tiles := vmod up.power.tiles 31 (fun x => { x with sensors := [20, 105, 0, 0, 0, 0, 0, 0] }) } }), (31), (by decide +kernel), (by decide +kernel)⟩,
   ⟨(up), (31), ((95 : Int)), (by decide +kernel), (by decide +kernel)⟩,
   ⟨(up), (31), ((94 : Int)), (by decide +kernel), (by decide +kernel)⟩,
   ⟨(up), (31), ((95 : Int)), (by decide +kernel), (by decide +kernel)⟩,
   ⟨(up), (31), ((91 : Int)), (by decide +kernel), (by decide +kernel)⟩,
   ⟨(up), (31), (by decide +kernel), (by decide +kernel)⟩,
   ⟨({ up with power := { up.power with tiles := vmod up.power.tiles 31 (fun x => { x with settling := some 3 }) } }), (31), (3), (by decide +kernel), (by decide +kernel)⟩,
   ⟨(up), (31), (by decide +kernel)⟩⟩

theorem witness_PhaseBoundariesKeepTheCap :
    (∃ (s : State) (dt : Nat), 
      let u := (s.pass dt).settleSwitch
      let per := max 1 u.ft.phasePeriod
      (s.stores = []) ∧ (u.ftRuns = false ∨ u.onGrid per = false))
    ∧ (∃ (s : State) (dt : Nat), 
      let u := (s.pass dt).settleSwitch
      let per := max 1 u.ft.phasePeriod
      (s.stores = []) ∧ (u.ftRuns = true) ∧ (u.onGrid per = true))
    ∧ (∃ (s : State) (dt : Nat) (w : _) (j : _), 
      let u := (s.pass dt).settleSwitch
      let per := max 1 u.ft.phasePeriod
      (s.stores = []) ∧ (u.ftRuns = true) ∧ (u.onGrid per = true) ∧ (u.works = [w]) ∧ (w.stage = .waiting) ∧ (w.due ≤ u.ftNow / per * per) ∧ (w.slot.getD 0 = j) ∧ (j < 4) ∧ (w.pkt.opcode = 0x72))
    ∧ (∃ (s : State) (dt : Nat) (w : _) (j : _), 
      let u := (s.pass dt).settleSwitch
      let per := max 1 u.ft.phasePeriod
      (s.stores = []) ∧ (u.ftRuns = true) ∧ (u.onGrid per = true) ∧ (u.works = [w]) ∧ (w.stage = .waiting) ∧ (w.due ≤ u.ftNow / per * per) ∧ (w.slot.getD 0 = j) ∧ (j < 4) ∧ (w.pkt.opcode = 0x80))
    ∧ (∃ (s : State) (dt : Nat) (w : _) (j : _), 
      let u := (s.pass dt).settleSwitch
      let per := max 1 u.ft.phasePeriod
      (s.stores = []) ∧ (u.ftRuns = true) ∧ (u.onGrid per = true) ∧ (u.works = [w]) ∧ (w.stage = .waiting) ∧ (w.due ≤ u.ftNow / per * per) ∧ (w.slot.getD 0 = j) ∧ (j < 4) ∧ (w.pkt.opcode = 0x81)) :=
  ⟨⟨({ up with ft := { up.ft with ps := 10 ^ 15 + 5 * 10 ^ 7 } }), (5), (by decide +kernel), (by decide +kernel)⟩,
   ⟨(up), (5), (by decide +kernel), (by decide +kernel)⟩,
   ⟨({ withJob theJob with works := [{ wk 0x72 [3000, 2] [] with stage := .waiting, due := 10 ^ 12 }] }), (5), ({ wk 0x72 [3000, 2] [] with stage := .waiting, due := 10 ^ 12 }), (0), (by decide +kernel), (by decide +kernel)⟩,
   ⟨({ withJob theJob with works := [{ wk 0x80 [3000, 2] [] with stage := .waiting, due := 10 ^ 12 }] }), (5), ({ wk 0x80 [3000, 2] [] with stage := .waiting, due := 10 ^ 12 }), (0), (by decide +kernel), (by decide +kernel)⟩,
   ⟨({ withJob theJob with works := [{ wk 0x81 [3000, 2] [] with stage := .waiting, due := 10 ^ 12 }] }), (5), ({ wk 0x81 [3000, 2] [] with stage := .waiting, due := 10 ^ 12 }), (0), (by decide +kernel), (by decide +kernel)⟩⟩

theorem witness_SecurityAndHostLink :
    (∃ (s : State), (s.stores = []) ∧ (s.registersRun = true) ∧ (s.cxl.linkUp = true) ∧ (s.sec.sessions.length ≤ 4))
    ∧ (∃ (s : State), (s.stores = []) ∧ (s.registersRun = false ∨ s.cxl.linkUp = false))
    ∧ (∃ (s : State) (dt : Nat) (n : _) (x : _), (s.stores = []) ∧ (s.sec.sessions.find? (fun x => x.num == n) = some x) ∧ (s.uptime + dt < x.lastBeat + 60000000000))
    ∧ (∃ (s : State) (dt : Nat) (n : _) (x : _), (s.stores = []) ∧ (s.sec.sessions.find? (fun x => x.num == n) = some x) ∧ (x.lastBeat + 60000000000 ≤ s.uptime + dt))
    ∧ (∃ (s : State), (s.stores = []) ∧ (s.sec.ok16 = true))
    ∧ (∃ (s : State), (s.stores = []) ∧ (s.sec.ok16 = false))
    ∧ (∃ (s : State) (n : _), (s.stores = []) ∧ (n < 32) ∧ (n ≠ 0) ∧ (n ≠ 16))
    ∧ (∃ (s : State), (s.stores = []) ∧ (s.sec.ok0 = true))
    ∧ (∃ (s : State), (s.stores = []) ∧ (s.sec.ok0 = false))
    ∧ (∃ (s : State), (s.stores = []))
    ∧ (∃ (s : State) (why : CxlHold), (s.stores = []) ∧ ((why = .linkDown → s.boot.strapClk ≠ 2 ∨ s.ft.refPresent = true)))
    ∧ (∃ (s : State), (s.stores = []) ∧ (s.boot.strapClk = 2) ∧ (s.ft.refPresent = false))
    ∧ (∃ (s : State), (s.stores = []) ∧ (s.boot.sideband = true))
    ∧ (∃ (s : State), (s.stores = []) ∧ (s.boot.sideband = true))
    ∧ (∃ (s : State) (kind : _), (s.stores = []) ∧ (kind = 5 ∨ kind = 6) ∧ (s.boot.sideband = true) ∧ (s.boot.selfTested = true) ∧ (s.sec.sessions.length ≤ 4))
    ∧ (∃ (s : State) (kind : _), (s.stores = []) ∧ (kind = 5 ∨ kind = 6) ∧ (s.boot.bringup = false) ∧ (s.boot.selfTested = false))
    ∧ (∃ (s : State) (body : List Byte), (s.stores = []) ∧ (s.boot.sideband = true) ∧ (bytesNat (body.take 4) < 0x400) ∧ (bytesNat (body.take 4) % 8 = 0))
    ∧ (∃ (s : State) (body : List Byte), (s.stores = []) ∧ (0x400 ≤ bytesNat (body.take 4) ∨ bytesNat (body.take 4) % 8 ≠ 0))
    ∧ (∃ (s : State) (kind : _), (s.stores = []) ∧ (s.boot.sideband = false ∨ ¬ (kind = 0 ∨ kind = 1 ∨ kind = 5 ∨ kind = 6 ∨ kind = 0x7E)))
    ∧ (∃ (s : State), (s.stores = []) ∧ (s.boot.powered = true))
    ∧ (∃ (s : State), (s.stores = []) ∧ (s.boot.powered = false)) :=
  ⟨⟨({ up with cxl := { up.cxl with linkUp := true } }), (by decide +kernel)⟩,
   ⟨(State.reset), (by decide +kernel), (Or.inl (by decide +kernel))⟩,
   ⟨({ up with sec := { up.sec with sessions := [({ num := 3, via := .doe, lastBeat := 0 } : Session)] } }), (5), (3), (({ num := 3, via := .doe, lastBeat := 0 } : Session)), (by decide +kernel)⟩,
   ⟨({ up with sec := { up.sec with sessions := [({ num := 3, via := .doe, lastBeat := 0 } : Session)] } , uptime := 60000000000 }), (5), (3), (({ num := 3, via := .doe, lastBeat := 0 } : Session)), (by decide +kernel)⟩,
   ⟨(up), (by decide +kernel)⟩,
   ⟨({ up with sec := { up.sec with ok16 := false } }), (by decide +kernel)⟩,
   ⟨(up), (3), (by decide +kernel)⟩,
   ⟨(up), (by decide +kernel)⟩,
   ⟨({ up with sec := { up.sec with ok0 := false } }), (by decide +kernel)⟩,
   ⟨(up), (by decide +kernel)⟩,
   ⟨(up), (CxlHold.noBme), (by decide +kernel)⟩,
   ⟨({ up with boot := { up.boot with strapClk := 2 }, ft := { up.ft with refPresent := false } }), (by decide +kernel)⟩,
   ⟨(up), (by decide +kernel)⟩,
   ⟨(up), (by decide +kernel)⟩,
   ⟨(up), (5), (by decide +kernel)⟩,
   ⟨({ up with boot := { up.boot with bringup := false, bringupDone := false } }), (5), (by decide +kernel)⟩,
   ⟨(up), ([0x40, 0, 0, 0]), (by decide +kernel)⟩,
   ⟨(up), ([0x41, 0, 0, 0]), (by decide +kernel)⟩,
   ⟨(up), (2), (by decide +kernel)⟩,
   ⟨(up), (by decide +kernel)⟩,
   ⟨({ State.reset with boot := { State.reset.boot with powered := false } }), (by decide +kernel)⟩⟩

theorem witness_StepRunsTheFrontCommand :
    (∃ (s : State) (c : Instr) (q : List Instr), (s.pending = c :: q))
    ∧ (∃ (s : State), (s.pending = [])) :=
  ⟨⟨({ up with pending := [.startGood 5] }), (Instr.startGood 5), (([] : List Instr)), (by decide +kernel)⟩,
   ⟨(up), (by decide +kernel)⟩⟩

theorem witness_StepKeepsTheInvariant :
    (∃ (s : State) (t : State), (s.Inv) ∧ (step s = .next t)) :=
  ⟨({ up with pending := [.startGood 5] }), ({ up with uptime := 5, ft := { up.ft with ps := 10 ^ 15 + 5000 }, rel := { up.rel with ophNs := 5 } }), (by unfold State.Inv; decide +kernel), (rfl)⟩

/-! ## Witnesses written by hand -/

/-- FirmwareIsStagedAndSwitched, FW_STAGE's refusal: an image too short to name its part fails one of the checks that answer 0x0007 or
0x01B2, whatever the digests are. -/
theorem witness_FwStageFails :
    ∃ (s : State) (w : Work) (d : Nat), s.stores = [] ∧ s.handed 7 [0x04] = some w ∧ s.sec.error = false ∧ w.outs = [] ∧ w.pkt.resHost = true
      ∧ s.cxlOpen = true ∧ (s.pass 5).finishMoves.work 7 = some w ∧ (let image := cellGetAll s.hostMem (w.pkt.par 0).toNat (w.pkt.par 1).toNat
        imageFails image s.sec.svn = some 4 ∧ d = 0x01B2 ∨ imageFails image s.sec.svn = some 5 ∧ d = 0x01C0
          ∨ (imageFails image s.sec.svn = some 1 ∨ imageFails image s.sec.svn = some 2 ∨ imageFails image s.sec.svn = some 3) ∧ d = 0x0007) := by
  have h : imageFails [] 0 = some 1 ∨ imageFails [] 0 = some 2 ∨ imageFails [] 0 = some 3 ∨ imageFails [] 0 = some 4 := by
    have hp : imageField [] 16 16 ≠ partString := by decide
    unfold imageFails
    simp only [hp, ne_eq, not_false_eq_true, ite_true]
    repeat' split
    all_goals simp
  have hi : cellGetAll (busy (wk 0x804 [4096, 0] [])).hostMem ((wk 0x804 [4096, 0] []).pkt.par 0).toNat
      ((wk 0x804 [4096, 0] []).pkt.par 1).toNat = [] := by decide +kernel
  have hs : (busy (wk 0x804 [4096, 0] [])).sec.svn = 0 := rfl
  have hd : ∃ d : Nat, imageFails [] 0 = some 4 ∧ d = 0x01B2 ∨ imageFails [] 0 = some 5 ∧ d = 0x01C0
      ∨ (imageFails [] 0 = some 1 ∨ imageFails [] 0 = some 2 ∨ imageFails [] 0 = some 3) ∧ d = 0x0007 := by
    rcases h with h | h | h | h
    · exact ⟨0x0007, Or.inr (Or.inr ⟨Or.inl h, rfl⟩)⟩
    · exact ⟨0x0007, Or.inr (Or.inr ⟨Or.inr (Or.inl h), rfl⟩)⟩
    · exact ⟨0x0007, Or.inr (Or.inr ⟨Or.inr (Or.inr h), rfl⟩)⟩
    · exact ⟨0x01B2, Or.inl ⟨h, rfl⟩⟩
  obtain ⟨d, hd⟩ := hd
  refine ⟨busy (wk 0x804 [4096, 0] []), wk 0x804 [4096, 0] [], d, by decide +kernel, by decide +kernel, by decide +kernel, by decide +kernel,
    by decide +kernel, by decide +kernel, by decide +kernel, ?_⟩
  show imageFails (cellGetAll _ _ _) _ = _ ∧ _ ∨ _
  rw [hi, hs]
  exact hd

/-- FirmwareIsStagedAndSwitched, FW_STAGE's success: which images pass is the opaque digests' and signatures' to say, so the witness is
one for every image of 8,192 bytes in host memory that they let pass. -/
theorem witness_FwStagePasses (m : List Host.Cell) (h : imageFails (cellGetAll m 4096 8192) 0 = none) :
    ∃ (s : State) (w : Work), s.stores = [] ∧ s.handed 7 [0x04] = some w ∧ s.sec.error = false ∧ w.outs = [] ∧ w.pkt.resHost = true
      ∧ s.cxlOpen = true ∧ (s.pass 5).finishMoves.work 7 = some w
      ∧ imageFails (cellGetAll s.hostMem (w.pkt.par 0).toNat (w.pkt.par 1).toNat) s.sec.svn = none := by
  have hh : (busy (wk 0x804 [4096, 8192] [])).handed 7 [0x04] = some (wk 0x804 [4096, 8192] []) := by decide +kernel
  have h0 : ((wk 0x804 [4096, 8192] []).pkt.par 0).toNat = 4096 := by decide +kernel
  have h1 : ((wk 0x804 [4096, 8192] []).pkt.par 1).toNat = 8192 := by decide +kernel
  refine ⟨{ busy (wk 0x804 [4096, 8192] []) with hostMem := m }, wk 0x804 [4096, 8192] [], rfl, hh, rfl, rfl, by decide +kernel, rfl, rfl, ?_⟩
  rw [h0, h1]
  exact h

/-- ShardsAndBucketsAreTaken, the owner whose buffer is placed. -/
theorem witness_BucketIsPlaced :
    ∃ (s : State) (w : Work) (g : Group) (p : OwnerSide × State), s.stores = [] ∧ s.handed 7 [0x59] = some w ∧ w.pkt.declares = false
      ∧ s.group (w.slot.getD 0) w.pkt.bdesc.grp = some g ∧ g.rank s.fabric.mod = w.pkt.bdesc.owner
      ∧ s.placeBuffer 0 0 w.pkt.bdesc.count g.size = some p := by
  have h : (bucketHeld.placeBuffer 0 0 4 2).isSome = true := by decide +kernel
  obtain ⟨p, hp⟩ := Option.isSome_iff_exists.mp h
  exact ⟨bucketHeld, bucketPacket, pair 1, p, by decide +kernel, by decide +kernel, by decide +kernel, by decide +kernel, by decide +kernel, hp⟩

/-- OneBitErrorsAreCorrected, CapabilityPage, ReductionsOfIntegers, LanesCarryTheSum and LinksLeaveTheEdgeTiles: the numbers they speak of. -/
theorem witness_Numbers :
    (∃ i : Nat, i < 80) ∧ (∃ k : Nat, 2 ≤ k ∧ k < 32) ∧ (∃ c n j i : Nat, 0 < n ∧ j < n ∧ i < c)
    ∧ (∃ xs : List Nat, xs ≠ [] ∧ xs.length ≤ 4096 ∧ ∀ x, x ∈ xs → x < 2 ^ 64)
    ∧ (∃ xs ys : List LaneIn, xs ≠ ys ∧ xs.Perm ys)
    ∧ (∃ (v r : Nat) (q : Int) (x y : LaneIn), v < 2 ^ 64 ∧ r < 251 ∧ ownLanes [q] = [x] ∧ ownLanes [-q] = [y])
    ∧ (∃ (s : State) (d : BDesc) (o : OwnerSide) (i : Nat) (l : LaneIn) (p p' : Place) (v r : Word), l.poison = false ∧ l.resPoison = false
      ∧ s.resolve o.bufTile (o.laneOff i) = some p ∧ s.resolve o.bufTile (o.resOff d i) = some p' ∧ placeKey p ≠ placeKey p'
      ∧ s.storedCw p = encodeWord v false ∧ s.storedCw p' = encodeWord r false)
    ∧ (∃ l₁ l₂ l₃ : Nat, l₁ ≤ 7 ∧ 7 ≤ l₂ ∧ l₂ ≤ 10 ∧ 10 ≤ l₃ ∧ l₃ < 18)
    ∧ (∃ qs : List Int, qs ≠ [] ∧ -(2 ^ 63 : Int) ≤ qs.sum ∧ qs.sum < 2 ^ 63) :=
  ⟨⟨79, by decide⟩, ⟨31, by decide⟩, ⟨10, 3, 2, 9, by decide⟩, ⟨[5, 2 ^ 64 - 1], by decide⟩, 
   ⟨[laneOne, laneTwo], [laneTwo, laneOne], by decide, List.Perm.swap _ _ _⟩,
   ⟨2 ^ 64 - 1, 250, -(2 ^ 63), _, _, by decide, by decide, rfl, rfl⟩,
   ⟨bucketHeld, bucketPacket.pkt.bdesc, { members := [], bufTile := 0, bufPage := 9, bufPages := 1 }, 3, laneOne, .dram 0 9 0 3, .dram 0 9 0 4, 0, 0,
    by decide +kernel⟩,
   ⟨7, 10, 17, by decide⟩,
   ⟨[2 ^ 63 - 1, 1, -1], by decide⟩⟩

/-- TimeIsKept: the lock states and estimates that the millisecond's clauses speak of. -/
theorem witness_FtMillisecond :
    (∃ (s : State) (src : FtSource) (l : Nat) (e : Int), s.ftRuns = true ∧ (s.pass 0).onGrid 1000000 = true ∧ s.ft.state = .locked
      ∧ (s.pass 0).estimate = (src, l, some e))
    ∧ (∃ (s : State) (l : Nat), s.ftRuns = true ∧ (s.pass 0).onGrid 1000000 = true ∧ s.ft.state = .locked ∧ (s.pass 0).estimate = (.none, l, none))
    ∧ (∃ (s : State) (src : FtSource) (l : Nat), s.ftRuns = true ∧ (s.pass 0).onGrid 1000000 = true ∧ s.ft.state = .holdover
      ∧ (s.pass 0).estimate = (src, l, none))
    ∧ (∃ (s : State) (src : FtSource) (l : Nat) (e : Int), s.ftRuns = true ∧ (s.pass 0).onGrid 1000000 = true ∧ s.ft.state = .holdover
      ∧ s.ft.outOfLock = false ∧ (s.pass 0).estimate = (src, l, some e) ∧ msPs < e.natAbs)
    ∧ (∃ (s : State) (src : FtSource) (l : Nat) (e : Int), s.ftRuns = true ∧ (s.pass 0).onGrid 1000000 = true ∧ s.ft.state = .acquiring
      ∧ s.ft.refPresent = true ∧ 15 ≤ s.ft.quiet ∧ (s.pass 0).estimate = (src, l, some e) ∧ e.natAbs ≤ 10000)
    ∧ (∃ (s : State) (src : FtSource) (l : Nat) (e : Int), s.ftRuns = true ∧ (s.pass 0).onGrid 1000000 = true ∧ s.ft.state = .acquiring
      ∧ s.ft.refPresent = true ∧ (s.pass 0).estimate = (src, l, some e) ∧ 10000 < e.natAbs) :=
  ⟨⟨atMs .locked (some 50001), .ownSync, 0, 50001, by decide +kernel⟩, ⟨atMs .locked none, 0, by decide +kernel⟩,
   ⟨atMs .holdover none, .none, 0, by decide +kernel⟩, ⟨atMs .holdover (some (-1000000001)), .ownSync, 0, -1000000001, by decide +kernel⟩,
   ⟨atMs .acquiring (some 10000), .ownSync, 0, 10000, by decide +kernel⟩, ⟨atMs .acquiring (some 10001), .ownSync, 0, 10001, by decide +kernel⟩⟩

/-- PhaseBoundariesKeepTheCap: needs that the loop has to lower. -/
theorem witness_LowerTiles :
    ∃ as : List Alloc, as.length ≤ 32 ∧ (as.map fun a => a.1).Nodup ∧ up.power.computeCap * 1000 < (as.map fun a => a.2.2).foldl (· + ·) 0 :=
  ⟨[(0, 0, 10 ^ 9), (31, 3, 5)], by decide +kernel⟩

/-- PartsOutsideTheNumberingFault: numbers past each numbering, at its edge. -/
theorem witness_PartsOutsideTheNumbering :
    ∃ n : Nat, 18 ≤ n ∧ ∃ m : Nat, 2 ^ 40 ≤ m ∧ 4096 ≤ m ∧ 32 ≤ m ∧ 512 ≤ m ∧ 4 ≤ m ∧ 64 ≤ m ∧ 0x1000000 ≤ m :=
  ⟨18, by decide, 2 ^ 40, by decide⟩

/-! ## Ill-formed commands: one for each check of WellFormed.lean -/

theorem ill_window : (Instr.headerWrite 0 64 0 (List.replicate 8 0)).wellFormed = false := by decide
theorem ill_header_slot : (Instr.headerWrite 0 0 4096 (List.replicate 8 0)).wellFormed = false := by decide
theorem ill_header_words : (Instr.headerWrite 0 0 0 (List.replicate 7 0)).wellFormed = false := by decide
theorem ill_ring_poll_store : (Instr.ringPoll 0 0 [(2 ^ 64, 1)]).wellFormed = false := by decide
theorem ill_ring_poll_window : (Instr.ringPoll 0 64 []).wellFormed = false := by decide
theorem ill_packet_consume : (Instr.packetConsume 0 64 []).wellFormed = false := by decide
theorem ill_packet_consume_store : (Instr.packetConsume 0 0 [(2 ^ 64, 1)]).wellFormed = false := by decide
theorem ill_dispatch : (Instr.dispatch 0 64).wellFormed = false := by decide
theorem ill_cmdw_enable : (Instr.cmdwEnable 0 64 0).wellFormed = false := by decide
theorem ill_cmdw_disable : (Instr.cmdwDisable 0 64).wellFormed = false := by decide
theorem ill_reply_ack_window : (Instr.cmdwReplyAck 0 64 0).wellFormed = false := by decide
theorem ill_reply_ack_index : (Instr.cmdwReplyAck 0 0 4096).wellFormed = false := by decide
theorem ill_register_master : (Instr.registerWrite 0 65536 0 8 0).wellFormed = false := by decide
theorem ill_register_offset : (Instr.registerWrite 0 0 (2 ^ 24) 8 0).wellFormed = false := by decide
theorem ill_register_alignment : (Instr.registerWrite 0 0 4 8 0).wellFormed = false := by decide
theorem ill_register_size : (Instr.registerWrite 0 0 0 2 0).wellFormed = false := by decide
theorem ill_fw_stage : (Instr.fwStage 0 0 [(2 ^ 64, 1)]).wellFormed = false := by decide
theorem ill_copy : (Instr.copy 0 0 [(2 ^ 64, 1)] []).wellFormed = false := by decide
theorem ill_memory_read_empty : (Instr.memoryRead 0 .arrived 0 0).wellFormed = false := by decide
theorem ill_memory_read_long : (Instr.memoryRead 0 .arrived 0 4097).wellFormed = false := by decide
theorem ill_memory_write_empty : (Instr.memoryWrite 0 .arrived 0 0 [] []).wellFormed = false := by decide
theorem ill_memory_write_long : (Instr.memoryWrite 0 .arrived 0 4097 [] []).wellFormed = false := by decide
theorem ill_memory_write_mask : (Instr.memoryWrite 0 .arrived 0 8 (List.replicate 65 0) []).wellFormed = false := by decide
theorem ill_memory_accumulate_empty : (Instr.memoryAccumulate 0 .arrived 0 []).wellFormed = false := by decide
theorem ill_host_read : (Instr.hostMemRead 0 (2 ^ 40)).wellFormed = false := by decide
theorem ill_host_write : (Instr.hostMemWrite 0 (2 ^ 40) (List.replicate 64 0)).wellFormed = false := by decide
theorem ill_host_write_line : (Instr.hostMemWrite 0 0 []).wellFormed = false := by decide
theorem ill_remote_timeout : (Instr.remoteTimeout 0 (2 ^ 28)).wellFormed = false := by decide
theorem ill_scrub_dram : (Instr.scrub 0 (.dram 0 0 12288 0)).wellFormed = false := by decide
theorem ill_scrub_shared : (Instr.scrub 0 (.shared 0 8388608)).wellFormed = false := by decide
theorem ill_scrub_core : (Instr.scrub 0 (.core 0 16 0)).wellFormed = false := by decide
theorem ill_page_move : (Instr.pageMove 0 0 393216 0 0 0).wellFormed = false := by decide
theorem ill_page_move_to : (Instr.pageMove 0 0 0 32 0 0).wellFormed = false := by decide
theorem ill_page_move_done : (Instr.pageMoveDone 0 32 0).wellFormed = false := by decide
theorem ill_work_item : (Instr.workItemDone 0 512 []).wellFormed = false := by decide
theorem ill_recompute : (Instr.recomputeDone 0 0 512 []).wellFormed = false := by decide
theorem ill_third_compute : (Instr.thirdComputeDone 0 0 512 []).wellFormed = false := by decide
theorem ill_jns_status : (Instr.jnsStatusWrite 0 4 0).wellFormed = false := by decide
theorem ill_barrier_slot : (Instr.barrierSlot 0 0 16).wellFormed = false := by decide
theorem ill_time_transfer : (Instr.timeTransfer 0 18 0 0 0 0 true 0).wellFormed = false := by decide
theorem ill_ft_millisecond : (Instr.ftMillisecond 0 0 [32]).wellFormed = false := by decide
theorem ill_phase_boundary : (Instr.phaseBoundary 0 [] []).wellFormed = false := by decide
theorem ill_light_detect : (Instr.lightDetect 0 0 4).wellFormed = false := by decide
theorem ill_training_done : (Instr.trainingDone 0 0 true 4096 0 true).wellFormed = false := by decide
theorem ill_training_done_peer : (Instr.trainingDone 0 0 true 0 18 true).wellFormed = false := by decide
theorem ill_training_retry : (Instr.trainingRetry 0 18).wellFormed = false := by decide
theorem ill_lane_fault : (Instr.laneFault 0 18 0).wellFormed = false := by decide
theorem ill_link_retrain : (Instr.linkRetrain 0 18).wellFormed = false := by decide
theorem ill_link_enable : (Instr.linkEnable 0 18 true).wellFormed = false := by decide
theorem ill_link_port : (Instr.linkPort 0 0 18).wellFormed = false := by decide
theorem ill_bulk_codeword : (Instr.bulkCodeword 0 0 true false 512 0 ⟨false, false⟩ 0).wellFormed = false := by decide
theorem ill_bulk_codeword_ack : (Instr.bulkCodeword 0 0 true false 0 512 ⟨false, false⟩ 0).wellFormed = false := by decide
theorem ill_bulk_codeword_lane : (Instr.bulkCodeword 0 0 true false 0 0 ⟨false, false⟩ 4).wellFormed = false := by decide
theorem ill_replay_timeout : (Instr.replayTimeout 0 18).wellFormed = false := by decide
theorem ill_rowan_frame : (Instr.rowanFrame 0 0 true ⟨[], true⟩).wellFormed = false := by decide
theorem ill_rowan_timer : (Instr.rowanResendTimer 0 64).wellFormed = false := by decide
theorem ill_rowan_request : (Instr.rowanResendRequest 0 18 []).wellFormed = false := by decide
theorem ill_message : (Instr.messageArrival 0 0 { (default : Msg) with dest := 4096 }).wellFormed = false := by decide
theorem ill_transit : (Instr.transitMessage 0 18 default).wellFormed = false := by decide
theorem ill_port_hold : (Instr.portHoldEnd 0 18).wellFormed = false := by decide
theorem ill_reservation : (Instr.reservationWrite 0 0 64 0 0).wellFormed = false := by decide
theorem ill_reservation_word : (Instr.reservationWrite 0 0 0 2 0).wellFormed = false := by decide
theorem ill_collective_start : (Instr.collectiveStart 0 0 64).wellFormed = false := by decide
theorem ill_collective_resend : (Instr.collectiveResend 0 0 (2 ^ 28)).wellFormed = false := by decide
theorem ill_bind_timeout : (Instr.bindTimeout 0 4 0).wellFormed = false := by decide
theorem ill_commit_vote : (Instr.commitVote 0 4).wellFormed = false := by decide
theorem ill_sa_release : (Instr.saRelease 0 16).wellFormed = false := by decide
theorem ill_test_start : (Instr.testStart 0 512).wellFormed = false := by decide
theorem ill_rail_limit : (Instr.railLimit 0 .vcore 32).wellFormed = false := by decide
theorem ill_junction : (Instr.junctionHot 0 0 8 20).wellFormed = false := by decide
theorem ill_thermal_trip : (Instr.thermalTrip 0 32 true 105).wellFormed = false := by decide
theorem ill_power_on : (Instr.powerOn 0 4 0).wellFormed = false := by decide
theorem ill_watchdog : (Instr.watchdogMiss 0 32).wellFormed = false := by decide
theorem ill_tamper : (Instr.tamper 0 16).wellFormed = false := by decide
theorem ill_core_reset : (Instr.coreResetDone 0 512).wellFormed = false := by decide
theorem ill_bringup_timeout : (Instr.bringupTimeout 0 7).wellFormed = false := by decide
theorem ill_boot_load : (Instr.bootLoad 0 (2 ^ 32) []).wellFormed = false := by decide
theorem ill_mctp : (Instr.mctpMessage 0 128 []).wellFormed = false := by decide
theorem ill_controller : (Instr.controllerFail 0 1).wellFormed = false := by decide
theorem ill_vcore : (Instr.vcoreSettled 0 32).wellFormed = false := by decide
theorem well_header : (Instr.headerWrite 0 63 4095 (List.replicate 8 0)).wellFormed = true := by decide

/-! ## Tests: the expected values are the spec's own examples -/

/-- No word spells a command: the table gives no bits. -/
theorem test_no_word : decodeTableWord 8 0x50 = none := by decide
/-- 02_fabric_time.md, the example after R50: core 3 of tile 7 is core 115 (00_scope.md) and takes slot 10; core 0 of tile 0 slot 0. -/
theorem test_ramp_slot : rampSlot (7 * 16 + 3) = 10 ∧ rampSlot 0 = 0 := by decide
/-- 08_memory.md, the example after R225: the upper 16 stored bits of the word 1, and an all-zero word. -/
theorem test_ecc_one : encodeWord 1 false = 0x86EE0000000000000001 := by decide +kernel
theorem test_ecc_zero : encodeWord 0 false = 0 := by decide +kernel
/-- 04_number_formats.md, the example of conversions from FP32 to FP16. -/
theorem test_convert : [0x3F801000, 0x3F803000, 0x477FF000, 0x33000000].map (fun b => (convertBits 2 0 b).bits) = [0x3C00, 0x3C02, 0x7C00, 0] := by
  decide +kernel
/-- 04_number_formats.md, the example of a derived output scale: 1,000,000 gives 0x84, and the element 0x77A1. -/
theorem test_derived_scale : deriveScale 0 [.fin false 1000000 0] = 0x84
    ∧ (roundVal 0 (applyOutScale 0x84 (.fin false 1000000 0))).bits = 0x77A1 := by decide +kernel
/-- 06_accumulation.md, the example of stochastic rounding: 1 + 3 × 2^-24 with d = 0x7FFFFF and 0x800000. -/
theorem test_stochastic : (srRound false (2 ^ 24 + 3) (-24) 0x7FFFFF).bits = 0x3F800001
    ∧ (srRound false (2 ^ 24 + 3) (-24) 0x800000).bits = 0x3F800002 := by decide +kernel
/-- 03_commands.md, the example's header word 0: opcode 0x50, job 2, SEQ 16,382. -/
theorem test_header_word :
    let p : Packet := { hdr := [0x00003FFE02020050] }
    p.opcode = 0x50 ∧ p.seq = 16382 ∧ p.resHost = false := by decide
/-- 04_number_formats.md, the example of a scaled operand: element (37, 970) of FP16 in blocks of 64 along K takes byte 607. -/
theorem test_operand_cell : operandCell (0x64) 100 1000 37 970 = 607 := by decide
/-- 06_accumulation.md, the example of the parts of K: 200,000 with SPLIT takes 4 parts. -/
theorem test_k_parts :
    let d : Prod := { (default : Prod) with op := 0x30, k := 200000, kcode := 1 }
    d.parts = 4 ∧ (List.range 4).map (fun j => (d.partRange 4 j).2 - (d.partRange 4 j).1) = [781, 781, 781, 782] := by decide +kernel
/-- An idle block: step on the reset state's empty queue answers the state itself (log entry 14). -/
theorem test_idle : ∃ t, step State.reset = .next t ∧ t.uptime = 0 := ⟨_, rfl, rfl⟩

end

end Sys2Proof.Tests
end

section
/-! PROOFS. The commands that name a part beyond its numbering (R5; log entry 27). -/

open Sys2Proof Sys2Proof.Machine

namespace Sys2Proof.Scope

/-- HEADER_WRITE checks its window before its ring slot. -/
theorem exec_headerWrite_not_window (s : State) (dt : Nat) {w : Nat} (h : 64 ≤ w) (slot : Nat) (words : List Word) :
    exec (.headerWrite dt w slot words) s = .fault (.noSuchPart "window") :=
  if_neg (Nat.not_lt.2 h)

/-- In a window that exists, HEADER_WRITE stops at a ring slot that does not. -/
theorem exec_headerWrite_not_slot (s : State) (dt : Nat) {w slot : Nat} (hw : w < 64) (h : 4096 ≤ slot) (words : List Word) :
    exec (.headerWrite dt w slot words) s = .fault (.noSuchPart "ring slot") :=
  (if_pos hw).trans (runPart_not h ..)

/-- Settles O57: every command that names one part runs through `runPart` with that part's numbering, so `runPart_not` stops it; HEADER_WRITE,
which names a window and a ring slot, has its two lemmas. -/
theorem partsOutsideTheNumberingFault : Obligations.PartsOutsideTheNumberingFault := by
  intro s dt
  refine ⟨fun _ link => ?_, fun _ offset => ?_, fun _ slot => ?_, fun _ tile => ?_, fun _ core => ?_, fun _ job => ?_, fun _ tag => ?_,
    fun _ port => ?_, fun _ window => ?_, fun _ register => ?_, fun _ reservation => ?_⟩
  · exact ⟨fun _ _ _ _ _ _ => runPart_not link .., fun _ => runPart_not link .., fun _ => runPart_not link .., runPart_not link ..,
      fun _ => runPart_not link .., runPart_not link .., fun _ => runPart_not link .., fun _ => runPart_not link .., runPart_not link ..,
      fun _ => runPart_not link .., fun _ => runPart_not link .., fun _ _ => runPart_not link .., fun _ _ _ _ => runPart_not link ..,
      fun _ _ _ _ _ _ => runPart_not link ..⟩
  · exact ⟨runPart_not offset .., fun _ => runPart_not offset ..⟩
  · exact fun _ words w => exec_headerWrite_not_slot s dt w slot words
  · exact ⟨fun _ _ => runPart_not tile .., runPart_not tile .., runPart_not tile .., runPart_not tile .., runPart_not tile ..,
      fun _ => runPart_not tile .., fun _ => runPart_not tile .., fun _ _ => runPart_not tile .., runPart_not tile ..,
      fun _ => runPart_not tile .., fun _ => runPart_not tile .., fun _ => runPart_not tile .., fun _ _ _ _ => runPart_not tile ..⟩
  · exact ⟨runPart_not core .., fun _ => runPart_not core .., fun _ _ => runPart_not core .., fun _ _ => runPart_not core ..,
      runPart_not core .., runPart_not core .., fun _ => runPart_not core ..⟩
  · exact ⟨runPart_not job .., runPart_not job .., fun _ => runPart_not job .., runPart_not job .., fun _ => runPart_not job ..,
      fun _ => runPart_not job .., fun _ => runPart_not job .., fun _ => runPart_not job .., runPart_not job .., fun _ => runPart_not job ..⟩
  · exact runPart_not tag ..
  · exact runPart_not port ..
  · exact ⟨runPart_not window .., fun _ => runPart_not window .., runPart_not window .., fun _ => runPart_not window ..,
      fun _ => runPart_not window .., fun _ => runPart_not window .., exec_headerWrite_not_window s dt window⟩
  · exact fun _ _ _ => runPart_not register ..
  · exact fun _ _ _ => runPart_not reservation ..

end Sys2Proof.Scope
end

section
/-! PROOFS. The writes of a job's registers: JNS_STATUS, JSC_GEN and JSH_CTRL (R108, R338, R375). -/

open Sys2Proof Sys2Proof.Machine

namespace Sys2Proof.JobRegisters

/-! ## What a command on one register set of a job may change -/

@[simp] theorem registersRun_pass (s : State) (dt : Nat) : (s.pass dt).registersRun = s.registersRun := rfl

@[simp] theorem job_land (s u : State) (j : Nat) : (s.land u).job j = u.job j := rfl

/-- A register write that names a part that exists acts while register space takes writes (R452). -/
theorem runPart_whenRegisters {k lim : Nat} {s : State} (hk : k < lim) (hr : s.registersRun = true) (what : String) (dt : Nat)
    (op : State → State) :
    runPart what k lim dt (whenRegisters op) s = .next ((s.pass dt).land (op (s.pass dt))) := by
  rw [runPart_of hk, whenRegisters, registersRun_pass, if_pos hr]

/-- From `s` to `t` only the named parts change, and of the job slots only `j`, seen before the landing. -/
def slotFrame (s t : State) (j : Nat) (ps : List Part) : Prop := s.frame t ps ∧ s.sameSlots t j

theorem slotFrame_refl (s : State) (j : Nat) (ps : List Part) : slotFrame s s j ps := ⟨frame_refl s ps, fun _ _ => rfl⟩

theorem slotFrame_modJob {s t : State} {j : Nat} {ps : List Part} (h : slotFrame s t j ps) (hp : ps.contains .jobs = true)
    (f : Job → Job) : slotFrame s (t.modJob j f) j ps :=
  ⟨modJob_frame h.1 hp j f, fun k hk => (modJob_other t j f hk).trans (h.2 k hk)⟩

theorem slotFrame_shards {s t : State} {j : Nat} {ps : List Part} (h : slotFrame s t j ps) (hp : ps.contains .shards = true)
    (hs : List Shard) : slotFrame s { t with shards := hs } j ps :=
  ⟨frame_trans h.1 ⟨rfl, fun _ => rfl, fun _ => rfl, fun p hq => by cases p <;> simp_all [Part.same, State.hostView]⟩, h.2⟩

/-- The frame of an operation is the frame of its command. -/
theorem slotFrame_land {s u : State} {dt j : Nat} {ps : List Part} (h : slotFrame (s.pass dt) u j ps) (hs : s.stores = []) :
    s.sameSlots ((s.pass dt).land u) j ∧ (s.pass dt).only ((s.pass dt).land u) ps :=
  ⟨h.2, land_only h.1 hs⟩

/-! ## JNS_STATUS (R108) -/

/-- Each bit written as 1 clears its flag: with NAN_TRAP goes the packet that filled the record, with SCALE_RANGE the count. -/
theorem clear_eq (n : NumSet) (v : Word) :
    n.clear v = { n with
      nanTrap := n.nanTrap && !bitOf v 0, nanPid := if bitOf v 0 then none else n.nanPid
      scaleRange := n.scaleRange && !bitOf v 1, rangeCount := if bitOf v 1 then 0 else n.rangeCount
      tiny := n.tiny && !bitOf v 2 } := by
  unfold NumSet.clear
  cases bitOf v 0 <;> cases bitOf v 1 <;> cases bitOf v 2 <;> simp

theorem job_opJnsStatusWrite (s : State) {j : Nat} (hj : j < 4) (v : Word) :
    (opJnsStatusWrite j v s).job j = { s.job j with num := (s.job j).num.clear v } :=
  modJob_same s j _ hj

theorem slotFrame_opJnsStatusWrite (s : State) (j : Nat) (v : Word) : slotFrame s (opJnsStatusWrite j v s) j [.jobs] :=
  slotFrame_modJob (slotFrame_refl s j _) rfl _

/-! ## JSC_GEN (R338) -/

/-- While GEN_OPEN is 0 the write changes nothing. -/
theorem opJscGenWrite_closed {s : State} {j : Nat} (h : (s.job j).stp.genOpen = false) (v : Word) : opJscGenWrite j v s = s := by
  simp [opJscGenWrite, h]

theorem opJscGenWrite_open {s : State} {j : Nat} (h : (s.job j).stp.genOpen = true) (v : Word) :
    opJscGenWrite j v s
      = ({ s with shards := updAll (fun h : Shard => h.slot == j) (fun h => { h with kept := 1 }) s.shards } : State).modJob j fun b =>
          { b with stp := { b.stp with gen := v.toNat }, kept := 1 } := by
  simp [opJscGenWrite, h]

theorem job_opJscGenWrite_open {s : State} {j : Nat} (hj : j < 4) (h : (s.job j).stp.genOpen = true) (v : Word) :
    (opJscGenWrite j v s).job j = { s.job j with stp := { (s.job j).stp with gen := v.toNat }, kept := 1 } := by
  rw [opJscGenWrite_open h, modJob_same _ j _ hj]
  rfl

/-- Every shard of the job retains one generation after the write. -/
theorem kept_opJscGenWrite_open {s : State} {j : Nat} (hg : (s.job j).stp.genOpen = true) (v : Word) {h : Shard}
    (hm : h ∈ (opJscGenWrite j v s).shards) (hs : h.slot = j) : h.kept = 1 := by
  rw [opJscGenWrite_open hg, State.modJob_shards] at hm
  obtain ⟨a, -, rfl⟩ := List.mem_map.mp hm
  split at hs
  · rw [if_pos ‹_›]
  · rename_i hne
    simp [hs] at hne

theorem slotFrame_opJscGenWrite (s : State) (j : Nat) (v : Word) : slotFrame s (opJscGenWrite j v s) j [.jobs, .shards] := by
  cases h : (s.job j).stp.genOpen with
  | false => rw [opJscGenWrite_closed h]; exact slotFrame_refl s j _
  | true =>
    rw [opJscGenWrite_open h]
    exact slotFrame_modJob (slotFrame_shards (slotFrame_refl s j _) rfl _) rfl _

/-! ## JSH_CTRL (R375) -/

@[simp] theorem written_enable (h : ShadowSet) (v : Word) : (h.written v).enable = h.enable := rfl
@[simp] theorem written_cfgErr (h : ShadowSet) (v : Word) : (h.written v).cfgErr = h.cfgErr := rfl

/-- Whatever a dropped copy had still streamed, the slot is left with no copy and no READ of ACK. -/
theorem shadow_dropCopy (s : State) {j : Nat} (hj : j < 4) :
    ((s.dropCopy j).job j).shadow.copy = none ∧ ((s.dropCopy j).job j).shadow.asking = none := by
  rw [State.dropCopy, modJob_same _ j _ hj]
  exact ⟨rfl, rfl⟩

theorem dropCopy_of_none {s : State} {j : Nat} (h : (s.job j).shadow.copy = none) :
    s.dropCopy j = s.modJob j fun b => { b with shadow := { b.shadow with copy := none, asking := none } } := by
  simp [State.dropCopy, h]

/-- While the stream runs, a write with ENABLE 1 changes nothing. -/
theorem opShadowEnable_running {s : State} {j : Nat} {v : Word} (he : (s.job j).shadow.enable = true) (hv : bitOf v 0 = true) :
    opShadowEnable j v s = s := by
  simp [opShadowEnable, he, hv]

/-- A write of ENABLE 0 drops the copy of a running stream and clears ENABLE alone (log entry 92). -/
theorem opShadowEnable_stop {s : State} {j : Nat} {v : Word} (he : (s.job j).shadow.enable = true) (hv : bitOf v 0 = false) :
    opShadowEnable j v s = (s.dropCopy j).modJob j fun b => { b with shadow := { b.shadow with enable := false } } := by
  simp [opShadowEnable, he, hv]

theorem shadow_opShadowEnable_stop {s : State} {j : Nat} {v : Word} (hj : j < 4) (he : (s.job j).shadow.enable = true)
    (hv : bitOf v 0 = false) :
    ((opShadowEnable j v s).job j).shadow.enable = false ∧ ((opShadowEnable j v s).job j).shadow.copy = none
      ∧ ((opShadowEnable j v s).job j).shadow.asking = none := by
  rw [opShadowEnable_stop he hv, modJob_same _ j _ hj]
  exact ⟨rfl, shadow_dropCopy s hj⟩

theorem job_opShadowEnable_stop {s : State} {j : Nat} {v : Word} (hj : j < 4) (he : (s.job j).shadow.enable = true)
    (hv : bitOf v 0 = false) (hc : (s.job j).shadow.copy = none) :
    (opShadowEnable j v s).job j
      = { s.job j with shadow := { (s.job j).shadow with enable := false, copy := none, asking := none } } := by
  rw [opShadowEnable_stop he hv, dropCopy_of_none hc, modJob_same _ j _ hj, modJob_same _ j _ hj]

/-- The buffer of a shadow set is aligned and takes a generation of `need` bytes. -/
def bufferFits (h : ShadowSet) (need : Nat) : Bool := h.base.toNat % 65536 == 0 && decide (need ≤ h.bytes)

@[simp] theorem bufferFits_written (h : ShadowSet) (v : Word) (need : Nat) : bufferFits (h.written v) need = bufferFits h need := rfl

/-- The model's test of a buffer that does not fit. -/
theorem misaligned_or_short (h : ShadowSet) (need : Nat) :
    (decide (h.base.toNat % 65536 ≠ 0) || decide (h.bytes < need)) = !bufferFits h need := by
  rcases Nat.lt_or_ge h.bytes need with hshort | hlong
  · simp only [bufferFits, hshort, Nat.not_le.mpr hshort, decide_true, decide_false, Bool.or_true, Bool.and_false, Bool.not_false]
  · have hdec : (h.base.toNat % 65536 == 0) = decide (h.base.toNat % 65536 = 0) := rfl
    simp only [bufferFits, hdec, hlong, Nat.not_lt.mpr hlong, ne_eq, decide_not, decide_true, decide_false, Bool.or_false, Bool.and_true]

/-- A write of ENABLE 1 to a stream that is off writes the other fields, and starts the stream where its buffer fits or sets CFG_ERR. -/
theorem shadow_opShadowEnable_start {s : State} {j : Nat} {v : Word} (hj : j < 4) (he : (s.job j).shadow.enable = false)
    (hv : bitOf v 0 = true) (hr : fld v 24 10 ≤ 512) :
    ((opShadowEnable j v s).job j).shadow
      = if bufferFits (s.job j).shadow (s.shadowBytes j ((s.job j).shadow.written v).content) then
          { (s.job j).shadow.written v with enable := true, records := 0, lastRec := none }
        else { (s.job j).shadow.written v with cfgErr := true } := by
  simp only [opShadowEnable, he, hv, Nat.not_lt.mpr hr, Bool.false_eq_true, if_false, Bool.not_true, modJob_same _ j _ hj,
    misaligned_or_short, bufferFits_written]
  cases bufferFits (s.job j).shadow (s.shadowBytes j ((s.job j).shadow.written v).content) <;> rfl

/-- ENABLE and CFG_ERR after a write of ENABLE 1 to a stream that is off. -/
theorem enable_opShadowEnable_start {s : State} {j : Nat} {v : Word} (hj : j < 4) (he : (s.job j).shadow.enable = false)
    (hv : bitOf v 0 = true) (hr : fld v 24 10 ≤ 512) :
    ((opShadowEnable j v s).job j).shadow.enable
        = bufferFits (s.job j).shadow (s.shadowBytes j ((opShadowEnable j v s).job j).shadow.content)
      ∧ ((opShadowEnable j v s).job j).shadow.cfgErr
        = ((s.job j).shadow.cfgErr || !((opShadowEnable j v s).job j).shadow.enable) := by
  have hsh := shadow_opShadowEnable_start hj he hv hr
  cases hb : bufferFits (s.job j).shadow (s.shadowBytes j ((s.job j).shadow.written v).content) with
  | true => simp [hsh, hb]
  | false => simp [hsh, hb, he]

/-- With no copy in progress a write of JSH_CTRL touches the slot alone. -/
theorem slotFrame_opShadowEnable {s : State} {j : Nat} (hc : (s.job j).shadow.copy = none) (v : Word) :
    slotFrame s (opShadowEnable j v s) j [.jobs] := by
  have hs := slotFrame_refl s j [.jobs]
  unfold opShadowEnable
  dsimp only
  split
  · split
    · exact hs
    · rw [dropCopy_of_none hc]
      exact slotFrame_modJob (slotFrame_modJob hs rfl _) rfl _
  · split
    · exact hs
    · exact slotFrame_modJob hs rfl _

/-! ## The three commands -/

/-- Settles O5: each command is its operation on the state after `dt` ns; what it writes is the operation's equation for the job slot, and
what it leaves is its frame. -/
theorem jobRegisterWrites : Obligations.JobRegisterWrites := by
  intro s dt j v hj hr hs
  refine ⟨⟨_, runPart_whenRegisters hj hr .., ?_⟩, ⟨_, runPart_whenRegisters hj hr .., ?_⟩, ⟨_, runPart_whenRegisters hj hr .., ?_⟩⟩
  · have hframe := slotFrame_land (slotFrame_opJnsStatusWrite (s.pass dt) j v) hs
    simp only [job_land, job_opJnsStatusWrite _ hj, pass_job, clear_eq, true_and]
    exact hframe
  · have hframe := slotFrame_land (slotFrame_opJscGenWrite (s.pass dt) j v) hs
    refine ⟨fun hg => ?_, fun hg => ⟨?_, fun h hm hsl => ?_⟩, hframe⟩
    · rw [job_land, opJscGenWrite_closed (s := s.pass dt) hg, pass_job]
    · exact job_opJscGenWrite_open (s := s.pass dt) hj hg v
    · exact kept_opJscGenWrite_open (s := s.pass dt) hg v hm hsl
  · refine ⟨fun he hv => ?_, fun he hv => ?_, fun he hv hle => ?_, fun hc => ?_⟩
    · rw [job_land, opShadowEnable_running (s := s.pass dt) he hv, pass_job]
    · obtain ⟨hen, hcopy, hask⟩ := shadow_opShadowEnable_stop (s := s.pass dt) hj he hv
      exact ⟨hen, hcopy, hask, job_opShadowEnable_stop (s := s.pass dt) hj he hv⟩
    · exact enable_opShadowEnable_start (s := s.pass dt) hj he hv hle
    · exact slotFrame_land (slotFrame_opShadowEnable (s := s.pass dt) hc v) hs

end Sys2Proof.JobRegisters
end

section
/-! PROOFS. The compute packets: what is issued for their spilled inputs, how their items are handed out, and the product whose every item
is masked (R138, R166, R175, R246, R250, R393). -/

open Sys2Proof Sys2Proof.Machine

namespace Sys2Proof.ComputeStarts

/-! ## The first element that meets a predicate, changed or removed -/

section Lists

variable {α β : Type} {p : α → Bool} {f : α → α}

theorem find?_updFirst_same (hf : ∀ a, p a = true → p (f a) = true) (l : List α) : (updFirst p f l).find? p = (l.find? p).map f := by
  induction l with
  | nil => rfl
  | cons a t ih =>
    cases h : p a with
    | true => simp [updFirst, h, hf a h]
    | false => simp [updFirst, h, ih]

/-- A change that neither the predicate `q` nor the view `g` tells from no change is not seen by `g` in what `q` finds. -/
theorem map_find?_updFirst {q : α → Bool} {g : α → β} (hq : ∀ a, q (f a) = q a) (hg : ∀ a, g (f a) = g a) (l : List α) :
    ((updFirst p f l).find? q).map g = (l.find? q).map g := by
  induction l with
  | nil => rfl
  | cons a t ih =>
    cases hp : p a <;> cases h : q a <;> simp [updFirst, hp, h, hq, hg, ih]

theorem map_updFirst {g : α → β} (hg : ∀ a, g (f a) = g a) (l : List α) : (updFirst p f l).map g = l.map g := by
  induction l with
  | nil => rfl
  | cons a t ih => cases h : p a <;> simp [updFirst, h, hg, ih]

theorem dropFirst_updFirst (hf : ∀ a, p a = true → p (f a) = true) (l : List α) : dropFirst p (updFirst p f l) = dropFirst p l := by
  induction l with
  | nil => rfl
  | cons a t ih =>
    cases h : p a with
    | true => simp [updFirst, dropFirst, h, hf a h]
    | false => simp [updFirst, dropFirst, h, ih]

end Lists

/-! ## The work of one packet, and what the start of its items keeps -/

/-- The work of the packet that a change is made to. -/
theorem work_modWork {s : State} {pid : Nat} {w : Work} (hw : s.work pid = some w) {f : Work → Work} (hf : ∀ w, (f w).pid = w.pid) :
    (s.modWork pid f).work pid = some (f w) := by
  have hfind := find?_updFirst_same (f := f) (fun v (hv : (v.pid == pid) = true) => by rwa [hf v]) s.works
  exact hfind.trans (congrArg (Option.map f) hw)

/-- The work of the other packets. -/
theorem dropFirst_modWork (s : State) (pid : Nat) {f : Work → Work} (hf : ∀ w, (f w).pid = w.pid) :
    dropFirst (fun v => v.pid == pid) (s.modWork pid f).works = dropFirst (fun v => v.pid == pid) s.works :=
  dropFirst_updFirst (fun v (hv : (v.pid == pid) = true) => by rwa [hf v]) s.works

/-- The stage of a packet's work, with its items' numbers and whether each has finished. -/
def outline (w : Work) : Stage × List (Nat × Bool) := (w.stage, w.items.map fun i => (i.num, i.finished))

/-- The outline of a packet's work in a state. -/
def outlineOf (s : State) (pid : Nat) : Option (Stage × List (Nat × Bool)) := (s.work pid).map outline

theorem outlineOf_modWork (s : State) (pid q : Nat) {f : Work → Work} (hp : ∀ w, (f w).pid = w.pid)
    (ho : ∀ w, outline (f w) = outline w) : outlineOf (s.modWork q f) pid = outlineOf s pid :=
  map_find?_updFirst (fun w => by rw [hp w]) ho s.works

theorem outlineOf_modWork_same {s : State} {pid : Nat} {w : Work} (hw : s.work pid = some w) {f : Work → Work}
    (hf : ∀ w, (f w).pid = w.pid) : outlineOf (s.modWork pid f) pid = some (outline (f w)) := by
  rw [outlineOf, work_modWork hw hf]
  rfl

/-- A packet that does not run, or has an item still to finish, is not ended. -/
theorem endItems_still {s : State} {pid : Nat} {o : Stage × List (Nat × Bool)} (h : outlineOf s pid = some o)
    (ho : o.1 ≠ .running ∨ o.2.all Prod.snd = false) (g : Nat) (errs : List SilentErr) : s.endItems pid g errs = s := by
  obtain ⟨w, hw, rfl⟩ := Option.map_eq_some_iff.mp h
  have hstop : w.stage ≠ .running ∨ (w.items.all fun i => i.finished) = false := by
    simpa [outline, List.all_map, Function.comp_def] using ho
  unfold State.endItems
  rw [hw]
  rcases hstop with hstage | hleft
  · simp [hstage]
  · simp [hleft]

/-! ## Handing out items (R250, R251, R428) -/

/-- From `s` to `t` items are given to cores and started: the packet's outline stays, and only works, threads and start limiters change. -/
def handsOut (pid : Nat) (s t : State) : Prop := outlineOf t pid = outlineOf s pid ∧ s.frame t [.works, .threads, .power]

section HandsOut

variable {pid : Nat}

theorem handsOut_refl (s : State) : handsOut pid s s := ⟨rfl, frame_refl s _⟩

theorem handsOut_trans {s t u : State} (h : handsOut pid s t) (h' : handsOut pid t u) : handsOut pid s u :=
  ⟨h'.1.trans h.1, frame_trans h.2 h'.2⟩

/-- A fold hands out items where each of its steps does. -/
theorem handsOut_foldl {α : Type} {f : State → α → State} (hf : ∀ s a, handsOut pid s (f s a)) (l : List α) (s : State) :
    handsOut pid s (l.foldl f s) := by
  induction l generalizing s with
  | nil => exact handsOut_refl s
  | cons a t ih => exact handsOut_trans (hf s a) (ih (f s a))

theorem handsOut_modItem (s : State) (q num : Nat) {f : Item → Item} (hf : ∀ i, ((f i).num, (f i).finished) = (i.num, i.finished)) :
    handsOut pid s (s.modItem q num f) := by
  refine ⟨outlineOf_modWork s pid q (fun _ => rfl) fun w => ?_, modWork_frame (frame_refl s _) rfl q _⟩
  exact congrArg (Prod.mk w.stage) (map_updFirst hf w.items)

theorem handsOut_startThread (s : State) (g q n : Nat) : handsOut pid s (s.startThread g q n) := by
  have hthread (f : HwThread → HwThread) : handsOut pid s (s.modThread g (rowThread n) f) :=
    ⟨rfl, rfl, fun _ => rfl, fun _ => rfl, fun p hp => by cases p <;> simp_all [Part.same, State.hostView]⟩
  unfold State.startThread
  split
  · exact handsOut_refl s
  · split
    · exact hthread _
    · exact handsOut_refl s

theorem handsOut_startCore (s : State) (g : Nat) : handsOut pid s (s.startCore g) := by
  unfold State.startCore
  split
  · exact handsOut_refl s
  · split
    · exact handsOut_refl s
    · next q n _ =>
      refine handsOut_trans (handsOut_modItem s q n ?_) (handsOut_startThread _ g q n)
      exact fun _ => rfl

theorem handsOut_startBy (book : Nat → Nat → List (Nat × Nat) → List (Nat × Nat)) (s : State) (g : Nat) :
    handsOut pid s (s.startBy book g) := by
  have hpower (t : State) (p : Power) : handsOut pid t { t with power := p } :=
    ⟨rfl, rfl, fun _ => rfl, fun _ => rfl, fun q hq => by cases q <;> simp_all [Part.same, State.hostView]⟩
  unfold State.startBy
  split
  · exact handsOut_refl s
  · dsimp only
    split
    · exact handsOut_trans (handsOut_startCore s g) (hpower _ _)
    · exact handsOut_startCore s g

theorem handsOut_startAll (s : State) (gs : List Nat) : handsOut pid s (s.startAll gs) := handsOut_foldl (handsOut_startBy bookStart) _ s

/-- The dealing of items gives cores and nothing else. -/
theorem map_dealItems (cores : List Nat) (k : Nat) (l : List Item) :
    (dealItems cores k l).map (fun i => (i.num, i.finished)) = l.map fun i => (i.num, i.finished) := by
  induction l generalizing k with
  | nil => rfl
  | cons i t ih =>
    unfold dealItems
    split <;> simp [ih]

/-- A choice of cores uses a free value, and changes nothing else. -/
theorem rankCores_state (s : State) (w : Work) (cores : List Nat) : (s.rankCores w cores).2 = { s with freeCount := s.freeCount + 1 } := rfl

theorem handsOut_assignItems (s : State) (pid : Nat) : handsOut pid s (s.assignItems pid) := by
  unfold State.assignItems
  split
  · exact handsOut_refl s
  · next w hw =>
    dsimp only
    split
    · exact handsOut_refl s
    · refine handsOut_trans ⟨?_, modWork_frame ?_ rfl pid _⟩ (handsOut_startAll _ _)
      · refine (outlineOf_modWork_same (w := w) hw ?_).trans ?_
        · exact fun _ => rfl
        · rw [outlineOf, hw]
          simp only [Option.map_some, outline, map_dealItems, List.map_map, Function.comp_def]
          refine congrArg (fun l => some (w.stage, l)) (List.map_congr_left fun i _ => ?_)
          split <;> rfl
      · exact ⟨rfl, fun _ => rfl, fun _ => rfl, fun p hp => by cases p <;> simp_all [Part.same, State.hostView, rankCores_state]⟩

/-- The items of a launched packet stand in its work, whichever cores they got, and it runs. -/
theorem launch_handsOut {s : State} {w : Work} (hw : s.work pid = some w) (items : List Item) :
    outlineOf (s.launch pid items) pid = some (.running, items.map fun i => (i.num, i.finished))
      ∧ s.frame (s.launch pid items) [.works, .threads, .power] := by
  have hassign := handsOut_assignItems (s.modWork pid fun w => { w with items := items, stage := .running }) pid
  refine ⟨hassign.1.trans ((outlineOf_modWork_same hw ?_).trans rfl), frame_trans (modWork_frame (frame_refl s _) rfl pid _) hassign.2⟩
  exact fun _ => rfl

end HandsOut

/-! ## Sending READs (R209, R246) -/

/-- A message sent changes links, ports and the fabric's counts alone. -/
theorem send_changes (s : State) (m : Msg) : ∃ ls ps f, s.send m = { s with links := ls, ports := ps, fabric := f } := by
  have hport (t : State) (p : Nat) (o : Out) : ∃ ls ps, t.portSend p o = { t with links := ls, ports := ps } := by
    unfold State.portSend
    split
    · exact ⟨t.links, _, rfl⟩
    · split
      · exact ⟨t.links, t.ports, rfl⟩
      · exact ⟨_, t.ports, rfl⟩
  unfold State.send
  split
  · exact ⟨s.links, s.ports, _, rfl⟩
  · split
    · exact ⟨s.links, s.ports, _, rfl⟩
    · next p _ =>
      obtain ⟨ls, ps, h⟩ := hport (s.modPort p fun q => { q with pseq := ((s.port p).pseq + 1) % 2 ^ 32 }) p _
      exact ⟨ls, ps, s.fabric, h⟩

/-- The parts that a packet's operations on other modules change while they are issued. -/
def issueParts : List Part := [.works, .remotes, .links, .ports, .fabric]

/-- From `s` to `t` a packet has sent the READs `rs`, and its outline stays. -/
structure SendsReads (pid : Nat) (s t : State) (rs : List RemoteOp) : Prop where
  remotes : t.remotes = s.remotes ++ rs
  reads   : ∀ r, r ∈ rs → r.pid = some pid ∧ r.msg.op = .read
  outline : outlineOf t pid = outlineOf s pid
  frame   : s.frame t issueParts

section SendsReads

variable {pid : Nat}

theorem sendsReads_refl (s : State) : SendsReads pid s s [] := ⟨by simp, by simp, rfl, frame_refl s _⟩

theorem sendsReads_trans {s t u : State} {rs qs : List RemoteOp} (h : SendsReads pid s t rs) (h' : SendsReads pid t u qs) :
    SendsReads pid s u (rs ++ qs) where
  remotes := by rw [h'.remotes, h.remotes, List.append_assoc]
  reads := fun r hr => (List.mem_append.mp hr).elim (h.reads r) (h'.reads r)
  outline := h'.outline.trans h.outline
  frame := frame_trans h.frame h'.frame

/-- A fold sends the READs of all its steps, and some where a step is sure to. -/
theorem sendsReads_foldl {α : Type} {f : State → α → State} {sure : α → Prop}
    (hf : ∀ s a, ∃ rs, SendsReads pid s (f s a) rs ∧ (sure a → rs ≠ [])) (l : List α) (s : State) {c : Prop}
    (hc : c → ∃ a, a ∈ l ∧ sure a) : ∃ rs, SendsReads pid s (l.foldl f s) rs ∧ (c → rs ≠ []) := by
  suffices h : ∃ rs, SendsReads pid s (l.foldl f s) rs ∧ ((∃ a, a ∈ l ∧ sure a) → rs ≠ []) from
    h.imp fun _ hrs => ⟨hrs.1, fun hmet => hrs.2 (hc hmet)⟩
  clear hc
  induction l generalizing s with
  | nil => exact ⟨[], sendsReads_refl s, by simp⟩
  | cons a t ih =>
    obtain ⟨rs, hrs, hsome⟩ := hf s a
    obtain ⟨qs, hqs, hlater⟩ := ih (f s a)
    refine ⟨rs ++ qs, sendsReads_trans hrs hqs, ?_⟩
    rintro ⟨b, hb, hsure⟩ hnil
    obtain ⟨hr, hq⟩ := List.append_eq_nil_iff.mp hnil
    rcases List.mem_cons.mp hb with rfl | hb
    · exact hsome hsure hr
    · exact hlater ⟨b, hb, hsure⟩ hq

theorem sendsReads_issueRead (s : State) (x : OpCtx) (a : Word) (n : Nat) (dst : Option Word) (hostDst : Option Nat) :
    ∃ rs, SendsReads pid s (s.issueRead x (some pid) a n dst hostDst) rs ∧ rs ≠ [] := by
  unfold State.issueRead State.issue
  dsimp only
  obtain ⟨ls, ps, f, hsend⟩ := send_changes (State.modWork _ pid _) _
  rw [hsend]
  refine ⟨[_], ⟨rfl, ?_, ?_, ?_⟩, List.cons_ne_nil _ _⟩
  · rintro r hr
    rw [List.mem_singleton.mp hr]
    exact ⟨rfl, rfl⟩
  · exact outlineOf_modWork _ pid pid (fun _ => rfl) fun _ => rfl
  · exact ⟨rfl, fun _ => rfl, fun _ => rfl, fun p hp => by cases p <;> simp_all [Part.same, State.hostView, issueParts]⟩

/-- A tensor of this module has nothing to read over the fabric (R246). -/
theorem rangeFetched_here (s : State) {t : Tensor} (h : t.spill = none) (off n : Nat) : s.rangeFetched pid t off n = true := by
  unfold State.rangeFetched
  rw [h]

/-- Where a spilled tensor's range has not been read, it touches a word. -/
theorem word_of_rangeFetched {s : State} {t : Tensor} {a : Word} (h : t.spill = some a) {off n : Nat}
    (hleft : s.rangeFetched pid t off n = false) : (a.toNat + off) / 8 < (a.toNat + off + n + 7) / 8 := by
  unfold State.rangeFetched at hleft
  rw [h] at hleft
  obtain ⟨i, hi, -⟩ := List.all_eq_false.mp hleft
  have hwords := List.mem_range.mp hi
  omega

/-- The words of a tensor that have not been read lie on another module, and its fetch issues a READ at least (R246). -/
theorem sendsReads_fetchTensor (s s' : State) (x : OpCtx) (t : Tensor) (n : Nat) :
    ∃ rs, SendsReads pid s (s.fetchTensor x pid t 0 n) rs ∧ (s'.rangeFetched pid t 0 n = false → rs ≠ []) := by
  unfold State.fetchTensor
  split
  · next hhere =>
    refine ⟨[], sendsReads_refl s, fun hleft => ?_⟩
    rw [rangeFetched_here s' hhere] at hleft
    cases hleft
  · next a haway =>
    refine sendsReads_foldl (sure := fun _ => True) (fun u i => ?_) _ s fun hleft => ⟨0, List.mem_range.mpr ?_, trivial⟩
    · obtain ⟨rs, hrs, hne⟩ := sendsReads_issueRead (pid := pid) u x _ _ none none
      exact ⟨rs, hrs, fun _ => hne⟩
    · have hword := word_of_rangeFetched haway hleft
      omega

end SendsReads

/-! ## The start of a packet's work (R246, R250, R393) -/

theorem rel_frame {s t : State} {ps : List Part} (h : s.frame t ps) (hp : ps.contains .rel = true) (r : Rel) :
    s.frame { t with rel := r } ps :=
  frame_trans h ⟨rfl, fun _ => rfl, fun _ => rfl, fun p hq => by cases p <;> simp_all [Part.same, State.hostView]⟩

/-- The state with what a packet reads and writes noted (R393). -/
def noted (s : State) (w : Work) : State :=
  s.beginWrote w ((s.footprint w).1.flatMap fun e => s.tensorKeys e.1 e.2) ((s.footprint w).2.flatMap fun e => s.tensorKeys e.1 e.2)

theorem noted_wrote (s : State) (w : Work) : ∃ e, (noted s w).rel.wrote = s.rel.wrote ++ [e] ∧ e.work = w := ⟨_, rfl, rfl⟩

theorem noted_frame (s : State) (w : Work) {ps : List Part} (hp : ps.contains .rel = true) : s.frame (noted s w) ps :=
  rel_frame (frame_refl s ps) hp _

section Start

variable {s : State} {w : Work}

/-- The work of a packet with its items, running. -/
def running (items : List Item) (w : Work) : Work := { w with items := items, stage := .running }

/-- The branches of `startCompute`, with the note of what the packet reads and writes named. -/
theorem startCompute_eq (s : State) (w : Work) (items : List Item) :
    s.startCompute w items
      = if !s.allFetched w.pid (s.footprint w).1 then
          if !w.tags.isEmpty then s
          else if w.failed then s.completeOuts w.pid
          else (s.footprint w).1.foldl (fun u e => u.fetchTensor (w.ctx 0) w.pid e.1 0 e.2) s
        else if items.all fun i => i.finished then (noted s w).modWork w.pid (running items)
        else (noted s w).launch w.pid items := rfl

theorem startCompute_waits (h : s.allFetched w.pid (s.footprint w).1 = false) (ht : w.tags ≠ []) (items : List Item) :
    s.startCompute w items = s := by simp [startCompute_eq, h, ht]

theorem startCompute_fetches (h : s.allFetched w.pid (s.footprint w).1 = false) (ht : w.tags = []) (hf : w.failed = false)
    (items : List Item) : ∃ rs, SendsReads w.pid s (s.startCompute w items) rs ∧ rs ≠ [] := by
  obtain ⟨e, he, hleft⟩ := List.all_eq_false.mp h
  obtain ⟨rs, hrs, hsome⟩ := sendsReads_foldl (fun u (e : Tensor × Nat) => sendsReads_fetchTensor (pid := w.pid) u s (w.ctx 0) e.1 e.2)
    (s.footprint w).1 s fun _ : True => ⟨e, he, by simpa using hleft⟩
  refine ⟨rs, ?_, hsome trivial⟩
  simpa [startCompute_eq, h, ht, hf] using hrs

theorem startCompute_masked (h : s.allFetched w.pid (s.footprint w).1 = true) {items : List Item}
    (hall : (items.all fun i => i.finished) = true) :
    s.startCompute w items = (noted s w).modWork w.pid (running items) := by
  rw [startCompute_eq, h, hall]
  rfl

/-- Items that are handed out stand in the work of their packet, which runs; what it reads and writes is noted. -/
theorem startCompute_launches (hw : s.work w.pid = some w) (h : s.allFetched w.pid (s.footprint w).1 = true) {items : List Item}
    (hleft : (items.all fun i => i.finished) = false) :
    outlineOf (s.startCompute w items) w.pid = some (.running, items.map fun i => (i.num, i.finished))
      ∧ (s.startCompute w items).rel = (noted s w).rel ∧ s.frame (s.startCompute w items) [.works, .rel, .threads, .power] := by
  rw [show s.startCompute w items = (noted s w).launch w.pid items by rw [startCompute_eq, h, hleft]; rfl]
  obtain ⟨houtline, hframe⟩ := launch_handsOut (s := noted s w) hw items
  refine ⟨houtline, hframe.2.2.2 .rel rfl, frame_trans (noted_frame s w rfl) (frame_mono hframe fun p hp => ?_)⟩
  cases p <;> simp_all

end Start

/-! ## The commands -/

/-- The packets of products, with their commands and items. -/
def products (dt pid : Nat) (w : Work) : List (Nat × Instr × List Item) :=
  [(0x30, .matmul dt pid, w.pkt.prod.items w.mask), (0x31, .matmulBwdData dt pid, w.pkt.prod.items w.mask),
   (0x32, .matmulBwdWeight dt pid, w.pkt.prod.items w.mask)]

/-- The packets of kernels, programs and REDUCE_MAXMIN, with their commands and items. -/
def kernels (dt pid : Nat) (w : Work) : List (Nat × Instr × List Item) :=
  [(0x33, .fusedNormBwd dt pid, rowItems w.pkt.kern.rows), (0x34, .fusedSoftmaxBwd dt pid, rowItems w.pkt.kern.rows),
   (0x35, .vectorProgram dt pid, rowItems (fld (w.pkt.pay 0) 0 32)), (0x36, .reduceMaxmin dt pid, [{ num := 0 }])]

theorem handed_stage_opcode {s : State} {pid : Nat} {ops : List Nat} {w : Work} (h : s.handed pid ops = some w) :
    w.stage = .handed ∧ w.pkt.opcode ∈ ops := by
  unfold State.handed at h
  split at h
  · cases h
  · split at h
    · next hif =>
      cases h
      simpa using hif
    · cases h

/-- The work of a packet handed to its unit has its outline in the state after `dt` ns, and has not started. -/
theorem outlineOf_handed {s : State} {dt pid : Nat} {ops : List Nat} {w : Work} (h : s.handed pid ops = some w) :
    outlineOf (s.pass dt) pid = some (.handed, (outline w).2) := by
  rw [outlineOf, pass_work, handed_work s h, ← (handed_stage_opcode h).1]
  rfl

section Commands

variable {s : State} {dt pid op : Nat} {w : Work} {c : Instr} {items : List Item}

theorem run_onHandedMem {ops : List Nat} (hm : s.moves = []) (hw : s.handed pid ops = some w) (f : Work → State → State) :
    run dt (onHandedMem pid ops f) s = .next ((s.pass dt).land (f w (s.pass dt))) := by
  have hw' : (s.pass dt).handed pid ops = some w := hw
  rw [run, onHandedMem, onHanded_of _ hw', afterMoves_still (s.pass dt) _ hm]

/-- A product's packet starts its items, and ends at once where they have all finished (R138, R175). -/
theorem exec_product (hm : s.moves = []) (hc : (op, c, items) ∈ products dt pid w) (hw : s.handed pid [op] = some w) :
    exec c s = .next ((s.pass dt).land (((s.pass dt).startCompute w items).endItems w.pid 0 [])) := by
  simp only [products, List.mem_cons, Prod.mk.injEq, List.not_mem_nil, or_false] at hc
  rcases hc with ⟨rfl, rfl, rfl⟩ | ⟨rfl, rfl, rfl⟩ | ⟨rfl, rfl, rfl⟩ <;> exact run_onHandedMem hm hw _

theorem isProduct_of_products (hc : (op, c, items) ∈ products dt pid w) (hw : s.handed pid [op] = some w) :
    isProduct w.pkt.opcode = true := by
  rw [List.mem_singleton.mp (handed_stage_opcode hw).2]
  simp only [products, List.mem_cons, Prod.mk.injEq, List.not_mem_nil, or_false] at hc
  rcases hc with ⟨rfl, -⟩ | ⟨rfl, -⟩ | ⟨rfl, -⟩ <;> rfl

/-- The packet of a kernel, of a program or of REDUCE_MAXMIN starts its items (R166, R250). -/
theorem exec_kernel (hm : s.moves = []) (hc : (op, c, items) ∈ kernels dt pid w) (hw : s.handed pid [op] = some w) :
    exec c s = .next ((s.pass dt).land ((s.pass dt).startCompute w items)) := by
  simp only [kernels, List.mem_cons, Prod.mk.injEq, List.not_mem_nil, or_false] at hc
  rcases hc with ⟨rfl, rfl, rfl⟩ | ⟨rfl, rfl, rfl⟩ | ⟨rfl, rfl, rfl⟩ | ⟨rfl, rfl, rfl⟩ <;> exact run_onHandedMem hm hw _

/-- A compute packet's command is the start of its items, where they have not all finished at once. -/
theorem exec_start (hm : s.moves = []) (hc : (op, c, items) ∈ products dt pid w ++ kernels dt pid w) (hw : s.handed pid [op] = some w)
    {o : Stage × List (Nat × Bool)} (h : outlineOf ((s.pass dt).startCompute w items) pid = some o)
    (ho : o.1 ≠ .running ∨ o.2.all Prod.snd = false) : exec c s = .next ((s.pass dt).land ((s.pass dt).startCompute w items)) := by
  rcases List.mem_append.mp hc with hprod | hkern
  · rw [exec_product hm hprod hw, work_pid s (handed_work s hw), endItems_still h ho]
  · exact exec_kernel hm hkern hw

end Commands

/-! ## A product whose every item is masked (R138, R175 to R178) -/

/-- Where every item is masked, and there is one, no position is computed: position (m, n) lies in the item of row group m / 256 and
tile column n / 64 of part 0. -/
theorem computed_of_finished {d : Prod} {mask : List Word} (hne : d.items mask ≠ [])
    (hall : ((d.items mask).all fun i => i.finished) = true) : d.computed mask = [] := by
  have hparts : 0 < d.parts := by
    refine Nat.pos_of_ne_zero fun h => hne ?_
    simp [Prod.items, Prod.itemCount, h]
  refine List.flatMap_eq_nil_iff.mpr fun m hm => List.map_eq_nil_iff.mpr (List.filter_eq_nil_iff.mpr fun n hn hon => ?_)
  rw [List.mem_range] at hm hn
  have hrow : m / 256 < d.rowGroups := by unfold Prod.rowGroups ceilDiv; omega
  have hcol : n / 64 < d.tileCols := by unfold Prod.tileCols ceilDiv; omega
  have hitem : m / 256 * d.tileCols + n / 64 < d.itemCount :=
    calc m / 256 * d.tileCols + n / 64 < (m / 256 + 1) * d.tileCols := by rw [Nat.add_mul, Nat.one_mul]; omega
      _ ≤ d.rowGroups * d.tileCols := Nat.mul_le_mul_right _ hrow
      _ ≤ d.parts * d.rowGroups * d.tileCols := Nat.mul_le_mul_right _ (Nat.le_mul_of_pos_left _ hparts)
  have hg : (m / 256 * d.tileCols + n / 64) / d.tileCols % d.rowGroups = m / 256 := by
    rw [Nat.mul_comm, Nat.mul_add_div (by omega), Nat.div_eq_of_lt hcol, Nat.add_zero, Nat.mod_eq_of_lt hrow]
  have hn' : (m / 256 * d.tileCols + n / 64) % d.tileCols = n / 64 := by
    rw [Nat.mul_comm, Nat.mul_add_mod, Nat.mod_eq_of_lt hcol]
  have hskip := List.all_eq_true.mp hall _ (List.mem_map_of_mem (List.mem_range.mpr hitem))
  simp only [hg, hn', Bool.not_eq_true', List.any_eq_false] at hskip
  refine hskip m (List.mem_map.mpr ⟨m % 256, List.mem_range.mpr (by omega), by omega⟩) ?_
  exact List.any_eq_true.mpr ⟨n, List.mem_map.mpr ⟨n % 64, List.mem_range.mpr (by omega), by omega⟩, hon⟩

/-- Where no position is computed and masked ones are not written, the writeback reads and writes nothing. -/
theorem writeProduct_masked (s : State) (t : ProdTensors) {w : Work} (hc : t.d.computed w.mask = []) (hm : maskWrites w.mask = false) :
    s.writeProduct t w false = s := by
  have hput (t' : Tensor) : s.putResults w t' [] = s := by simp [State.putResults, joinCells]
  cases hsc : t.sc <;>
    simp [State.writeProduct, State.writebackReads, hc, hm, Rdr.outElems, Rdr.outScales, State.consumeScales, State.outCells, maskedCells,
      State.deriveCells, hput, hsc]

theorem prodTensors_prod {s : State} {w : Work} {t : ProdTensors} (h : s.prodTensors w = some t) : t.d = w.pkt.prod := by
  simp only [State.prodTensors, Option.bind_eq_bind, Option.bind_eq_some_iff, Option.some.injEq] at h
  obtain ⟨_, -, _, -, _, -, _, -, rfl⟩ := h
  rfl

/-- A product that computes no position, writes none and has no sampled unit ends with nothing but its note brought up to date. -/
theorem endProduct_masked (s : State) {w : Work} (h : s.prodTensors w = none ∨ maskWrites w.mask = false)
    (hc : w.pkt.prod.computed w.mask = []) (hs : w.sampled = []) :
    ∃ r : Rel, s.endProduct w = ({ s with rel := r } : State).finishRemote w.pid := by
  unfold State.endProduct
  split
  · exact ⟨s.rel, rfl⟩
  · next t ht =>
    have hmask : maskWrites w.mask = false := h.resolve_left (by simp [ht])
    rw [writeProduct_masked s t ((prodTensors_prod ht).symm ▸ hc) hmask, hs]
    exact ⟨_, rfl⟩

/-- A packet that has only work and notes changed beside its end is answered, where all other work is as it was (R63, R69). -/
theorem answered_complete {s u : State} {w x : Work} (hframe : s.frame u [.works, .rel]) (hx : u.work w.pid = some x) (hpkt : x.pkt = w.pkt)
    (hdrop : dropFirst (fun v => v.pid == w.pid) u.works = dropFirst (fun v => v.pid == w.pid) s.works)
    (st : Status) (detail result : Nat) : s.answered (s.land (u.complete w.pid st detail result)) w st detail result := by
  obtain ⟨hmem, -, hheld, honly⟩ := hframe
  obtain ⟨hreply, hworks⟩ := land_completed (s := { s with works := u.works }) hx (honly .windows rfl) rfl (honly .ft rfl) hmem (hheld rfl)
    st detail result
  rw [hpkt] at hreply
  rw [work_pid u hx] at hworks
  exact ⟨hreply, hworks.trans hdrop⟩

/-- The work of a packet that waits for its remote operations. -/
def waiting (w : Work) : Work := { w with stage := .waiting }

/-- With no operation open and no condition met, a packet completes with DONE once its results are written (R63). -/
theorem finishRemote_done {s : State} {pid : Nat} {w : Work} (hw : s.work pid = some w) (ht : w.tags = []) (ho : w.outs = [])
    (hr : w.result = 0) : s.finishRemote pid = (s.modWork pid waiting).complete pid .done 0 0 := by
  have hwaits := work_modWork (f := waiting) hw fun _ => rfl
  show (s.modWork pid waiting).remoteDone pid = _
  simp only [State.remoteDone, State.completeOuts, hwaits]
  simp [waiting, ht, ho, hr, firstOut, argMin]

/-- A packet whose results are written, with no operation open and no condition met, is answered with DONE. -/
theorem answered_finishRemote {s u : State} {w x : Work} (hframe : s.frame u [.works, .rel]) (hx : u.work w.pid = some x)
    (hpkt : x.pkt = w.pkt) (ht : x.tags = []) (ho : x.outs = []) (hr : x.result = 0)
    (hdrop : dropFirst (fun v => v.pid == w.pid) u.works = dropFirst (fun v => v.pid == w.pid) s.works) :
    s.answered (s.land (u.finishRemote w.pid)) w .done 0 0 := by
  rw [finishRemote_done hx ht ho hr]
  exact answered_complete (x := waiting x) (modWork_frame hframe rfl _ _) (work_modWork hx fun _ => rfl) hpkt
    ((dropFirst_modWork u w.pid (f := waiting) fun _ => rfl).trans hdrop) .done 0 0

theorem endItems_product {s : State} {pid : Nat} {w : Work} (hw : s.work pid = some w) (hrun : w.stage = .running)
    (hall : (w.items.all fun i => i.finished) = true) (hprod : isProduct w.pkt.opcode = true) (g : Nat) (errs : List SilentErr) :
    s.endItems pid g errs = s.endProduct w := by
  simp [State.endItems, hw, hrun, hall, hprod]

/-- A product whose every item is masked, and whose masked elements are not written, is answered with DONE (R138, R175). -/
theorem answered_masked {s : State} {w : Work} (hw : s.work w.pid = some w) (hprod : isProduct w.pkt.opcode = true)
    (h : s.allFetched w.pid (s.footprint w).1 = true) (hne : w.pkt.prod.items w.mask ≠ [])
    (hall : ((w.pkt.prod.items w.mask).all fun i => i.finished) = true) (hmask : s.prodTensors w = none ∨ maskWrites w.mask = false)
    (ht : w.tags = []) (ho : w.outs = []) (hr : w.result = 0) (hs : w.sampled = []) :
    s.answered (s.land ((s.startCompute w (w.pkt.prod.items w.mask)).endItems w.pid 0 [])) w .done 0 0 := by
  rw [startCompute_masked h hall]
  have hcomputed := computed_of_finished hne hall
  generalize w.pkt.prod.items w.mask = items at hall
  have hrun := work_modWork (s := noted s w) (f := running items) hw fun _ => rfl
  obtain ⟨r, hend⟩ := endProduct_masked ((noted s w).modWork w.pid (running items)) (w := running items w) hmask hcomputed hs
  rw [endItems_product hrun rfl hall hprod, hend]
  exact answered_finishRemote (x := running items w) (rel_frame (modWork_frame (noted_frame s w rfl) rfl ..) rfl r) hrun rfl ht ho hr
    (dropFirst_modWork (noted s w) w.pid fun _ => rfl)

/-! ## The obligation -/

/-- Settles O28: a packet whose inputs have not been read waits or sends READs, and stays handed; one whose inputs are here is launched; and
a product with nothing to compute is ended by its own command. -/
theorem computePacketsStartTheirItems : Obligations.ComputePacketsStartTheirItems := by
  intro s dt pid w hstores hmoves started here prod all
  refine ⟨fun op c items hc hw hhere hleft => ?_, fun op c items hc hw hneeds => ⟨fun ht => ?_, fun ht hf => ?_⟩,
    fun op c hc hw hhere hne hall hmask ht ho hr hs => ?_⟩
  · obtain rfl := work_pid s (handed_work s hw)
    obtain ⟨houtline, hrel, hframe⟩ := startCompute_launches (s := s.pass dt) (handed_work s hw) hhere hleft
    obtain ⟨v, hv, hshape⟩ := Option.map_eq_some_iff.mp houtline
    obtain ⟨hstage, hitems⟩ := Prod.mk.inj hshape
    obtain ⟨e, hwrote, he⟩ := noted_wrote (s.pass dt) w
    refine ⟨_, exec_start hmoves hc hw houtline (.inr ?_), ⟨v, hv, hstage, ?_⟩, ⟨e, ?_, he⟩, land_only hframe hstores⟩
    · simpa [List.all_map, Function.comp_def] using hleft
    · simpa [List.map_map, Function.comp_def] using congrArg (List.map Prod.fst) hitems
    · rw [land_rel, hrel, hwrote]
      rfl
  · have hstart := startCompute_waits (s := s.pass dt) hneeds ht items
    refine ⟨_, exec_start hmoves hc hw (by rw [hstart]; exact outlineOf_handed hw) (.inl (by simp)), ?_⟩
    rw [hstart]
    exact land_only (frame_refl _ _) hstores
  · obtain rfl := work_pid s (handed_work s hw)
    obtain ⟨rs, hrs, hne⟩ := startCompute_fetches (s := s.pass dt) hneeds ht hf items
    refine ⟨_, rs, exec_start hmoves hc hw (hrs.outline.trans (outlineOf_handed hw)) (.inl (by simp)), hne, hrs.remotes, hrs.reads,
      land_only hrs.frame hstores⟩
  · obtain rfl := work_pid s (handed_work s hw)
    exact ⟨_, exec_product hmoves hc hw, answered_masked (s := s.pass dt) (handed_work s hw) (isProduct_of_products hc hw) hhere hne hall
      hmask ht ho hr hs⟩

end Sys2Proof.ComputeStarts
end

section
/-! PROOFS. The end of a work item where two packets share a number: REDUCE_MAXMIN ends its packet by itself, and the end of the item then
looks for a packet of that number once more (R166, R251; log entries 46 and 48). -/

open Sys2Proof Sys2Proof.Machine

namespace Sys2Proof.SharedNumber

/-! ## The steps of WORK_ITEM_DONE -/

/-- A core that runs an item, and whose start is not still to come, finishes it (R251, R428). -/
theorem exec_workItemDone {s : State} {dt core : Nat} {w : Work} {i : Item} (hc : core < 512) (hm : s.moves = [])
    (hrun : s.runningItem core = some (w, i)) (hwaits : (s.pass dt).startWaits core = false) (errs : List SilentErr) :
    exec (.workItemDone dt core errs) s = .next ((s.pass dt).land ((s.pass dt).itemDone w i core errs)) := by
  have hrun' : (s.pass dt).runningItem core = some (w, i) := hrun
  refine (runPart_of hc ..).trans ?_
  simp only [opWorkItemDone, hrun', hwaits, Bool.false_eq_true, if_false, afterMoves_still (s.pass dt) _ hm]

/-- The item of a REDUCE_MAXMIN ends its packet, and then the packet of its number is looked for and ended like any other (R251). -/
theorem itemDone_reduce {w : Work} (hop : w.pkt.opcode = 0x36) (s : State) (i : Item) (g : Nat) (errs : List SilentErr) :
    s.itemDone w i g errs = ((s.reduceItem w i g errs).endItems w.pid g errs).startCore g := by
  simp [State.itemDone, hop, isProduct]

/-- A core with no dispatched work takes no item. -/
theorem startCore_of_works_nil {s : State} (h : s.works = []) (g : Nat) : s.startCore g = s := by
  have hidle : s.busy g = false := by simp [State.busy, h]
  have hnext : s.nextItem g = none := by simp [State.nextItem, h, argMin]
  simp [State.startCore, hidle, hnext]

/-- A program whose rows have all finished is ended: its work goes (R63, R69). -/
theorem works_endItems_program {s : State} {pid : Nat} {w : Work} (hw : s.work pid = some w) (hrun : w.stage = .running)
    (hall : (w.items.all fun i => i.finished) = true) (hop : w.pkt.opcode = 0x35) (ht : w.tags = []) (ho : w.outs = [])
    (hr : w.result = 0) (g : Nat) (errs : List SilentErr) :
    (s.endItems pid g errs).works = dropFirst (fun v => v.pid == pid) s.works := by
  have hend : s.endItems pid g errs = (s.endWrote w).finishRemote pid := by simp [State.endItems, hw, hrun, hall, hop, isProduct]
  have hnoted : (s.endWrote w).work pid = some w := hw
  have hwaiting := ComputeStarts.work_modWork (f := ComputeStarts.waiting) hnoted fun _ => rfl
  obtain ⟨-, hworks⟩ := complete_answered _ hwaiting .done 0 0
  rw [work_pid _ hwaiting, ComputeStarts.dropFirst_modWork _ _ (f := ComputeStarts.waiting) fun _ => rfl] at hworks
  rw [hend, ComputeStarts.finishRemote_done hnoted ht ho hr]
  exact hworks

/-! ## The counterexample -/

/-- A tensor of slot 0 of one FP32 element, in page 1 of tile 0. -/
def source : Tensor :=
  { num := 1, slot := 0, tile := 0, page := 1, bytes := 4, fmt := 2, cplx := false, life := 1, rows := 1, cols := 1, epoch := 0 }

/-- The one item of a REDUCE_MAXMIN, running on core 3. -/
def reduction : Item := { num := 0, core := some 3, started := true }

/-- A REDUCE_MAXMIN packet (opcode 0x36 under RES_HOST) of the source, with its result at host address 4096. -/
def reducer : Work :=
  { pid := 7, pkt := { hdr := [0x836, 0, 1, 4096] }, slot := some 0, fjob := 5, stage := .running, items := [reduction] }

/-- A VECTOR_PROGRAM packet of no rows, which runs under the same number. -/
def program : Work := { pid := 7, pkt := { hdr := [0x35] }, slot := some 0, fjob := 5, stage := .running }

/-- The module with both packets dispatched. -/
def sharing : State := { State.reset with works := [reducer, program], tensors := [source] }

theorem opcode_reducer : reducer.pkt.opcode = 0x36 := by decide +kernel

theorem resHost_reducer : reducer.pkt.resHost = true := by decide +kernel

theorem opcode_program : program.pkt.opcode = 0x35 := by decide +kernel

theorem source_sharing : sharing.tensorKept (reducer.slot.getD 0) (reducer.pkt.par 0) = some source := by decide +kernel

/-- The reduction reads its element sound, with no error corrected and no event. -/
theorem reduceAll_sharing :
    let r := ({ st := sharing.pass 0, core := 3, x := reducer.ctx 3 } : Rdr).reduceAll reducer source []
    r.2.2.fail = none ∧ r.2.2.bad = [] ∧ r.2.2.seen = [] ∧ r.2.1 = [] := by decide +kernel

/-- REDUCE_MAXMIN ends its own packet, and the other stays. -/
theorem works_reduceItem_sharing : ((sharing.pass 0).reduceItem reducer reduction 3 []).works = [program] := by decide +kernel

/-- The end of the item ends the other packet too. -/
theorem works_itemDone_sharing : ((sharing.pass 0).itemDone reducer reduction 3 []).works = [] := by
  rw [itemDone_reduce opcode_reducer]
  have hreduced := works_reduceItem_sharing
  generalize (sharing.pass 0).reduceItem reducer reduction 3 [] = s at hreduced
  have hother : s.work reducer.pid = some program := by rw [State.work, hreduced]; rfl
  have hended : (s.endItems reducer.pid 3 []).works = [] := by
    rw [works_endItems_program hother rfl rfl opcode_program rfl rfl rfl, hreduced]
    rfl
  rw [startCore_of_works_nil hended, hended]

/-! ## The obligation -/

/-- Refutes O29: the clauses of WORK_ITEM_DONE, unlike the one of ITEMS_ASSIGN, do not ask that dispatched packets have distinct numbers. In
`sharing`, a state that they allow, the last clause fails: the end of the reduction's item ends both packets, and the clause says that one of
them goes. -/
theorem not_itemsAreHandedOutAndFinished : ¬ Obligations.ItemsAreHandedOutAndFinished := by
  intro h
  have hrun : sharing.runningItem 3 = some (reducer, reduction) := rfl
  have hwaits : (sharing.pass 0).startWaits 3 = false := by decide +kernel
  obtain ⟨-, -, hclauses⟩ := h.2 sharing 0 3 [] rfl rfl
  obtain ⟨-, -, -, hreduce⟩ := hclauses reducer reduction (by decide) hrun rfl hwaits (List.pairwise_singleton (· ≠ ·) _)
  obtain ⟨hfail, hbad, hseen, hevs⟩ := reduceAll_sharing
  -- The clause writes its reader as a function of the work; without this step the matching below evaluates the reduction.
  dsimp only at hreduce
  obtain ⟨u, hexec, hended, -⟩ := hreduce source opcode_reducer source_sharing rfl resHost_reducer rfl rfl rfl hfail hbad hseen hevs
  rw [exec_workItemDone (by decide) rfl hrun hwaits] at hexec
  obtain rfl := Host.Outcome.next.inj hexec
  rw [land_works, works_itemDone_sharing] at hended
  exact absurd (congrArg List.length hended) (by decide)

end Sys2Proof.SharedNumber
end
